-- ==== Sys2Proof/Word.lean ====
section
/-!
DEFINITION. Word types, field extraction and the status codes of the manual (R5, R6, R12, R13).
-/

namespace Sys2Proof

/-- One byte of memory or of a frame. -/
abbrev Byte := BitVec 8
/-- A 32-bit register or word. -/
abbrev W32 := BitVec 32
/-- A 64-bit descriptor word (R6). -/
abbrev W64 := BitVec 64
/-- A run of bytes, lowest address first. -/
abbrev Bytes := List Byte
/-- A status code, 16 bits wide wherever it is carried (R12). -/
abbrev Status := BitVec 16

/-- Bits [hi:lo] of a word, both ends included, as a number (R5). -/
def fld {n : Nat} (w : BitVec n) (hi lo : Nat) : Nat := (w.toNat >>> lo) % 2 ^ (hi + 1 - lo)

/-- Bit i of a word. -/
def bit {n : Nat} (w : BitVec n) (i : Nat) : Bool := w.getLsbD i

/-- Bits [hi:lo] of a natural number. -/
def nfld (n hi lo : Nat) : Nat := (n >>> lo) % 2 ^ (hi + 1 - lo)

/-- A field value placed with its lowest bit at lo. -/
def at64 (v lo : Nat) : W64 := BitVec.ofNat 64 (v <<< lo)

/-- The little-endian bytes of a number, n of them (R6). -/
def leBytes : Nat → Nat → Bytes
  | 0, _ => []
  | n + 1, v => BitVec.ofNat 8 v :: leBytes n (v / 256)

/-- The number that little-endian bytes spell (R6). -/
def leNat : Bytes → Nat
  | [] => 0
  | b :: bs => b.toNat + 256 * leNat bs

/-- The 64-bit words of a byte run, word 0 first; a short last word is filled with zeros. -/
def wordsOf : Nat → Bytes → List W64
  | 0, _ => []
  | n + 1, bs => BitVec.ofNat 64 (leNat (bs.take 8)) :: wordsOf n (bs.drop 8)

/-- The bytes of a list of 64-bit words, word 0 first (R6). -/
def bytesOf (ws : List W64) : Bytes := ws.flatMap (fun w => leBytes 8 w.toNat)

/-- A two's complement reading of the low n bits of a number. -/
def sext (n v : Nat) : Int :=
  let u := v % 2 ^ n
  if u < 2 ^ (n - 1) then (u : Int) else (u : Int) - (2 ^ n : Nat)

/-- The number modulo 2^n that an integer is congruent to. -/
def wrapInt (n : Nat) (i : Int) : Nat := (i % ((2 ^ n : Nat) : Int)).toNat

/-- Word i of a descriptor, zero past its end. -/
def word (ws : List W64) (i : Nat) : W64 := ws.getD i 0

/-- The bytes of a text. -/
def ascii (s : String) : Bytes := s.toList.map (fun c => BitVec.ofNat 8 c.toNat)

namespace ST
/-- Completed as specified (R12). -/
def ok : Status := 0x0000
def state : Status := 0x0001
def length : Status := 0x0002
def access : Status := 0x0003
def fenced : Status := 0x0004
def timeout : Status := 0x0005
def poison : Status := 0x0006
def unknownOutcome : Status := 0x0007
def barrierMismatch : Status := 0x0008
def streamSkew : Status := 0x0009
def feedShared : Status := 0x000A
def invalid : Status := 0x000B
/-- R562. -/
def pending : Status := 0x0110
def noObject : Status := 0x0111
def noSession : Status := 0x0112
/-- R169. -/
def format : Status := 0x0240
/-- R326. -/
def fttFull : Status := 0x0300
def fttConflict : Status := 0x0301
/-- R364. -/
def peerLimit : Status := 0x0310
/-- R468. -/
def groupMismatch : Status := 0x0360
/-- R502. -/
def digest : Status := 0x0362
def noSpare : Status := 0x0363
def noCopy : Status := 0x0364
/-- R562. -/
def image : Status := 0x0700
end ST

end Sys2Proof
end

