-- ==== Sys2Proof/Syntax.lean ====
section
/-!
DEFINITION. The commands: one constructor per row of spec/opcode_table.json, with the row's operands, and the
records of plain data that operands carry. The row gives no operand list, so each command carries what its rule says
arrives from outside the block (an address, a register field, a reading, a packet, the far side's answer); everything
else its meaning takes from the state. Log entry 1.
-/

namespace Sys2Proof

/-- The path by which a dictionary request arrives, with the session or the in-band slot (R551). Session 0 is
unauthenticated. `service` is the service interface of R617. -/
inductive Path where
  | field (session : Nat)
  | mailbox (session : Nat)
  | slot (n : Nat)
  | service
  deriving DecidableEq, Repr

/-- The resident thread group an instruction issues for: grid, block number within the grid, group within the block. -/
structure Where where
  grid : Nat
  block : Nat
  group : Nat
  deriving DecidableEq, Repr

/-- The fields of an instruction word below CLASS and OP (R73). -/
structure Fields where
  pred : BitVec 3
  pneg : Bool
  dst : BitVec 8
  srcA : BitVec 8
  srcB : BitVec 8
  srcC : BitVec 8
  imm : BitVec 16
  deriving DecidableEq, Repr

/-- What the tests of a function's start find (R519, R626, R633): whether it works only in part; clusters that fail theirs, LLC ways, as 16 * set key + way;
HBM stacks that fail training, and HBM lanes to repair, as 36 * pseudo-channel + lane, the ECC lanes last. -/
structure StartTests where
  degraded : Bool
  clusters : List Nat
  ways : List Nat
  trainFailed : List Nat
  lanes : List Nat
  deriving DecidableEq, Repr

/-- A CXL expander as a training finds it (R276, R280, R283): its capacity, serial number and latency, and whether it has kept its
power, and so its contents, since the port's last training. -/
structure Expander where
  capacity : Nat
  serial : Nat
  latency : Nat
  kept : Bool
  deriving DecidableEq, Repr

/-- An error of the arrays of an LLC slice (R259): of one bit of a word, of two, or a slice that can no longer be read. -/
inductive LlcError where
  | single | double | unreadable
  deriving DecidableEq, Repr

/-- What the patrol scrub's read of a line of its granule meets: errors on its symbols, and whether the stack reports a
severity with it (R253, R264). -/
structure LineRead where
  line : Nat
  errs : List (Nat × BitVec 16)
  report : Bool
  deriving DecidableEq, Repr

/-- The kind of a request packet, OPK of R373. -/
inductive PktKind where
  | store | atomic | accum | write | read | count
  deriving DecidableEq, Repr

/-- A request packet: the FULL header of R373 with its payload. -/
structure Packet where
  opk : PktKind
  retx : Bool
  prio : Bool
  cntEn : Bool
  len : Nat
  entropy : Nat
  ctx : Nat
  srcDev : Nat
  dst : Nat
  slot : Nat
  seq : Nat
  epoch : Nat
  relmark : Nat
  cnt : Nat
  code : Nat
  operand : W64
  compare : W64
  payload : Bytes
  /-- bytes of the payload, by their index in it, that lie in lines read as poison (log entry 12) -/
  poison : List Nat
  deriving DecidableEq, Repr

/-- A response: the RESP header of R375 with the data that follows it. -/
structure Resp where
  slot : Nat
  dstDev : Nat
  hot : Bool
  busy : Bool
  lost : Bool
  epoch : Nat
  pbase : Nat
  seq : Nat
  status : Status
  mask : Nat
  data : Bytes
  /-- bytes of the data, by their index in it, that lie in lines read as poison (log entry 12) -/
  poison : List Nat
  deriving DecidableEq, Repr

/-- A vote of the commit gate (R441): step, attempt, verdict code and the agreed-scale bytes. -/
structure Vote where
  step : Nat
  attempt : Nat
  verdict : Nat
  sexp : List Nat
  deriving DecidableEq, Repr

/-- Who stores to or loads from a doorbell (R306): a sequencer processor, or a host through the bridge (R392), or any
other agent. -/
inductive Agent where
  | sequencer
  | host (edge : Nat)
  | other
  deriving DecidableEq, Repr

/-- What the far end of a port presents at training (R386, R588). -/
structure Peer where
  /-- generation 1 to 3 -/
  gen : Nat
  dev : Nat
  port : Nat
  isSwitch : Bool
  /-- highest lane rate code: 1 56, 2 112, 3 224 Gbit/s -/
  rate : Nat
  spare : Bool
  /-- whether the peer agrees to the inner code -/
  inner : Bool
  /-- whether training agreed on precoding with this peer -/
  precode : Bool
  /-- physical lanes L0 to L4 that failed to lock, bit k for Lk -/
  lanesBad : Nat
  /-- pre-FEC bit error ratio measured at training, FP32 bits -/
  ber : W32
  /-- credit window that a P2 peer states (R359) -/
  window : Nat
  nonce : Bytes
  publicKey : Bytes
  credential : Bytes
  signature : Bytes
  deriving DecidableEq, Repr

/-- An image offered to the update path or held in a slot (R556, R582): manifest fields, body and signature. -/
structure Image where
  release : Nat
  secVersion : Nat
  minSeqRelease : Nat
  bodyDigest : Bytes
  publicKey : Bytes
  signature : Bytes
  body : Bytes
  deriving DecidableEq, Repr

/-- A frame of the field network, the mailbox or the service interface before its payload is read (R544). -/
structure Frame where
  version : Nat
  type : Nat
  fragLast : Nat
  fragIdx : Nat
  tagged : Bool
  reserved : Bool
  session : Nat
  seq : Nat
  payload : Bytes
  tag : Bytes
  deriving DecidableEq, Repr

/-- A sensor class of R535. -/
inductive SensorKind where
  | temperature | stackTemperature | railVoltage | railCurrent | input | coolant | laser
  deriving DecidableEq, Repr

/-- A function with a readiness object (R570): the object's key, 256 * index + sub. -/
abbrev FunctionKey := Nat

/-- The commands of the block. Each constructor's docstring names its row of spec/opcode_table.json. -/
inductive Instr where
  -- Pace, handshakes and timing
  | supplySetpointWrite (p : Path) (mv : Nat)
  | setpointRamp (delta : Nat)
  | monitorWindow (readings : List (Option W32))
  | packetPublish (port : Nat) (trace : Option (List W64))
  | tick
  -- Cores and thread groups: grids
  | launch (addr mb : Nat)
  | blockStart (grid core : Nat)
  | gridComplete (grid : Nat)
  | illegalInstruction (w : Where) (inst : W64)
  -- Integer class
  | add (w : Where) (f : Fields)
  | sub (w : Where) (f : Fields)
  | mulLo (w : Where) (f : Fields)
  | mulHi (w : Where) (f : Fields)
  | mad (w : Where) (f : Fields)
  | min (w : Where) (f : Fields)
  | max (w : Where) (f : Fields)
  | and (w : Where) (f : Fields)
  | or (w : Where) (f : Fields)
  | xor (w : Where) (f : Fields)
  | not (w : Where) (f : Fields)
  | shl (w : Where) (f : Fields)
  | shr (w : Where) (f : Fields)
  | sar (w : Where) (f : Fields)
  | popc (w : Where) (f : Fields)
  | clz (w : Where) (f : Fields)
  | setp (w : Where) (f : Fields)
  | sel (w : Where) (f : Fields)
  | bfe (w : Where) (f : Fields)
  | bfi (w : Where) (f : Fields)
  -- FP32 class
  | fadd (w : Where) (f : Fields)
  | fsub (w : Where) (f : Fields)
  | fmul (w : Where) (f : Fields)
  | ffma (w : Where) (f : Fields)
  | fmin (w : Where) (f : Fields)
  | fmax (w : Where) (f : Fields)
  | fabs (w : Where) (f : Fields)
  | fneg (w : Where) (f : Fields)
  | fsetp (w : Where) (f : Fields)
  -- Conversion and special functions
  | cvt (w : Where) (f : Fields)
  | rcp (w : Where) (f : Fields)
  | rsq (w : Where) (f : Fields)
  | ex2 (w : Where) (f : Fields)
  | lg2 (w : Where) (f : Fields)
  | sin (w : Where) (f : Fields)
  | cos (w : Where) (f : Fields)
  -- Moves
  | mov (w : Where) (f : Fields)
  | movi (w : Where) (f : Fields)
  | sreg (w : Where) (f : Fields)
  | pmov (w : Where) (f : Fields)
  -- Loads, stores, atomics, fences
  | lds (w : Where) (f : Fields)
  | sts (w : Where) (f : Fields)
  | ld (w : Where) (f : Fields)
  | st (w : Where) (f : Fields)
  | atoms (w : Where) (f : Fields)
  | atom (w : Where) (f : Fields)
  | fenceAcquire (w : Where) (f : Fields)
  | fenceRelease (w : Where) (f : Fields)
  | fenceBoth (w : Where) (f : Fields)
  | fenceComplete (w : Where)
  -- Control, barriers, shuffles, votes
  | bra (w : Where) (f : Fields)
  | brx (w : Where) (f : Fields)
  | call (w : Where) (f : Fields)
  | ret (w : Where) (f : Fields)
  | exitLane (w : Where) (f : Fields)
  | yieldIssue (w : Where) (f : Fields)
  | nop (w : Where) (f : Fields)
  | barGroup (w : Where) (f : Fields)
  | barBlock (w : Where) (f : Fields)
  | barrierTimeout (w : Where) (lane : Nat)
  | shfl (w : Where) (f : Fields)
  | any (w : Where) (f : Fields)
  | all (w : Where) (f : Fields)
  | uni (w : Where) (f : Fields)
  | ballot (w : Where) (f : Fields)
  | matchVote (w : Where) (f : Fields)
  -- Posting and counter waits
  | mxi (w : Where) (f : Fields)
  | chi (w : Where) (f : Fields)
  | fxi (w : Where) (f : Fields)
  | waitc (w : Where) (f : Fields)
  | waita (w : Where) (f : Fields)
  | counterWaitTimeout (w : Where) (lane : Nat)
  | storeAck (w : Where) (ix : Nat) (status : Status)
  -- Matrix arrays, skate paths, Piste engines
  | matrixOpStart (cluster : Nat) (skate : Bool) (checkFailed : Bool)
  | matrixOpComplete (cluster : Nat) (skate : Bool)
  | matrixReadPoison (cluster : Nat) (skate : Bool)
  | tileCheck (cluster : Nat) (skate : Bool)
  | chainOpStart (core : Nat) (checkFailed : Bool)
  | chainOpComplete (core : Nat)
  | chainReadPoison (core : Nat)
  | layerGridsEnd
  -- Memory
  | hbmRead (addr : Nat) (errs : List (Nat × BitVec 16)) (onDie : Bool)
  | llcEccError (addr way : Nat) (kind : LlcError)
  | scrubGranule (reads : List LineRead)
  | granuleRetireDone (granule : Nat)
  | dieLoss (stack die : Nat) (portSilent : Bool)
  | dieRehomeDone
  | prefetchFill (core line : Nat)
  | accAddI32 (addr : Nat) (operand : Bytes)
  | accAddI64 (addr : Nat) (operand : Bytes)
  | accAddF32 (addr : Nat) (operand : Bytes)
  | accAddBf16 (addr : Nat) (operand : Bytes)
  | accAddFp16 (addr : Nat) (operand : Bytes)
  | accMaxF32 (addr : Nat) (operand : Bytes)
  | accMinF32 (addr : Nat) (operand : Bytes)
  | combineWriteback (line : Nat) (needed : Bool)
  | cxlTimeout (port : Nat)
  | cxlRetrain (port : Nat) (trained : Bool) (expander : Expander) (rate width : Nat)
  | cxlFailTime (port : Nat)
  -- Twizan memory space
  | deviceNumberWrite (p : Path) (n : Nat)
  | create (p : Path) (ctx : Nat) (reserved : Bool)
  | teardown (p : Path) (ctx : Nat) (reserved : Bool)
  | localRegionWrite (p : Path) (ctx slot : Nat) (w1 w2 : W64) (reserved : Bool)
  | insert (p : Path) (e0 e1 : W64) (reserved : Bool)
  | remove (p : Path) (e0 e1 : W64) (reserved : Bool)
  | setrights (p : Path) (e0 e1 : W64) (reserved : Bool)
  | removeContext (p : Path) (ctx : Nat) (reserved : Bool)
  | fttBulkInsert (p : Path) (entries : List (W64 × W64))
  | fttCommandDone
  | doorbellPost (a : Agent) (core queue ctx : Nat) (desc : W64)
  | doorbellStatusRead (a : Agent) (core queue ctx : Nat)
  | store (op : Nat)
  | flaggedStore (op : Nat)
  | atomic (op : Nat)
  | accum (op : Nat)
  | copy (op : Nat)
  | fabricOpIssue (core queue : Nat)
  | packetSend (op pkt : Nat)
  | requestArrival (p : Packet) (waiting : Nat)
  | responseArrival (r : Resp)
  | fabricOpComplete (op : Nat)
  | planePortChange (plane dev : Nat) (up : Bool)
  | hotHoldExpiry (dev line : Nat)
  | packetAgeDiscard (port : Nat) (place : Nat × Nat)
  | replayEntryExpiry (src slot seq : Nat)
  | busyResend (op pkt : Nat)
  | txTimeout (op pkt : Nat)
  | lostCompletion (op pkt : Nat)
  | drainEnd (ctx : Nat)
  | quietEnd (ctx : Nat)
  | p1OrderHoldExpiry (src : Nat)
  | topologyWrite (p : Path) (index sub value : Nat)
  -- Optical fabric ports and edge ports
  | flitReceive (port : Nat) (lanes01 lanes23 : Option Nat × Option Nat) (spare : Option Nat)
  | nak (port seq : Nat)
  | ackTimeout (port : Nat)
  | linkGiveUp (port : Nat)
  | laneDegrade (port lane beyond : Nat)
  | laneMove (port lane pair : Nat)
  | laneFail (port lane : Nat)
  | retrain (port : Nat)
  | portOutage (port : Nat)
  | outageHoldExpiry (port : Nat) (relocked : Bool)
  | laserInputLow (engine : Nat) (held : Nat)
  | portTraining (port : Nat) (peer : Option Peer) (nonce : Bytes)
  | trainingRetry (port : Nat)
  | hostBar0Access (edge : Nat) (offset size : Nat) (write : Option Bytes)
  | hostBar2Access (edge : Nat) (offset size : Nat) (write : Option Bytes)
  | hostReadComplete (op : Nat)
  -- Antler
  | run (op : Nat)
  | slot8L (addr : Nat) (operand : Bytes)
  | slot8R (addr : Nat) (operand : Bytes)
  | slot16L (addr : Nat) (operand : Bytes)
  | slot16R (addr : Nat) (operand : Bytes)
  | slot32L (addr : Nat) (operand : Bytes)
  | slot32R (addr : Nat) (operand : Bytes)
  | antlerUpChunk (op tree : Nat)
  | antlerDownChunk (op tree : Nat)
  | markList (op tree : Nat)
  | repairPass (op tree : Nat)
  | runComplete (op : Nat)
  | antlerWaitTimeout (op : Nat)
  -- Step sequencer and services
  | load (p : Path) (table : Nat) (reserved : Bool)
  | start (p : Path) (count : Nat) (reserved : Bool)
  | stop (p : Path) (reserved : Bool)
  | unload (p : Path) (reserved : Bool)
  | stepOpen
  | launchItem (item : Nat)
  | postItem (item : Nat)
  | waitItem (item : Nat)
  | layerItem (item : Nat)
  | lowrankItem (item : Nat)
  | pipelineUnit
  | gateVote
  | voteReceive (fromRoot : Bool) (rank : Nat) (v : Vote)
  | heritageVote (rank : Nat) (w : W64)
  | verdictApply
  | gateWaitExpiry
  | serviceFailover (sq : Nat)
  | admitGroup (p : Path) (group n rank list : Nat) (reserved : Bool)
  | admissionDone (group : Nat) (digests : Option (List Bytes))
  | release (p : Path) (group : Nat) (reserved : Bool)
  -- Tandem copies and job recovery
  | configure (p : Path) (table count : Nat) (reserved : Bool)
  | partner (p : Path) (dev : Nat) (override reserved : Bool)
  | partnerTimeout
  | unpair (p : Path) (reserved : Bool)
  | refresh (p : Path) (reserved : Bool)
  | restore (p : Path) (fromMemory : Bool) (arg1 arg2 : Nat) (held : Option Bytes) (reserved : Bool)
  | restoreRouting
  | restorePosition
  | restoreTensors
  | takeover (p : Path) (dev : Nat) (reserved : Bool)
  | copyChunkReceive (head : Option Bytes) (ix : Nat) (chunk : Bytes)
  | copyRequest
  | sealReport (rank step : Nat) (failed : Bool)
  | jobSealNotice (step : Nat) (failed : Bool)
  | refetch (line : Nat) (fetched : List (Nat × Bytes))
  | refetchNotice (step : Nat)
  | probeTimeout
  | spareClaim (answers : List Bool) (sealedSteps : List Nat)
  | takeoverNotice (lost spare target : Nat)
  -- Faults and reset tiers
  | engineHang (engine : Nat)
  | heartbeatMissed (sq : Nat)
  | engineResetDone (engine : Nat)
  | resetEscalation (engine : Nat)
  | clusterMoveDone (cluster : Nat) (spareTests : List Bool) (unreadable : Bool)
  | kickTurnDone (failedClusters : List Nat)
  | fullRestartDone
  | fenceDrainExpiry
  | engineReset (p : Path) (engine : Nat) (reserved : Bool)
  | clusterMove (p : Path) (cluster : Nat) (reserved : Bool)
  | kickTurn (p : Path) (reserved : Bool)
  | fullRestart (p : Path) (reserved : Bool)
  | powerPhaseFault (die : Nat)
  -- Hivan
  | lockstepMismatch (mc0 mc1 : Bool)
  | simplexSelfTest (pass : Bool)
  | managementWatchdog (mc0 mc1 : Bool)
  | sensorSample (kind : SensorKind) (readings : List W32) (badSensors : List Nat)
  | logEntry (source : Nat)
  | logReadCursorWrite (p : Path) (seq : Nat)
  | logReadData (p : Path) (offset count : Nat)
  | hello (mailbox : Bool) (slot : Nat) (nonce encapKey : Bytes)
  | finish (mailbox : Bool) (hs : Nat) (signature tag : Bytes)
  | handshakeTimeout (hs : Nat)
  | close (session : Nat)
  | sessionIdleExpiry (session : Nat)
  | tagFailure (session : Nat)
  | fragmentTimeout (session seq : Nat)
  | read (p : Path) (index sub offset count : Nat) (reserved : Bool)
  | write (p : Path) (index sub offset : Nat) (more reserved : Bool) (value : Bytes)
  | describe (p : Path) (index sub : Nat) (reserved : Bool)
  | subscribe (p : Path) (severity : Nat) (reserved : Bool)
  | slotDoorbell (slot : Nat) (sequencer : Bool) (seq : W64)
  | mailboxDoorbell (len : Nat) (frame : Frame)
  | begin (p : Path) (len : Nat) (reserved : Bool)
  | eraseDone
  | updateDataWrite (p : Path) (offset : Nat) (value : Bytes)
  | verify (p : Path) (reserved : Bool)
  | verifyDone (image : Image)
  | activate (p : Path) (now reserved : Bool)
  | confirm (p : Path) (reserved : Bool)
  | abort (p : Path) (reserved : Bool)
  | hivanRestart (p : Path) (reserved : Bool)
  | trialRollback
  -- Identity, attestation and tamper response
  | ownerRecordInstall (p : Path) (record : Bytes)
  | attestNonceWrite (p : Path) (nonce : Bytes)
  | attestReportRead (p : Path) (offset count : Nat)
  | tamperTrip (sensor : Nat) (tripped : Bool)
  | tamperSelfTest (sensor : Nat) (pass : Bool)
  | clear (p : Path) (reserved : Bool)
  | unlock (p : Path) (reserved : Bool)
  | reprovision (serial : Bytes) (trips : Nat) (signature newResponse certificate : Bytes)
  -- Power
  | input48VRange (volts : W32) (heldUs : Nat)
  | input12VRange (volts : W32) (heldUs : Nat)
  | powerLimitWindow (meanPower : W32)
  | governorWindow (current demand : W32) (ballast : W32)
  | discharge (volts : W32) (heldUs : Nat)
  | thermalLimit
  | pwrEnAssert (sinkCurrent : W32)
  | pwrEnRelease
  | powerCycleRequest
  | serviceInterfaceFrame (f : Frame)
  -- Start-up
  | hivanStart (response : Bytes) (slotId : Nat) (mc : Bool)
  | functionStart (f : FunctionKey)
  | functionReady (f : FunctionKey) (failed : Bool) (tests : StartTests)
  | hbmInitialised
  | installationWrite (p : Path) (index sub : Nat) (value : Bytes)
  | registerWrite (p : Path) (index sub : Nat) (value : Bytes)
  | edgeLinkStateChange (edge state : Nat) (rateWidth : Nat × Nat) (d3hot : Bool)
  | fundamentalReset (edge : Nat) (asserted : Bool)
  | flitTransmit (port : Nat)
  | restartRetxPeriodEnd
  | managementCoreError (pass : Bool)
  | plcaStatusChange (up : Bool)
  | icmpv6EchoRequest (dst : Bytes) (payload : Bytes)
  | neighbourSolicitation (target : Bytes)
  | helperDataErased
  | powerDownComplete
  | sealAcknowledgement (step : Nat)
  | partnerProposalReceived (dev : Nat) (override : Bool) (feed : Nat) (imageBytes : Nat) (storeFits : Bool)
  deriving DecidableEq, Repr

end Sys2Proof
end

