-- ==== Sys2Proof/Decode.lean ====
section
/-!
DEFINITION. The decoders: of the instruction words of threads (R73, R76), and of table words. No row of
spec/opcode_table.json gives bits, so no table word spells a command; what bits the manual gives are those of R73.
-/

namespace Sys2Proof

/-- The fields of an instruction word below CLASS and OP (R73). -/
def fieldsOf (i : W64) : Fields :=
  { pred := BitVec.ofNat 3 (fld i 51 49), pneg := bit i 48, dst := BitVec.ofNat 8 (fld i 47 40),
    srcA := BitVec.ofNat 8 (fld i 39 32), srcB := BitVec.ofNat 8 (fld i 31 24), srcC := BitVec.ofNat 8 (fld i 23 16),
    imm := BitVec.ofNat 16 (fld i 15 0) }

/-- The integer class. -/
def decodeInt (w : Where) (f : Fields) : Nat → Option Instr
  | 0x00 => some (.add w f) | 0x01 => some (.sub w f) | 0x02 => some (.mulLo w f) | 0x03 => some (.mulHi w f)
  | 0x04 => some (.mad w f) | 0x05 => some (.min w f) | 0x06 => some (.max w f) | 0x07 => some (.and w f)
  | 0x08 => some (.or w f) | 0x09 => some (.xor w f) | 0x0A => some (.not w f) | 0x0B => some (.shl w f)
  | 0x0C => some (.shr w f) | 0x0D => some (.sar w f) | 0x0E => some (.popc w f) | 0x0F => some (.clz w f)
  | 0x10 => some (.setp w f) | 0x11 => some (.sel w f) | 0x12 => some (.bfe w f) | 0x13 => some (.bfi w f)
  | _ => none

/-- The FP32 class. -/
def decodeFp (w : Where) (f : Fields) : Nat → Option Instr
  | 0x00 => some (.fadd w f) | 0x01 => some (.fsub w f) | 0x02 => some (.fmul w f) | 0x03 => some (.ffma w f)
  | 0x04 => some (.fmin w f) | 0x05 => some (.fmax w f) | 0x06 => some (.fabs w f) | 0x07 => some (.fneg w f)
  | 0x08 => some (.fsetp w f)
  | _ => none

/-- Conversion and special functions, moves. -/
def decodeCvt (w : Where) (f : Fields) : Nat → Option Instr
  | 0x00 => some (.cvt w f) | 0x10 => some (.rcp w f) | 0x11 => some (.rsq w f) | 0x12 => some (.ex2 w f)
  | 0x13 => some (.lg2 w f) | 0x14 => some (.sin w f) | 0x15 => some (.cos w f)
  | _ => none

def decodeMove (w : Where) (f : Fields) : Nat → Option Instr
  | 0x00 => some (.mov w f) | 0x01 => some (.movi w f) | 0x02 => some (.sreg w f) | 0x03 => some (.pmov w f)
  | _ => none

/-- Loads and stores, atomics. -/
def decodeMem (w : Where) (f : Fields) : Nat → Option Instr
  | 0x00 => some (.lds w f) | 0x01 => some (.sts w f) | 0x02 => some (.ld w f) | 0x03 => some (.st w f)
  | _ => none

def decodeAtom (w : Where) (f : Fields) : Nat → Option Instr
  | 0x00 => some (.atoms w f) | 0x01 => some (.atom w f)
  | _ => none

/-- FENCE, by its kind in IMM[3:2] (R97). -/
def decodeFence (w : Where) (f : Fields) (op : Nat) : Option Instr :=
  if op = 0 then
    match fld f.imm 3 2 with
    | 0 => some (.fenceAcquire w f)
    | 1 => some (.fenceRelease w f)
    | 2 => some (.fenceBoth w f)
    | _ => none
  else none

def decodeControl (w : Where) (f : Fields) : Nat → Option Instr
  | 0x00 => some (.bra w f) | 0x01 => some (.brx w f) | 0x02 => some (.call w f) | 0x03 => some (.ret w f)
  | 0x04 => some (.exitLane w f) | 0x05 => some (.yieldIssue w f) | 0x06 => some (.nop w f)
  | _ => none

/-- Barriers, shuffles, votes. -/
def decodeBar (w : Where) (f : Fields) : Nat → Option Instr
  | 0x00 => some (.barGroup w f) | 0x01 => some (.barBlock w f)
  | _ => none

def decodeVote (w : Where) (f : Fields) : Nat → Option Instr
  | 0x00 => some (.any w f) | 0x01 => some (.all w f) | 0x02 => some (.uni w f) | 0x03 => some (.ballot w f)
  | 0x04 => some (.matchVote w f)
  | _ => none

def decodeWait (w : Where) (f : Fields) : Nat → Option Instr
  | 0x00 => some (.waitc w f) | 0x01 => some (.waita w f)
  | _ => none

/-- The command that an instruction word stands for where a group issues it (R73, R76); a word whose class, operation or
kind of fence is not defined is an illegal instruction. -/
def decodeThread (w : Where) (i : W64) : Instr :=
  let f := fieldsOf i
  let op := fld i 59 52
  let c := match fld i 63 60 with
    | 0x0 => decodeInt w f op
    | 0x1 => decodeFp w f op
    | 0x2 => decodeCvt w f op
    | 0x3 => decodeMove w f op
    | 0x4 => decodeMem w f op
    | 0x5 => decodeAtom w f op
    | 0x6 => decodeFence w f op
    | 0x7 => decodeControl w f op
    | 0x8 => decodeBar w f op
    | 0x9 => if op = 0 then some (.shfl w f) else none
    | 0xA => decodeVote w f op
    | 0xB => if op = 0 then some (.mxi w f) else none
    | 0xC => if op = 0 then some (.chi w f) else none
    | 0xD => if op = 0 then some (.fxi w f) else none
    | 0xE => decodeWait w f op
    | _ => none
  c.getD (.illegalInstruction w i)

/-- The command that a word spells by the table's bits: the table gives no row any bits, so none (log entry 1). -/
def decodeTableWord (_nbits _w : Nat) : Option Instr := none

end Sys2Proof
end

