-- ==== Sys2Proof/Config.lean ====
section
/-!
DEFINITION. What one module fixes and the manual does not state: constants set at manufacture, results the manual
bounds but does not give, and the primitives of the cryptographic algorithms it names. None of them has a body, so no
proof can see a value: a claim holds whatever they are. Log entries 2 and 3.
-/

namespace Sys2Proof.Config

/-- The n-th free value drawn: a value the manual leaves open (log entry 2). -/
opaque freeValue : Nat → W64

/-- Whether an element that an operation reads where its outputs overlap its inputs is the old or the new one (R166, R247):
the number of the draw and the address of the element's first bit. -/
opaque mix : Nat → Nat → Bool
/-- What the spare lane of a port carries between its markers, as bits: the spec says only that it is driven (R365). -/
opaque spareLane : Nat → Nat

/-! ### Set at manufacture (R17, R33) -/

opaque serialNumber : Bytes
opaque computeDieId : Nat → Nat
opaque linkDieId : Nat → Nat
opaque macAddress : Nat
/-- Whether the tray ties SVC_EN_N low (R617). -/
opaque svcTied : Bool
/-- The default of operator slot 0 that the factory record sets (R583), empty for none. -/
opaque operatorKey0 : Bytes
/-- Digest of the factory record set at manufacture (R585). -/
opaque factoryDigest : Bytes

/-! ### Approximations of the special functions (R184): the manual bounds their error and gives no bits; each names the value
that the module would deliver, and one outside the bound is not taken -/

opaque rcp : W32 → W32
opaque rsq : W32 → W32
opaque ex2 : W32 → W32
opaque lg2 : W32 → W32
opaque sin : W32 → W32
opaque cos : W32 → W32
/-- INC.WRAP and DEC.WRAP (R92): old value, operand. -/
opaque incWrap : Nat → Nat → Nat
opaque decWrap : Nat → Nat → Nat
/-- SEL, BFE, BFI (R76): the roles of their operands are not stated: operands A, B, C, IMM and the predicates as bits. -/
opaque sel : Nat → Nat → Nat → Nat → Nat → Nat
opaque bfe : Nat → Nat → Nat → Nat → Nat → Nat
opaque bfi : Nat → Nat → Nat → Nat → Nat → Nat
/-- PMOV (R76): the direction of the move and its operands are not stated: what predicate i and what DST hold after
it, from the instruction's fields, register A and the predicates as bits. -/
opaque pmovPred : Nat → W64 → W32 → Nat → Bool
opaque pmovReg : W64 → W32 → Nat → W32

/-- The text of unit and range that DESCRIBE returns for an object (R545): the manual bounds its length. -/
opaque unitText : Nat → Bytes

/-! ### Cryptography (R579 and the chapter on identity): names of algorithms defined elsewhere -/

/-- SHA3-512. -/
opaque sha3_512 : Bytes → Bytes
/-- KMAC256 with a key, a message, an output length and a customisation string. -/
opaque kmac256 : Bytes → Bytes → Nat → Bytes → Bytes
/-- ML-DSA-87 verification: public key, context or label, message, signature. -/
opaque mldsaVerify : Bytes → Bytes → Bytes → Bytes → Bool
/-- ML-DSA-87 signing: secret identity, label, message. -/
opaque mldsaSign : Bytes → Bytes → Bytes → Bytes
/-- Public key of a secret identity. -/
opaque mldsaPublic : Bytes → Bytes
/-- ML-KEM encapsulation: encapsulation key and a fresh random value; ciphertext and shared secret. -/
opaque kemCipher : Bytes → Nat → Bytes
opaque kemSecret : Bytes → Nat → Bytes
/-- Fresh random bytes: the draw number and how many. -/
opaque random : Nat → Nat → Bytes
/-- The Gomund keys: 0 the firmware key, 1 the manufacturing key (R578). -/
opaque factoryKey : Nat → Bytes
/-- Whether some copy of a record of FL passes its check at the start with a boot number: 0 the factory record, 1 the repair
record, 2 the installation record, 3 the owner record (R575, R583, R625); and whether an image does: 4 slot A's, 5 slot B's
(R582). -/
opaque recordGood : Nat → Nat → Bool
/-- The device certificate set at manufacture (R581). -/
opaque certificate : Bytes

end Sys2Proof.Config
end

