-- ==== Sys2Proof/Machine/State.lean ====
section
/-!
DEFINITION. The state of the block as plain data, its faults and refusals, and the state after reset.
Everything keyed by a number is a `Map`: a list of (key, value) pairs with rising keys and no entry equal to what an
unlisted key reads as, so that equal contents are equal data.
-/

namespace Sys2Proof.Machine

/-- A sparse table: keys rising, no entry equal to the value an unlisted key reads as. -/
abbrev Map (α : Type) := List (Nat × α)

/-! ## Events, packets and the log (R54-R59, R536-R542) -/

/-- An event as raised: its four digits, the instance it names, its details (R536). -/
structure Event where
  id : Nat
  inst : Nat
  detail0 : Nat
  details : List Nat
  deriving DecidableEq, Repr

/-- One event or trace FIFO of a management-bus port (R52, R55, R56): published packets, oldest first, and what was
dropped since the previous packet. -/
structure Fifo where
  packets : List (List W64)
  dropPkts : Nat
  dropWords : Nat
  deriving DecidableEq, Repr

/-- A log entry (R537). -/
structure LogRec where
  seq : Nat
  time : Nat
  boot : Nat
  event : Nat
  source : Nat
  severity : Nat
  inst : Nat
  rep : Nat
  detail0 : Nat
  details : List Nat
  deriving DecidableEq, Repr

/-- Who holds a cursor, a snapshot, a nonce or a stage: a session or an in-band slot (R541, R548, R586). -/
inductive Client where
  | session (id : Nat)
  | slot (n : Nat)
  deriving DecidableEq, Repr

/-- The event path: raised events waiting to be published by their die (port 0-9, 16 for Hivan itself), the FIFOs,
what was read from the trace FIFOs, and the per-event rate marks. -/
structure EvState where
  raised : List (Nat × Event)
  events : Map Fifo
  traces : Map Fifo
  /-- tick at which a rate-limited event was last raised, by 65536 * key + event -/
  lastRaised : List (Nat × Nat)
  /-- tick of the last state refusal of an object by a client, for the coalescing of R555 -/
  refusals : List (Client × Nat × Nat × Nat)
  /-- one more than the highest SEQ of an entry that has been read from the log (R616) -/
  readTo : Nat
  deriving DecidableEq, Repr

/-- The log of Hivan: the RAM ring, the persistent log, the sequence counter, the boot count and the allowance of
persistent writes (R537-R539). -/
structure LogStore where
  ring : List LogRec
  persisted : List LogRec
  nextSeq : Nat
  /-- SEQ base recorded in FL, none before the first start after manufacture (R538) -/
  seqBase : Option Nat
  boot : Nat
  persistTokens : Nat
  persistTick : Nat
  deriving DecidableEq, Repr

/-! ## Memory (chapters 4 and 9) -/

/-- A line as some memory holds it: its bytes, and whether it is poison. -/
structure LineCopy where
  data : Bytes
  poison : Bool
  deriving DecidableEq, Repr

/-- A line held by its LLC slice (R258); the list of them is in order of use, latest first. -/
structure LlcLine where
  line : Nat
  dirty : Bool
  /-- what the memory behind the slice holds where it is not this copy: of a dirty line of the CXL window what the expander
  holds (R280), of a clean line what HBM holds (R261, R264) -/
  below : Option LineCopy
  deriving DecidableEq, Repr

/-- A line in a combining queue (R273); for one of the CXL window, what the expander holds. -/
structure QueueLine where
  line : Nat
  below : Option LineCopy
  deriving DecidableEq, Repr

/-- A stream tracker of a core's Schuss prefetchers (R269). -/
structure Tracker where
  last : Nat
  stride : Int
  hits : Nat
  deriving DecidableEq, Repr

/-- A buffered line of a prefetcher, with its bytes as they were at the fill. -/
structure BufLine where
  line : Nat
  data : Bytes
  deriving DecidableEq, Repr

/-- The prefetchers of one core: trackers, the latest first, and buffered lines, the one filled least recently last. -/
structure Prefetcher where
  trackers : List Tracker
  buffer : List BufLine
  deriving DecidableEq, Repr

/-- State of a CXL port (R280). -/
inductive CxlSt where
  | off | up | down | failed
  deriving DecidableEq, Repr

/-- An edge port in the CXL role: capacity and serial of its first training, and when it went down. -/
structure CxlPort where
  st : CxlSt
  capacity : Nat
  serial : Nat
  downSince : Nat
  lastTrain : Nat
  deriving DecidableEq, Repr

/-- A retirement in a controller's table (R265): granule, spare granule, and whether the copy has completed. -/
structure Retired where
  granule : Nat
  spare : Nat
  done : Bool
  deriving DecidableEq, Repr

/-- The memory system: bytes as their coherence points hold them, poisoned lines, and everything the controllers and
slices remember. -/
structure MemState where
  cells : List Host.Cell
  poison : List Nat
  llc : List LlcLine
  /-- corrected LLC errors, by 16 * set key + way: the ticks of them -/
  llcErrs : Map (List Nat)
  /-- disabled ways, 16 * set key + way -/
  llcOff : List Nat
  /-- corrected reads per granule, most recent granule first: granule and ticks (R265) -/
  corrected : List (Nat × List Nat)
  retired : List Retired
  tableFull : List Nat
  /-- uncorrectable reads: 1024 * (16 * stack + die) + pseudo-channel, with their ticks (R267) -/
  uncorrectable : List (Nat × Nat)
  /-- the lost die, 16 * stack + die -/
  lost : Option Nat
  /-- access to the lost range is held until the re-homing is done (R267) -/
  rehoming : Bool
  /-- lines of the lost range written whole since the loss -/
  healed : List Nat
  /-- the lost range reads as poison but for those lines: not so once a power cycle has written every line anew (R629) -/
  lostPoison : Bool
  /-- HBM lanes replaced by a repair, as 36 * pseudo-channel + lane (R253, R625) -/
  laneRepairs : List Nat
  scrubNext : Nat
  /-- lines in the combining queues (R273) -/
  combining : List QueueLine
  prefetch : Map Prefetcher
  cxl : Map CxlPort
  /-- CxlPlacement in force since the last full restart (R277) -/
  placement : Nat
  /-- every line is still to be written with a valid zero codeword after a power cycle (R629) -/
  initDue : Bool
  /-- role in force of each edge port since the last full restart (R387) -/
  roles : List Nat
  deriving DecidableEq, Repr

/-! ## Threads (chapter 3) -/

/-- What a lane is doing: running, ended, waiting at a barrier (kind, number, mask or count, the tick it began), on a
counter, or at a fence. -/
inductive LaneSt where
  | run
  | done
  | barGroup (num : Nat) (mask : W32) (since : Nat)
  | barBlock (num count since : Nat)
  | waitCc (n : Nat) (value : W32) (since : Nat)
  | waitArr (n : Nat) (value : W32) (since : Nat)
  | waitFence
  deriving DecidableEq, Repr

/-- One thread (R65, R79-R81). -/
structure Lane where
  pc : Nat
  regs : List W32
  preds : List Bool
  stack : List Nat
  st : LaneSt
  lastIssue : Nat
  yielded : Option Nat
  deriving DecidableEq, Repr

/-- A remote store or atomic of a group whose acknowledgement is awaited (R114, R117, R118): lane, address, size and
the operation that carries it. -/
structure Pending where
  lane : Nat
  addr : Nat
  size : Nat
  op : Nat
  deriving DecidableEq, Repr

/-- A remote load or atomic of a lane that has not returned (R72, R113): address, size, the registers it fills, the
operation that carries it, the instruction's address, and whether it is an atomic. -/
structure Await where
  lane : Nat
  addr : Nat
  size : Nat
  reg : BitVec 8
  regs : Nat
  op : Nat
  pc : Nat
  atomic : Bool
  deriving DecidableEq, Repr

/-- A fence that waits: its lanes, the remote stores and atomics it waits for (R117), whether it is an acquire as well
(R115), and the first failing status among the stores it waits for (R118). -/
structure FenceWait where
  lanes : List Nat
  ops : List Nat
  acquires : Bool
  status : Status
  deriving DecidableEq, Repr

/-- A resident thread group. -/
structure Group where
  lanes : List Lane
  issues : Nat
  /-- its place in the order of issue of its core: one above every group that issued before its latest issue (R71) -/
  issuedAt : Nat
  stores : List Pending
  awaits : List Await
  /-- status of the first failed store not yet delivered (R118) -/
  storeError : Option Status
  fences : List FenceWait
  deriving DecidableEq, Repr

/-- A resident block (R65, R70). -/
structure Block where
  grid : Nat
  no : Nat
  core : Nat
  groups : List Group
  cc : List W32
  slm : Map Byte
  deriving DecidableEq, Repr

/-- A grid: its launch descriptor's fields, its progress, its first fault and its numerics summary (R66-R69, R205). -/
structure Grid where
  entry : Nat
  blocks : Nat
  blockGroups : Nat
  regs : Nat
  slmKib : Nat
  args : Nat
  ctx : Nat
  doneCounter : Nat
  firstCore : Nat
  lastCore : Nat
  step : Nat
  mb : Nat
  next : Nat
  ended : Nat
  fault : Option Status
  ovf : Bool
  nan : Bool
  inf : Bool
  mismatch : Bool
  complete : Bool
  item : Option Nat
  /-- layer numerics entry of the LAYER item that ran it, for the checker's counts (R214) -/
  layer : Option Nat
  deriving DecidableEq, Repr

/-! ## Matrix units and Piste engines (chapters 5 to 8) -/

/-- Who posted an operation: grid, block and completion counter. -/
structure Poster where
  grid : Nat
  block : Nat
  cc : Nat
  ctx : Nat
  step : Nat
  mb : Nat
  deriving DecidableEq, Repr

/-- An accepted matrix or chain descriptor. -/
structure UnitOp where
  words : List W64
  by_ : Poster
  deriving DecidableEq, Repr

/-- The operation in progress on a unit: chunks or rows written in full, the status so far, the record's flags and
counts, the numbers of the chunks still to be checked by the shadow tile checker. -/
structure UnitRun where
  op : UnitOp
  done : Nat
  status : Status
  ovf : Bool
  inx : Bool
  nan : Bool
  inf : Bool
  ovfCount : Nat
  nanInfCount : Nat
  checks : List Nat
  deriving DecidableEq, Repr

/-- A matrix array, skate path or Piste engine: accepted descriptors, oldest first, and the running one. -/
structure ExecUnit where
  queue : List UnitOp
  run : Option UnitRun
  deriving DecidableEq, Repr

/-! ## Twizan (chapters 10 and 11) -/

/-- The state of a context (R290). -/
inductive CtxSt where
  | free | live | draining | quiet
  deriving DecidableEq, Repr

/-- A local region (R294), its rights and the first and last 64 KiB unit it covers. -/
structure Region where
  rd : Bool
  wr : Bool
  ex : Bool
  base : Nat
  last : Nat
  /-- V -/
  valid : Bool
  deriving DecidableEq, Repr

/-- A context: state, epoch, local regions by slot, when the present stage began. -/
structure Ctx where
  st : CtxSt
  epoch : Nat
  regions : Map Region
  since : Nat
  deriving DecidableEq, Repr

/-- An FTT entry (R297), V set. -/
structure FttEntry where
  size : Nat
  ctx : Nat
  rd : Bool
  wr : Bool
  at_ : Bool
  cnt : Bool
  key : Nat
  tgt : Nat
  deriving DecidableEq, Repr

/-- A command of the FTT that has been accepted and whose result the two copies do not both hold yet (R302). -/
structure FttPending where
  newTable : List FttEntry
  bulk : Bool
  /-- entries of a bulk write still to insert, and how many are inserted -/
  rest : List (W64 × W64)
  inserted : Nat
  deriving DecidableEq, Repr

/-- Where a fabric descriptor came from. -/
inductive Origin where
  | lane (grid block : Nat)
  | doorbell
  | item (n : Nat)
  deriving DecidableEq, Repr

/-- An accepted fabric descriptor with the copy of its Antler record (R310, R400). -/
structure FabDesc where
  words : List W64
  ctx : Nat
  origin : Origin
  record : List W64
  step : Nat
  mb : Nat
  deriving DecidableEq, Repr

/-- A fabric queue: accepted descriptors, oldest first; writing operations that failed and may be covered by a flagged
store (context, operation, status); and per context the flagged store posted last (R318). -/
structure FabQueue where
  accepted : List FabDesc
  fails : List (Nat × Nat × Status)
  lastFlag : Map Nat
  deriving DecidableEq, Repr

/-- Progress of one packet of an operation. -/
inductive PktSt where
  | waiting | flying | acked | ended
  deriving DecidableEq, Repr

/-- A packet of an operation: its kind, the global address reached, the local address at this device that it reads or
fills, its length, progress, the resends made (n for the n-th, R332), those that count against the retry limit (R347), first and
latest send, and when a BUSY refusal arrived. -/
structure PktRec where
  kind : PktKind
  dst : Nat
  localAddr : Nat
  len : Nat
  st : PktSt
  attempt : Nat
  spent : Nat
  firstSent : Nat
  lastSent : Nat
  port : Nat
  busyAt : Option Nat
  /-- it has been sent before: RETX (R351) -/
  resent : Bool
  deriving DecidableEq, Repr

/-- What an outstanding operation does when it completes. -/
inductive OpUse where
  | queue
  /-- a thread's load or atomic: the group's `awaits` say what its value fills -/
  | loadLane (w : Where)
  | storeLane (w : Where) (lane : Nat)
  | atomLane (w : Where)
  | hostRead (edge : Nat)
  | hostWrite (edge : Nat)
  /-- a write or put of the RUN with that number; its bytes are the operation's own -/
  | antler (run : Nat)
  deriving DecidableEq, Repr

/-- An outstanding fabric operation (R303-R304, R321): the descriptor, what its completion does, slot, epoch, sequence
number (or request tag), packets, whether it has begun, the status so far and whether it is fixed, bytes acknowledged,
the value or data returned, whether several devices are reached, and the operations it waits for (R114, R129). -/
structure FabOp where
  desc : FabDesc
  use_ : OpUse
  slot : Nat
  epoch : Nat
  seq : Nat
  sequenced : Bool
  pkts : List PktRec
  begun : Bool
  status : Status
  fixed : Bool
  bytes : Nat
  result : Nat
  data : Bytes
  multi : Bool
  counted : Bool
  after : List Nat
  deriving DecidableEq, Repr

/-- A replay window entry (R346). -/
structure ReplayEntry where
  src : Nat
  slot : Nat
  seq : Nat
  addr : Nat
  status : Status
  result : Nat
  at_ : Nat
  deriving DecidableEq, Repr

/-- A hot-table entry of a link die (R342). -/
structure HotEntry where
  ld : Nat
  dev : Nat
  line : Nat
  seen : Nat
  deriving DecidableEq, Repr

/-- An operation that has ended: its number, slot, sequence number, context and epoch, the packets still on their way (index,
global address, latest send), whose credits come back with their answers or when they are lost (R337), and when it ended. Answers
that still carry its epoch are told by it (R356). -/
structure Ended where
  id : Nat
  slot : Nat
  seq : Nat
  ctx : Nat
  epoch : Nat
  flying : List (Nat × Nat × Nat)
  at_ : Nat
  deriving DecidableEq, Repr

/-- Status and store count of a doorbell (R305). -/
structure Bell where
  status : Status
  count : Nat
  deriving DecidableEq, Repr

/-- The Twizan state of the device. -/
structure TwizanState where
  ctxs : Map Ctx
  /-- the two copies of the table; they differ only while a command is pending (R302) -/
  ftt0 : List FttEntry
  ftt1 : List FttEntry
  fttPending : Option FttPending
  queues : Map FabQueue
  ops : Map FabOp
  nextOp : Nat
  seqs : Map Nat
  bells : Map Bell
  counters : Map Nat
  planes : Map Nat
  unreachable : List Nat
  hot : List HotEntry
  hotLines : List Nat
  replay : List ReplayEntry
  outstanding : Map Nat
  /-- credit windows stated by P2 devices at training, by device -/
  windows : Map Nat
  p1Next : Map Nat
  p1Held : List (Packet × Nat)
  retxUntil : Option Nat
  /-- ended operations of which answers may still come (R337, R354, R356) -/
  tags : List Ended
  /-- slots' operations sent more than once: slot, sequence number, tick until which the release mark stays (R348) -/
  marks : List (Nat × Nat × Nat)
  deriving DecidableEq, Repr

/-! ## Links (chapter 12) -/

/-- An item of a port's byte stream (R372). -/
inductive Item where
  | req (p : Packet)
  | resp (r : Resp)
  deriving DecidableEq, Repr

/-- An item that waits in a router, and since when (R344). -/
structure Queued where
  item : Item
  since : Nat
  deriving DecidableEq, Repr

/-- A DATA flit kept for replay (R378). -/
structure KeptFlit where
  seq : Nat
  body : Bytes
  sentAt : Nat
  /-- the items that end in it -/
  items : List Item
  deriving DecidableEq, Repr

/-- What a port sends next besides DATA flits. -/
inductive Control where
  | nak (seq : Nat)
  | laneMove (lane pair : Nat)
  | retrain
  deriving DecidableEq, Repr

/-- One optical port. -/
structure Port where
  txSeq : Nat
  kept : List KeptFlit
  resend : List KeptFlit
  ackAt : Nat
  rxNext : Nat
  nakAt : Option Nat
  templates : Map Packet
  credit0 : Nat
  credit1 : Nat
  return0 : Nat
  return1 : Nat
  vc0 : List Queued
  vc1 : List Queued
  /-- the rest of an item whose first bytes are sent, and that item -/
  tail : Bytes
  tailItem : Option Item
  rx : Bytes
  arrived : List Item
  control : List Control
  /-- corrected symbols per logical lane in the present window of 1 ms, the pairs of it, and when it began (R370) -/
  laneErrs : Map Nat
  windowPairs : Nat
  windowAt : Nat
  /-- scrambler and descrambler: the 58 bits before (R367) -/
  txScr : Nat
  rxScr : Nat
  /-- pairs sent and received since training, modulo 2^16 (R368) -/
  txPairs : Nat
  rxPairs : Nat
  /-- the last level sent and received on each physical lane, and whether training agreed on precoding (R367) -/
  txLast : List Nat
  rxLast : List Nat
  precode : Bool
  /-- logical lane and pair count of an agreed move to the spare (R380) -/
  moving : Option (Nat × Nat)
  outage : Option Nat
  /-- when training failed: the next try comes 1 s later (R386) -/
  retryAt : Option Nat
  deriving DecidableEq, Repr

/-- A flit that a port has put on its lanes: its header and body, the count of its pair, and the levels of the five physical
lanes as the digits of a number to base 4, the first lowest; none for a lane that is not driven (R365-R369). -/
structure SentFlit where
  port : Nat
  header : W64
  body : Bytes
  pair : Nat
  lanes : List (Option Nat)
  deriving DecidableEq, Repr

/-! ## Antler (chapter 13) -/

/-- Progress of one tree of a RUN: chunks whose up step and down step are done; the contribution of the chunks whose up step
is done, as FP32, from the tree's first element; the blocks this member marked; the list in hand (R413) with whether its up
half is done; TOTAL once a list has come; passes done; increments of the mark counter taken. -/
structure TreeRun where
  up : Nat
  down : Nat
  own : List W32
  marked : List Nat
  list : Option (List Nat)
  upDone : Bool
  total : Option Nat
  passes : Nat
  taken : Nat
  deriving DecidableEq, Repr

/-- A write or put of a RUN that its queue has not issued yet: slot code, none for a put; first destination address;
pieces, each with its global address and bytes; the counter; whether it waits for the RUN's earlier puts. -/
structure AntlerOut where
  code : Option Nat
  dst : Nat
  pieces : List (Nat × Bytes)
  cnt : Nat
  ordered : Bool
  deriving DecidableEq, Repr

/-- A RUN that its queue has issued, by the number of its operation (R398-R424): its counter range (R404), A of R412,
whether it only accumulates, the trees, when the wait limit last began to run, the bytes it has written to OUT, and what is
still to be issued. -/
structure AntlerRun where
  first : Nat
  count : Nat
  agreed : Nat
  accOnly : Bool
  trees : List TreeRun
  seen : Nat
  wrote : Nat
  backlog : List AntlerOut
  deriving DecidableEq, Repr

/-! ## Step sequencer and services (chapter 14) -/

/-- The step sequencer's states (R431). -/
inductive SeqSt where
  | idle | loaded | open | gate | committing | halted
  deriving DecidableEq, Repr

/-- A shadow region (R433). -/
structure Shadow where
  base : Nat
  length : Nat
  half1 : Nat
  map : Nat
  zero : Bool
  deriving DecidableEq, Repr

/-- Where a list item stands. -/
inductive ItemSt where
  | waiting | begun | done
  deriving DecidableEq, Repr

/-- What a list belongs to. -/
inductive ListOf where
  | pre | post
  | unit (k : Nat)
  /-- the send of unit k, which nothing waits for but the gate -/
  | send (k : Nat)
  | layer (item : Nat) (repeated : Bool)
  deriving DecidableEq, Repr

/-- An item of a running list (R450-R451). -/
structure ItemRun where
  owner : ListOf
  index : Nat
  kind : Nat
  after : Bool
  core : Nat
  queue : Nat
  addr : Nat
  value : Nat
  mb : Nat
  st : ItemSt
  grid : Option Nat
  op : Option Nat
  deriving DecidableEq, Repr

/-- Part of an open step. -/
inductive Phase where
  | pre | units | post | over
  deriving DecidableEq, Repr

/-- A member of an admitted group (R464). -/
structure Member where
  dev : Nat
  gen : Nat
  deriving DecidableEq, Repr

/-- State of a group table entry (R463). -/
inductive GroupSt where
  | admitting | admitted
  deriving DecidableEq, Repr

/-- A communication group that is not FREE. -/
structure GroupRec where
  st : GroupSt
  wire : Nat
  rank : Nat
  members : List Member
  since : Nat
  deriving DecidableEq, Repr

/-- The training services. -/
structure StepState where
  st : SeqSt
  table : Nat
  header : List W64
  regions : List Shadow
  /-- lines whose committed value lies in half 1 (C = 1) -/
  half : List Nat
  /-- lines the open step has written (W = 1) -/
  written : List Nat
  /-- the command under way has reached a shadowed line while the sequencer is COMMITTING, so it is held (R434) -/
  reached : Bool
  attempt : Nat
  phase : Phase
  unit : Nat
  unitBegun : Bool
  items : Map ItemRun
  nextItem : Nat
  stopPending : Bool
  /-- the last START had count 0: the sequencer runs until STOP (R431) -/
  endless : Bool
  /-- a step is to open as soon as STEP_OPEN finds the current high enough (R608) -/
  opening : Bool
  /-- a step has committed since LOAD (R608) -/
  committed : Bool
  /-- the combined vote has gone up to the parent, or ABANDON was forwarded (R441) -/
  sentUp : Bool
  vote : Option Vote
  votes : Map Vote
  heritage : Map Nat
  verdict : Option Vote
  votedAt : Nat
  /-- causes met in this attempt: the highest verdict code so far (R440) -/
  cause : Nat
  skipLayers : List Nat
  overflowed : List Nat
  /-- overflows counted under POLICY NONE, by address of the layer entry, saturating: an entry has no field of its own for
  them (R211, log entry 116) -/
  noneOverflows : Map Nat
  exhausted : List Nat
  repeated : List Nat
  layers : List Nat
  /-- records or layers that have raised EV_2613 in this step (R201, R218) -/
  clamped : List Nat
  /-- layers that have raised EV_2620 in this step -/
  mismatched : List Nat
  /-- completed RUNs of the step on the native wire: scale record, group, whether a repair pass ran (R412) -/
  runs : List (Nat × Nat × Bool)
  /-- counter ranges of the step's RUNs: first counter and how many (R443) -/
  runRanges : List (Nat × Nat)
  groups : Map GroupRec
  /-- SQ that runs each service of R429 -/
  services : List Nat
  /-- peak window current of the open step, as FP32 bits (R608) -/
  peakThis : Nat
  deriving DecidableEq, Repr

/-! ## Checkpoint service (chapter 15) -/

/-- A tandem table entry (R469). -/
structure TandemEntry where
  addr : Nat
  cls : Nat
  ride : Bool
  length : Nat
  desc : Nat
  deriving DecidableEq, Repr

/-- An image (R473): its header of 512 bytes, its digests, its body. -/
structure CopyImage where
  head : Bytes
  digests : List Bytes
  body : Bytes
  deriving DecidableEq, Repr

/-- The slot that receives the partner's copy: header and digests once they have arrived, chunks that have matched by
index, how often each was asked for again, the segments captured from all-gathers by group, and the chunks that came
from them. -/
structure Incoming where
  head : Bytes
  digests : List Bytes
  chunks : Map Bytes
  retries : Map Nat
  segments : Map Bytes
  captured : List Nat
  deriving DecidableEq, Repr

/-- A snapshot of META and the service block (R477, R478). -/
structure Snapshot where
  step : Nat
  meta_ : List (Nat × Bytes)
  service : Bytes
  deriving DecidableEq, Repr

/-- A proposal of pairing (R475): the device, OVERRIDE, when it was made or arrived; for the other device's, its feed and
whether its store can hold this device's copy. -/
structure Proposal where
  dev : Nat
  override : Bool
  at_ : Nat
  feed : Nat
  image : Nat
  fits : Bool
  deriving DecidableEq, Repr

/-- The device's own copy of a committed step: how it is taken, how far it is, its tandem table, where the
entries' data begins in its body, the digests of its chunks. -/
structure OwnCopy where
  step : Nat
  stopMode : Bool
  sealed : Bool
  failed : Bool
  failedOnce : Bool
  reported : Bool
  table : List TandemEntry
  start : Nat
  digests : List Bytes
  deriving DecidableEq, Repr

/-- What the device keeps of its copy that its partner holds sealed: its tandem table, where the entries' data begins in
the body, the digests of the chunks, how often each was asked for again (R486, R489). -/
structure SealedOwn where
  table : List TandemEntry
  start : Nat
  digests : List Bytes
  retries : Map Nat
  deriving DecidableEq, Repr

/-- Progress of a RESTORE (R490): the layer that runs next, and whether the streams were derived again. -/
structure RestoreRun where
  image : CopyImage
  layer : Nat
  skew : Bool
  deriving DecidableEq, Repr

/-- Progress of a takeover (R495-R499) on a survivor: the lost device, the spare once it is claimed, the stage table to
load again, and whether this device leads it. -/
structure TakeoverRun where
  lost : Nat
  spare : Option Nat
  table : Nat
  leads : Bool
  deriving DecidableEq, Repr

/-- The checkpoint service. -/
structure CkptState where
  table : List TandemEntry
  proposal : Option Proposal
  theirs : Option Proposal
  partnerOverride : Bool
  constDue : Bool
  copy : Option OwnCopy
  sealedOwn : Option SealedOwn
  incoming : Option Incoming
  held : Option CopyImage
  /-- lines whose flip-log bit is set (R478) -/
  flipLog : List Nat
  snaps : List Snapshot
  /-- seal reports of the children, by rank: step, and whether they carry FAIL -/
  reports : Map (Nat × Bool)
  /-- the job seal notice is awaited (R482, R483) -/
  holds : Bool
  /-- when that wait first held something up -/
  waitSince : Option Nat
  restore : Option RestoreRun
  /-- root of the image whose layers 1 and 2 are in place (R493) -/
  lastRoot : Option Bytes
  takeover : Option TakeoverRun
  /-- when the partner was probed (R495) -/
  probeAt : Option Nat
  deriving DecidableEq, Repr

/-! ## Faults (chapter 16) -/

/-- A reset in progress: tier 1 engine, 2 cluster move, 3 kick turn, 4 full restart; its engine ID or logical cluster;
the event that started it; whether a command waits for it. -/
structure Reset where
  tier : Nat
  target : Nat
  cause : Nat
  since : Nat
  command : Bool
  deriving DecidableEq, Repr

/-- Fault handling state. -/
structure FaultState where
  resets : List Reset
  failedClusters : List Nat
  usedSpares : List Nat
  lastReset : Map Nat
  lastArith : Map Nat
  /-- when the latest fence went up, until its drain time has passed (R518) -/
  drainSince : Option Nat
  deriving DecidableEq, Repr

/-! ## Hivan (chapter 17) -/

/-- An open authenticated session (R549, R550). -/
structure Session where
  keySlot : Nat
  mailbox : Bool
  keyIn : Bytes
  keyOut : Bytes
  lastSeq : Nat
  lastReply : Bytes
  lastFrame : Nat
  tagFails : Nat
  notices : Option Nat
  noticeSeq : Nat
  deriving DecidableEq, Repr

/-- A handshake in progress. -/
structure Handshake where
  keySlot : Nat
  mailbox : Bool
  transcript : Bytes
  signature : Bytes
  keys : Bytes
  since : Nat
  deriving DecidableEq, Repr

/-- A staged write of a session (R548). -/
structure Stage where
  client : Client
  key : Nat
  bytes : Bytes
  deriving DecidableEq, Repr

/-- A snapshot held by a session or slot (R548, R541). -/
structure Snap where
  client : Client
  key : Nat
  bytes : Bytes
  deriving DecidableEq, Repr

/-- An in-band slot of the dictionary window (R552). -/
structure InSlot where
  owner : Nat
  doorbell : Nat
  done : Nat
  request : Bytes
  reply : Bytes
  pending : Bool
  deriving DecidableEq, Repr

/-- What Hivan keeps in an image slot of FL. -/
structure SlotImage where
  valid : Bool
  image : Image
  deriving DecidableEq, Repr

/-- The firmware update (R557, R558). -/
structure UpdateRun where
  session : Path
  length : Nat
  bytes : Bytes
  /-- the staged slot is marked for trial at the next Hivan start -/
  marked : Bool
  /-- starts of the trial image, and when the trial began -/
  trialStarts : Nat
  trialSince : Nat
  /-- a Hivan restart follows the request in hand -/
  due : Bool
  deriving DecidableEq, Repr

/-- How a host's read is answered (R390). -/
inductive HostAnswer where
  | success | poisoned | abort
  deriving DecidableEq, Repr

/-- What Hivan, its network and its ports send, in the order sent. -/
inductive Msg where
  | frame (f : Frame)
  | echoReply (payload : Bytes)
  | neighbourAdvert (target : Bytes)
  | msix (vector : Nat)
  /-- a message of a sequencer processor over the fabric: its slot, its sequence number, the message (R304) -/
  | served (slot seq : Nat) (m : Msg)
  | vote (to_ : Nat) (v : Vote)
  | seal_ (to_ : Nat) (step : Nat) (failed : Bool)
  | notice (to_ : Nat) (step : Nat) (failed : Bool)
  | refetchNotice (to_ : Nat) (step : Nat)
  | takeoverNotice (to_ lost spare target : Nat)
  | proposal (to_ : Nat) (override : Bool) (feed image : Nat)
  | unpair (to_ : Nat)
  | copyHead (to_ : Nat) (head table : Bytes)
  | copyChunk (to_ ix : Nat) (bytes : Bytes)
  | probe (to_ : Nat)
  | chunkRequest (to_ ix : Nat)
  | sealAck (to_ step : Nat)
  | hostReply (edge : Nat) (answer : HostAnswer) (data : Bytes)
  | unsupported (edge : Nat)
  | lostReply (r : Resp)
  | digest (group : Nat) (d : Bytes)
  /-- the training frame of this end of a port: generation, device, port, highest rate, spare lane, inner code (R386) -/
  | trainingFrame (port gen dev rate : Nat) (spare inner : Bool)
  /-- credits of the two channels, SEQ, and the packets a peer may have outstanding here (R360, R386) -/
  | trainingCredits (port vc0 vc1 seq window : Nat)
  /-- what this end of a port presents at training (R588) -/
  | linkAuth (port : Nat) (nonce publicKey credential signature : Bytes)
  deriving DecidableEq, Repr

/-- Hivan's own state. -/
structure HivanState where
  running : Bool
  stoppedFailed : Bool
  sessions : Map Session
  handshakes : Map Handshake
  nextHs : Nat
  stages : List Stage
  snaps : List Snap
  cursors : List (Client × Nat)
  slots : Map InSlot
  mailFrame : Option Frame
  /-- the bytes at offsets 0x0040-0x7FFF of the mailbox, from its first, as far as written (R553) -/
  mailIn : Bytes
  mailReply : Bytes
  mailDone : Bool
  imageA : SlotImage
  imageB : SlotImage
  update : UpdateRun
  restarting : Bool
  /-- tick of the last Hivan start or restart (R558) -/
  startedAt : Nat
  plcaUp : Bool
  reply : Bytes
  replyStatus : Status
  bus : Nat
  busStatus : Status
  /-- one more than the tick of the last MSI-X vector 1, 0 for none (R542) -/
  lastNotice : Nat
  deriving DecidableEq, Repr

/-! ## Security (chapter 19) -/

/-- The erase marker of the security record (R592). -/
inductive Marker where
  | none | pending | done
  deriving DecidableEq, Repr

/-- What the factory record in use holds besides the certificate (R625): die enables, bits 0 to 3 for CD0-CD3, 4 to 7 for
BD0-BD3, 8 and 9 for LD0 and LD1; the initial cluster maps that are not the identity, by die; the trims, named by the empty
list as they are at manufacture (log entry 130). -/
structure FactoryRecord where
  dies : Nat
  maps : Map Bytes
  trims : Bytes
  deriving DecidableEq, Repr

/-- The security root. `enrolled` is the pattern of the identity SRAM that the helper data in FL correct to; what a module
has at manufacture is named by the empty list (log entry 26). -/
structure SecState where
  identity : Option Bytes
  sealKey : Option Bytes
  helper : Bool
  enrolled : Bytes
  marker : Marker
  tripped : List Nat
  nonces : List (Client × Bytes)
  factoryOk : Bool
  factory : FactoryRecord
  repairSealed : Bool
  /-- values an installed owner record gives the objects it may set (R583) -/
  ownerValues : Map Nat
  /-- a copy of the owner record has passed its check at this start, or the record was installed since (R583, R625) -/
  ownerOk : Bool
  ownerBytes : Map Bytes
  factoryDigest : Bytes
  ownerDigest : Bytes
  /-- digest of the firmware that the sequencer processors run (R585) -/
  seqDigest : Bytes
  /-- the installation record carries a good seal (R575) -/
  installSealed : Bool
  deriving DecidableEq, Repr

/-! ## Power (chapter 20) -/

/-- The stages of a power-down (R612). -/
inductive DownSt where
  | none | orderly | critical | off
  deriving DecidableEq, Repr

/-- The power function. -/
structure PowerState where
  v48ok : Bool
  v48present : Bool
  v12ok : Bool
  pwrEn : Bool
  pwrGood : Bool
  hotSwap : Bool
  sinkOk : Bool
  sink : Bool
  pcycReq : Bool
  pcycAt : Nat
  /-- no power cycle has come within 10 s of the request (R613) -/
  pcycLate : Bool
  svcEn : Bool
  down : DownSt
  /-- voltage the setpoint rails have reached, mV -/
  rail : Nat
  /-- measured maximum and model at the last window before a lowering ramp began, as a ratio (R44) -/
  ratioNum : Nat
  ratioDen : Nat
  /-- lowest voltage, mV, to which the setpoint rails have come down since the last window of the monitors (R44) -/
  loweredTo : Option Nat
  phaseCap : Nat
  /-- successive windows of 1 ms with the mean below 95 % of the power limit (R598) -/
  powerBelow : Nat
  /-- since when each thermal condition of R610 holds: a throttle limit exceeded, every point 3 °C below its limit, the
  inlet above its limit, the flow below 4.0 and below 2.0 L/min -/
  hotSince : Option Nat
  coolSince : Option Nat
  inletSince : Option Nat
  flowLowSince : Option Nat
  flowCritSince : Option Nat
  /-- EV_2203 has been raised for the present excess of the inlet -/
  inletRaised : Bool
  powerFell : Bool
  thermFell : Bool
  flowHeld : Bool
  /-- mean input current of the last window of 50 µs, NaN before the first (R605) -/
  windowCurrent : W32
  deviating : Map Nat
  limitArmed : Bool
  waiting : Bool
  perst : Map Bool
  /-- edge ports in the PCIe role whose function is in D3hot, and the errors that AER has recorded, as bits of the Uncorrectable
  Error Status register (R388, log entry 122) -/
  d3hot : Map Bool
  aer : Map Nat
  /-- engines whose standby laser input has been found low (R384) -/
  lowStandby : List Nat
  /-- objects of the sensors marked failed (R535) -/
  failedSensors : List Nat
  deriving DecidableEq, Repr

/-- The device but for the log and the queue of commands. `od` holds the value of every scalar object that differs
from its default, `odBytes` that of every STRING, DOMAIN and RECORD object; `installed` is the installation record of
FL (R575); `free` is the model's own: it counts the free values drawn. -/
structure Dev where
  od : Map Nat
  odBytes : Map Bytes
  installed : Map Nat
  installedBytes : Map Bytes
  tick : Nat
  ev : EvState
  mem : MemState
  grids : Map Grid
  nextGrid : Nat
  blocks : List Block
  units : Map ExecUnit
  piste : Map ExecUnit
  tw : TwizanState
  ports : Map Port
  sentFlits : List SentFlit
  runs : Map AntlerRun
  seq : StepState
  ckpt : CkptState
  faults : FaultState
  hv : HivanState
  sec : SecState
  pow : PowerState
  sent : List Msg
  free : Nat
  deriving DecidableEq, Repr

/-- The whole block: the device, its log, and the commands that wait, first in, first out. -/
structure State where
  m : Dev
  log : LogStore
  pending : List Instr
  deriving DecidableEq, Repr

/-- The reasons for a fault. The model has none of its own: everything the manual calls a fault of the block (a group
fault, poison, a failed function) is an effect on the state. The constructor stands for a command outside the
block's address space of commands and no meaning raises it. Safe: a step never ends in it. -/
inductive Fault where
  /-- Raised by no meaning. Safe. -/
  | noSuchState
  deriving DecidableEq, Repr

/-- The reasons for a refusal. -/
inductive Refusal where
  /-- Raised by an arm of the dispatch whose command has no meaning yet, by its mnemonic. Safe: the run stops. -/
  | notModelled (mnemonic : String)
  deriving DecidableEq, Repr

/-! ## Reset -/

def EvState.reset : EvState :=
  { raised := [], events := [], traces := [], lastRaised := [], refusals := [], readTo := 0 }

def LogStore.reset : LogStore :=
  { ring := [], persisted := [], nextSeq := 0, seqBase := none, boot := 0, persistTokens := 1024, persistTick := 0 }

def MemState.reset : MemState :=
  { cells := [], poison := [], llc := [], llcErrs := [], llcOff := [], corrected := [], retired := [],
    tableFull := [], uncorrectable := [], lost := none, rehoming := false, healed := [], lostPoison := false, laneRepairs := [], scrubNext := 0,
    combining := [], prefetch := [], cxl := [], placement := 0, initDue := true, roles := [0, 0] }

def TwizanState.reset : TwizanState :=
  { ctxs := [], ftt0 := [], ftt1 := [], fttPending := none, queues := [], ops := [], nextOp := 0, seqs := [],
    bells := [], counters := [], planes := [], unreachable := [], hot := [], hotLines := [], replay := [],
    outstanding := [], windows := [], p1Next := [], p1Held := [], retxUntil := none, tags := [], marks := [] }

def StepState.reset : StepState :=
  { st := .idle, table := 0, header := [], regions := [], half := [], written := [], reached := false, attempt := 0, phase := .over,
    unit := 0, unitBegun := false, items := [], nextItem := 0, stopPending := false, endless := false, opening := false, committed := false, sentUp := false,
    vote := none, votes := [], heritage := [], verdict := none, votedAt := 0, cause := 0,
    skipLayers := [], overflowed := [], noneOverflows := [], exhausted := [], repeated := [], layers := [], clamped := [],
    mismatched := [], runs := [], runRanges := [], groups := [], services := [0, 1, 2, 2, 3], peakThis := 0 }

def CkptState.reset : CkptState :=
  { table := [], proposal := none, theirs := none, partnerOverride := false, constDue := false, copy := none, sealedOwn := none,
    incoming := none, held := none, flipLog := [], snaps := [], reports := [], holds := false, waitSince := none,
    restore := none, lastRoot := none, takeover := none, probeAt := none }

def FaultState.reset : FaultState :=
  { resets := [], failedClusters := [], usedSpares := [], lastReset := [], lastArith := [],
    drainSince := none }

def SlotImage.empty : SlotImage :=
  { valid := false, image := { release := 0, secVersion := 0, minSeqRelease := 0, bodyDigest := [], publicKey := [],
                               signature := [], body := [] } }

def HivanState.reset : HivanState :=
  { running := false, stoppedFailed := false, sessions := [], handshakes := [], nextHs := 0, stages := [],
    snaps := [], cursors := [], slots := [], mailFrame := none, mailIn := [], mailReply := [], mailDone := true,
    imageA := { SlotImage.empty with valid := true }, imageB := SlotImage.empty,
    update := { session := .service, length := 0, bytes := [], marked := false, trialStarts := 0, trialSince := 0, due := false },
    restarting := false, startedAt := 0, plcaUp := true, reply := [], replyStatus := ST.ok, bus := 0, busStatus := ST.ok,
    lastNotice := 0 }

def SecState.reset : SecState :=
  { identity := none, sealKey := none, helper := true, enrolled := [], marker := .none, tripped := [], nonces := [],
    factoryOk := true, factory := { dies := 0x3FF, maps := [], trims := [] }, repairSealed := true, ownerValues := [],
    ownerOk := true, ownerBytes := [], factoryDigest := [], ownerDigest := [], seqDigest := [], installSealed := true }

def PowerState.reset : PowerState :=
  { v48ok := true, v48present := true, v12ok := false, pwrEn := false, pwrGood := false, hotSwap := false,
    sinkOk := false, sink := false, pcycReq := false, pcycAt := 0, pcycLate := false, svcEn := false, down := .none, rail := 0,
    ratioNum := 1, ratioDen := 1, loweredTo := none, phaseCap := 880, powerBelow := 0, hotSince := none, coolSince := none,
    inletSince := none, flowLowSince := none, flowCritSince := none, inletRaised := false, powerFell := false,
    thermFell := false, flowHeld := false, windowCurrent := 0x7FC00000, deviating := [], limitArmed := true,
    waiting := false, perst := [], d3hot := [], aer := [], lowStandby := [], failedSensors := [] }

/-- The device right after power-on of the Hivan die, before HIVAN_START: every object at its default, every function
ABSENT, nothing in memory. -/
def Dev.reset : Dev :=
  { od := [], odBytes := [], installed := [], installedBytes := [], tick := 0, ev := EvState.reset,
    mem := MemState.reset, grids := [], nextGrid := 0, blocks := [], units := [], piste := [],
    tw := TwizanState.reset, ports := [], sentFlits := [], runs := [], seq := StepState.reset,
    ckpt := CkptState.reset, faults := FaultState.reset, hv := HivanState.reset, sec := SecState.reset,
    pow := PowerState.reset, sent := [], free := 0 }

/-- The block after reset: the device as above, an empty log, and no command waiting. -/
def State.reset : State := { m := Dev.reset, log := LogStore.reset, pending := [] }

end Sys2Proof.Machine
end

