-- ==== Sys2Proof/Machine/Objects.lean ====
section
/-!
DEFINITION. The object dictionary: the table of every object the manual lists (index, sub-indices, type, access,
default, range), one row per line of the dictionary tables of its chapters (R10, R563-R567, R576), and one name per
object. Scalar values are raw bits, F32 objects as FP32 encodings. A value measured by the device and not measured yet
reads 0x7FC00000 for F32 and the largest value of its type otherwise (R567).
-/

namespace Sys2Proof.Machine

/-- The types of R565. -/
inductive ObjType where
  | u8 | u16 | u32 | u64 | f32 | str | dom | record
  deriving DecidableEq, Repr

/-- The access codes of R10 that the tables use. -/
inductive Access where
  | const | ro | rw | rws | wo
  deriving DecidableEq, Repr

/-- One row: `lo` to `hi` are the sub-indices; `dflt`, `vmin`, `vmax` the raw default and range of a scalar;
`size0` to `size1` the sizes of a STRING, DOMAIN or RECORD and `fill` its default byte; `counter` says that only a
write of zero is accepted. -/
structure ObjDef where
  index : Nat
  lo : Nat
  hi : Nat
  type : ObjType
  access : Access
  dflt : Nat
  vmin : Nat
  vmax : Nat
  size0 : Nat
  size1 : Nat
  fill : Nat
  counter : Bool
  deriving DecidableEq, Repr

/-! ### Names: 256 * index + sub-index of the first object of each row -/

namespace OD

abbrev partNumber : Nat := 0x100001
abbrev hardwareRevision : Nat := 0x100002
abbrev serialNumber : Nat := 0x100003
abbrev generation : Nat := 0x100004
abbrev computeDieId : Nat := 0x100101
abbrev linkDieId : Nat := 0x100105
abbrev plcaNodeId : Nat := 0x110001
abbrev macAddress : Nat := 0x110002
abbrev staticAddress : Nat := 0x110003
abbrev hdpPort : Nat := 0x110004
abbrev plcaBurst : Nat := 0x110005
abbrev plcaTransmitTimer : Nat := 0x110006
abbrev sessionsOpen : Nat := 0x110101
abbrev sessionLimit : Nat := 0x110102
abbrev sessionIdle : Nat := 0x110103
abbrev tagFailures : Nat := 0x110104
abbrev requestsDiscarded : Nat := 0x110105
abbrev stateRefusals : Nat := 0x110106
abbrev readyManagement : Nat := 0x200001
abbrev readyCompute : Nat := 0x200101
abbrev readyMemory : Nat := 0x200201
abbrev readyHbm : Nat := 0x200301
abbrev readyEdgePort : Nat := 0x200401
abbrev readyFabricPort : Nat := 0x200501
abbrev readyOpticalEngine : Nat := 0x200601
abbrev readyLinkDie : Nat := 0x200701
abbrev readySequencer : Nat := 0x200801
abbrev readyService : Nat := 0x200901
abbrev readyDigestEngine : Nat := 0x200A01
abbrev readyPower : Nat := 0x200B01
abbrev readyThermal : Nat := 0x200C01
abbrev readySecurity : Nat := 0x200D01
abbrev supplySetpoint : Nat := 0x210001
abbrev supplyMeasured : Nat := 0x210002
abbrev setpointInForce : Nat := 0x210003
abbrev tickCount : Nat := 0x210401
abbrev paceMonitor : Nat := 0x211001
abbrev paceMonitorLink : Nat := 0x211101
abbrev stepMax : Nat := 0x211201
abbrev stepMaxPeak : Nat := 0x211202
abbrev stepMaxSource : Nat := 0x211203
abbrev monitorFailed : Nat := 0x211204
abbrev monitorInterval : Nat := 0x211205
abbrev stepLimit : Nat := 0x211206
abbrev inputVoltage48 : Nat := 0x212001
abbrev inputCurrent48 : Nat := 0x212002
abbrev inputPower : Nat := 0x212003
abbrev inputVoltage12 : Nat := 0x212004
abbrev inputCurrent12 : Nat := 0x212005
abbrev powerLimit : Nat := 0x212101
abbrev powerCap : Nat := 0x212102
abbrev railVoltage : Nat := 0x212201
abbrev railCurrent : Nat := 0x212301
abbrev inputSlewLimit : Nat := 0x213001
abbrev stepOpenHeadroom : Nat := 0x213002
abbrev ballastPower : Nat := 0x213003
abbrev governorDips : Nat := 0x213004
abbrev stepOpenWaits : Nat := 0x213005
abbrev lastStepPeakCurrent : Nat := 0x213006
abbrev firstStepCurrent : Nat := 0x213007
abbrev slewExceeded : Nat := 0x213008
abbrev storedEnergyLimit : Nat := 0x214001
abbrev dischargeTime : Nat := 0x214002
abbrev inputCapacitance : Nat := 0x214003
abbrev storedEnergy : Nat := 0x214004
abbrev dischargeSinkCurrent : Nat := 0x214005
abbrev temperature : Nat := 0x220001
abbrev temperatureMax : Nat := 0x220101
abbrev temperatureMaxPoint : Nat := 0x220102
abbrev junctionThrottle : Nat := 0x220201
abbrev junctionCritical : Nat := 0x220202
abbrev hbmThrottle : Nat := 0x220203
abbrev hbmCritical : Nat := 0x220204
abbrev thermalCap : Nat := 0x220205
abbrev stackTemperature : Nat := 0x220401
abbrev coolantInlet : Nat := 0x220601
abbrev coolantOutlet : Nat := 0x220602
abbrev coolantFlow : Nat := 0x220603
abbrev inletLimit : Nat := 0x220604
abbrev thermalCapTime : Nat := 0x221001
abbrev logicalClusters : Nat := 0x240001
abbrev logicalCores : Nat := 0x240002
abbrev sparesRemaining : Nat := 0x240101
abbrev clusterMap : Nat := 0x240201
abbrev registersPerCore : Nat := 0x240401
abbrev groupsPerCore : Nat := 0x240402
abbrev slmPerCore : Nat := 0x240403
abbrev barrierLimit : Nat := 0x240501
abbrev lastFaultStatus : Nat := 0x241001
abbrev lastFaultCore : Nat := 0x241002
abbrev lastFaultPC : Nat := 0x241003
abbrev lastFaultLanes : Nat := 0x241004
abbrev groupFaults : Nat := 0x241101
abbrev barrierMismatches : Nat := 0x241102
abbrev deferredStoreErrors : Nat := 0x241201
abbrev recordWriteFailures : Nat := 0x241202
abbrev arrayQueueDepth : Nat := 0x243001
abbrev skateQueueDepth : Nat := 0x243002
abbrev chunkRowsAA96 : Nat := 0x243003
abbrev chunkRowsFP32 : Nat := 0x243004
abbrev readPortWidth : Nat := 0x243005
abbrev writePortWidth : Nat := 0x243006
abbrev skateAutoRows : Nat := 0x243101
abbrev arrayOps : Nat := 0x243201
abbrev skateOps : Nat := 0x243202
abbrev overflowOps : Nat := 0x243203
abbrev failedOps : Nat := 0x243204
abbrev pisteQueueDepth : Nat := 0x244001
abbrev rowBufferBytes : Nat := 0x244002
abbrev pisteReadPort : Nat := 0x244003
abbrev pisteWritePort : Nat := 0x244004
abbrev chainOps : Nat := 0x244101
abbrev failedChains : Nat := 0x244102
abbrev overflowChains : Nat := 0x244103
abbrev historyLengthMax : Nat := 0x261001
abbrev historyLength : Nat := 0x261002
abbrev modeActivation : Nat := 0x261003
abbrev modeWeight : Nat := 0x261004
abbrev modeGradient : Nat := 0x261005
abbrev modeUpdate : Nat := 0x261006
abbrev cleanInterval : Nat := 0x261201
abbrev layerRepeats : Nat := 0x261401
abbrev repeatsExhausted : Nat := 0x261402
abbrev stepsSkipped : Nat := 0x261403
abbrev scaleClamps : Nat := 0x261404
abbrev updateHeadroom : Nat := 0x261601
abbrev updateUnderflows : Nat := 0x261602
abbrev checkShift : Nat := 0x262001
abbrev checkStream : Nat := 0x262002
abbrev checkThresholdMult : Nat := 0x262003
abbrev slicesChecked : Nat := 0x262004
abbrev sliceMismatches : Nat := 0x262005
abbrev slicesUnchecked : Nat := 0x262006
abbrev lastMismatchCluster : Nat := 0x262201
abbrev lastMismatchRatio : Nat := 0x262202
abbrev stacksPresent : Nat := 0x280001
abbrev hbmUsableTop : Nat := 0x280101
abbrev reserveBase : Nat := 0x280102
abbrev linesCorrected : Nat := 0x280401
abbrev linesPoisoned : Nat := 0x280402
abbrev onDieSeverityReports : Nat := 0x280403
abbrev scrubPeriod : Nat := 0x280501
abbrev retireCount : Nat := 0x280601
abbrev retireWindow : Nat := 0x280602
abbrev retireTableSize : Nat := 0x280603
abbrev dieLossCount : Nat := 0x280604
abbrev granulesRetired : Nat := 0x280605
abbrev lostDie : Nat := 0x280701
abbrev prefetchDistance : Nat := 0x281001
abbrev llcWaysDisabled : Nat := 0x281101
abbrev cxlPlacement : Nat := 0x282001
abbrev cxlTimeout : Nat := 0x282002
abbrev cxlFailTime : Nat := 0x282003
abbrev cxlExpanderLatency : Nat := 0x282101
abbrev cxlCapacity : Nat := 0x282103
abbrev deviceNumber : Nat := 0x300001
abbrev contextsLive : Nat := 0x300101
abbrev contextLimit : Nat := 0x300102
abbrev fabricQueueDepth : Nat := 0x300201
abbrev outstandingPerQueue : Nat := 0x300202
abbrev packetPayload : Nat := 0x300203
abbrev contextCommand : Nat := 0x301001
abbrev contextState : Nat := 0x301101
abbrev fttCommand : Nat := 0x302001
abbrev fttBulkInsert : Nat := 0x302002
abbrev fttBulkResult : Nat := 0x302003
abbrev fttEntriesUsed : Nat := 0x302101
abbrev fttCapacity : Nat := 0x302102
abbrev fttDenials : Nat := 0x302201
abbrev lastDenialPage : Nat := 0x302202
abbrev lastDenialContext : Nat := 0x302203
abbrev localRegionCommand : Nat := 0x302301
abbrev fabricOpsCompleted : Nat := 0x303001
abbrev fabricOpsFailed : Nat := 0x303002
abbrev doorbellRefusals : Nat := 0x303003
abbrev topologyClass : Nat := 0x304001
abbrev memorySpaceDevices : Nat := 0x304002
abbrev creditWindow : Nat := 0x304003
abbrev switchStageTime : Nat := 0x304101
abbrev fibreMax : Nat := 0x304104
abbrev pathOneWayMax : Nat := 0x304105
abbrev roundTripMax : Nat := 0x304106
abbrev packetLifetime : Nat := 0x304107
abbrev ingressBuffer : Nat := 0x305001
abbrev hotThreshold : Nat := 0x305002
abbrev hotHold : Nat := 0x305003
abbrev hotSignalsSent : Nat := 0x305004
abbrev hotThrottles : Nat := 0x305005
abbrev replayWindowEntries : Nat := 0x306001
abbrev replayRetention : Nat := 0x306002
abbrev replayHits : Nat := 0x306003
abbrev windowFullRefusals : Nat := 0x306004
abbrev txTimeout : Nat := 0x306101
abbrev retryLimit : Nat := 0x306102
abbrev retryBudget : Nat := 0x306103
abbrev endToEndResends : Nat := 0x306104
abbrev timeouts : Nat := 0x306105
abbrev unknownOutcomes : Nat := 0x306106
abbrev drainTime : Nat := 0x306201
abbrev lateCompletionsDiscarded : Nat := 0x306202
abbrev drainExpired : Nat := 0x306203
abbrev peerGenerations : Nat := 0x307001
abbrev peerLimitRefusals : Nat := 0x307002
abbrev portsFitted : Nat := 0x310001
abbrev laserInputsFitted : Nat := 0x310002
abbrev portState : Nat := 0x310101
abbrev laneMap : Nat := 0x310201
abbrev portEnable : Nat := 0x310301
abbrev innerCodeMode : Nat := 0x310302
abbrev replayBudget : Nat := 0x310303
abbrev outageHold : Nat := 0x310304
abbrev laneDegradeRatio : Nat := 0x310305
abbrev receiveSpacePerVc : Nat := 0x310306
abbrev flitsReplayed : Nat := 0x310401
abbrev laneMoves : Nat := 0x310402
abbrev linkGiveUps : Nat := 0x310403
abbrev pairsUncorrectable : Nat := 0x310404
abbrev laserInputPower : Nat := 0x311001
abbrev laserActive : Nat := 0x311101
abbrev laserLowThreshold : Nat := 0x311109
abbrev edgeRole : Nat := 0x312001
abbrev edgeLinkState : Nat := 0x312003
abbrev hostContext : Nat := 0x312102
abbrev hostGroupTable : Nat := 0x312103
abbrev hostWriteFailures : Nat := 0x312104
abbrev antlerMaxChunks : Nat := 0x340001
abbrev repairBlocksPerPass : Nat := 0x340002
abbrev markAreaPerTree : Nat := 0x340003
abbrev combineRate : Nat := 0x340004
abbrev antlerWaitLimit : Nat := 0x340201
abbrev runsCompleted : Nat := 0x340301
abbrev runsFailed : Nat := 0x340302
abbrev blocksMarked : Nat := 0x340303
abbrev repairPasses : Nat := 0x340304
abbrev accumulateOnlyRuns : Nat := 0x340305
abbrev stepCommand : Nat := 0x360001
abbrev sequencerState : Nat := 0x360002
abbrev loadStatus : Nat := 0x360003
abbrev loadFailAddress : Nat := 0x360004
abbrev servicePlacement : Nat := 0x360005
abbrev stepsRemaining : Nat := 0x360006
abbrev stepNumber : Nat := 0x360101
abbrev attemptLimit : Nat := 0x360102
abbrev nanAction : Nat := 0x360103
abbrev gateWaitLimit : Nat := 0x360104
abbrev stepsCommitted : Nat := 0x360105
abbrev stepsAbandoned : Nat := 0x360106
abbrev nullCommits : Nat := 0x360107
abbrev lastVerdict : Nat := 0x360108
abbrev jobSeed : Nat := 0x360201
abbrev streamState : Nat := 0x360202
abbrev jobDataPosition : Nat := 0x360301
abbrev globalBatch : Nat := 0x360302
abbrev shardCursors : Nat := 0x360303
abbrev groupCommand : Nat := 0x360401
abbrev groupsAdmitted : Nat := 0x360402
abbrev groupTable : Nat := 0x360403
abbrev shadowBytes : Nat := 0x360501
abbrev checkpointCommand : Nat := 0x362001
abbrev tandemMode : Nat := 0x362002
abbrev bulkShare : Nat := 0x362003
abbrev stopBandwidth : Nat := 0x362004
abbrev tandemStoreBase : Nat := 0x362005
abbrev tandemStoreLength : Nat := 0x362006
abbrev imageBytes : Nat := 0x362007
abbrev checkpointState : Nat := 0x362008
abbrev powerFeedId : Nat := 0x362101
abbrev partnerDevice : Nat := 0x362102
abbrev durabilityClass : Nat := 0x362103
abbrev sealedStep : Nat := 0x362104
abbrev jobSealedStep : Nat := 0x362105
abbrev heldCopyStep : Nat := 0x362106
abbrev spareTable : Nat := 0x362201
abbrev autoResume : Nat := 0x362202
abbrev restoreStatus : Nat := 0x362203
abbrev restoreLayer : Nat := 0x362204
abbrev copiesSealed : Nat := 0x362301
abbrev copiesFailed : Nat := 0x362302
abbrev sealWaitTime : Nat := 0x362303
abbrev chunksResent : Nat := 0x362304
abbrev rideChunksCaptured : Nat := 0x362305
abbrev refetches : Nat := 0x362306
abbrev rewinds : Nat := 0x362307
abbrev takeovers : Nat := 0x362308
abbrev engineResetEscalation : Nat := 0x400001
abbrev clusterMoveEscalation : Nat := 0x400002
abbrev kickTurnEscalation : Nat := 0x400003
abbrev fullRestartEscalation : Nat := 0x400004
abbrev engineWatchdog : Nat := 0x400101
abbrev fenceDrainTime : Nat := 0x400102
abbrev resetWindow : Nat := 0x400103
abbrev faultCommand : Nat := 0x401001
abbrev lastResetTier : Nat := 0x401101
abbrev lastResetTarget : Nat := 0x401102
abbrev lastResetCause : Nat := 0x401103
abbrev engineResets : Nat := 0x401201
abbrev clusterMoves : Nat := 0x401202
abbrev kickTurns : Nat := 0x401203
abbrev fullRestarts : Nat := 0x401204
abbrev escalations : Nat := 0x401205
abbrev powerCycleRequests : Nat := 0x401206
abbrev arithmeticCheckErrors : Nat := 0x401207
abbrev phasesShed : Nat := 0x401301
abbrev enginesFailed : Nat := 0x401401
abbrev managementMode : Nat := 0x401501
abbrev lockstepMismatches : Nat := 0x401502
abbrev sensorsFailed : Nat := 0x401503
abbrev logNextSeq : Nat := 0x500001
abbrev logOldestSeq : Nat := 0x500002
abbrev logRamBytes : Nat := 0x500003
abbrev logReadCursor : Nat := 0x500101
abbrev logReadData : Nat := 0x500102
abbrev persistThreshold : Nat := 0x500201
abbrev persistRate : Nat := 0x500202
abbrev persistDropped : Nat := 0x500203
abbrev hostNoticeThreshold : Nat := 0x500301
abbrev eventSeverity : Nat := 0x500401
abbrev fifoDropped : Nat := 0x501001
abbrev traceEnable : Nat := 0x501101
abbrev traceData : Nat := 0x501102
abbrev tamperPolicy : Nat := 0x600001
abbrev tamperState : Nat := 0x600101
abbrev tamperTrips : Nat := 0x600102
abbrev lastTripSensor : Nat := 0x600103
abbrev tamperCommand : Nat := 0x600201
abbrev tamperSensorEnable : Nat := 0x600301
abbrev recoverySlots : Nat := 0x600302
abbrev tamperSensorsFailed : Nat := 0x600303
abbrev fabricAuthorityKey : Nat := 0x600401
abbrev fabricCredential : Nat := 0x600402
abbrev legacyPeerPolicy : Nat := 0x600403
abbrev minCredentialEpoch : Nat := 0x600404
abbrev linkAuthFailures : Nat := 0x600405
abbrev ownerRecordInstall : Nat := 0x600501
abbrev ownerRecordNumber : Nat := 0x600502
abbrev attestNonce : Nat := 0x600601
abbrev attestReport : Nat := 0x600602
abbrev identityPublicKey : Nat := 0x601001
abbrev deviceCertificate : Nat := 0x601002
abbrev identityDigest : Nat := 0x601003
abbrev operatorKey : Nat := 0x601101
abbrev activeSlot : Nat := 0x700001
abbrev activeRelease : Nat := 0x700002
abbrev sequencerRelease : Nat := 0x700003
abbrev trialWindow : Nat := 0x700004
abbrev updateState : Nat := 0x700005
abbrev minSecurityVersion : Nat := 0x700006
abbrev updateReceived : Nat := 0x700007
abbrev updateCommand : Nat := 0x700101
abbrev updateData : Nat := 0x700201

end OD

/-- Rows for indices 0x1000 to 0x2112. -/
def objRows0 : List ObjDef := [
  ⟨0x1000, 1, 1, .str, .const, 0, 0, 0, 11, 11, 0, false⟩,
  ⟨0x1000, 2, 2, .u8, .const, 1, 0, 255, 0, 0, 0, false⟩,
  ⟨0x1000, 3, 3, .str, .const, 0, 0, 0, 16, 16, 0, false⟩,
  ⟨0x1000, 4, 4, .u8, .const, 3, 0, 255, 0, 0, 0, false⟩,
  ⟨0x1001, 1, 4, .u64, .const, 0, 0, 0xFFFFFFFFFFFFFFFF, 0, 0, 0, false⟩,
  ⟨0x1001, 5, 6, .u64, .const, 0, 0, 0xFFFFFFFFFFFFFFFF, 0, 0, 0, false⟩,
  ⟨0x1100, 1, 1, .u8, .ro, 255, 0, 255, 0, 0, 0, false⟩,
  ⟨0x1100, 2, 2, .u64, .const, 0, 0, 0xFFFFFFFFFFFFFFFF, 0, 0, 0, false⟩,
  ⟨0x1100, 3, 3, .dom, .rws, 0, 0, 0, 16, 16, 0, false⟩,
  ⟨0x1100, 4, 4, .u16, .const, 0xBAC2, 0, 0xFFFF, 0, 0, 0, false⟩,
  ⟨0x1100, 5, 5, .u8, .rw, 15, 0, 255, 0, 0, 0, false⟩,
  ⟨0x1100, 6, 6, .u8, .rw, 32, 1, 255, 0, 0, 0, false⟩,
  ⟨0x1101, 1, 1, .u8, .ro, 0, 0, 255, 0, 0, 0, false⟩,
  ⟨0x1101, 2, 2, .u8, .const, 8, 0, 255, 0, 0, 0, false⟩,
  ⟨0x1101, 3, 3, .u32, .rw, 300, 10, 0x15180, 0, 0, 0, false⟩,
  ⟨0x1101, 4, 4, .u64, .rw, 0, 0, 0xFFFFFFFFFFFFFFFF, 0, 0, 0, true⟩,
  ⟨0x1101, 5, 5, .u64, .rw, 0, 0, 0xFFFFFFFFFFFFFFFF, 0, 0, 0, true⟩,
  ⟨0x1101, 6, 6, .u64, .rw, 0, 0, 0xFFFFFFFFFFFFFFFF, 0, 0, 0, true⟩,
  ⟨0x2000, 1, 1, .u32, .ro, 0, 0, 0xFFFFFFFF, 0, 0, 0, false⟩,
  ⟨0x2001, 1, 4, .u32, .ro, 0, 0, 0xFFFFFFFF, 0, 0, 0, false⟩,
  ⟨0x2002, 1, 1, .u32, .ro, 0, 0, 0xFFFFFFFF, 0, 0, 0, false⟩,
  ⟨0x2003, 1, 1, .u32, .ro, 0, 0, 0xFFFFFFFF, 0, 0, 0, false⟩,
  ⟨0x2004, 1, 2, .u32, .ro, 0, 0, 0xFFFFFFFF, 0, 0, 0, false⟩,
  ⟨0x2005, 1, 32, .u32, .ro, 0, 0, 0xFFFFFFFF, 0, 0, 0, false⟩,
  ⟨0x2006, 1, 8, .u32, .ro, 0, 0, 0xFFFFFFFF, 0, 0, 0, false⟩,
  ⟨0x2007, 1, 2, .u32, .ro, 0, 0, 0xFFFFFFFF, 0, 0, 0, false⟩,
  ⟨0x2008, 1, 4, .u32, .ro, 0, 0, 0xFFFFFFFF, 0, 0, 0, false⟩,
  ⟨0x2009, 1, 5, .u32, .ro, 0, 0, 0xFFFFFFFF, 0, 0, 0, false⟩,
  ⟨0x200A, 1, 2, .u32, .ro, 0, 0, 0xFFFFFFFF, 0, 0, 0, false⟩,
  ⟨0x200B, 1, 1, .u32, .ro, 0, 0, 0xFFFFFFFF, 0, 0, 0, false⟩,
  ⟨0x200C, 1, 1, .u32, .ro, 0, 0, 0xFFFFFFFF, 0, 0, 0, false⟩,
  ⟨0x200D, 1, 1, .u32, .ro, 0, 0, 0xFFFFFFFF, 0, 0, 0, false⟩,
  ⟨0x2100, 1, 1, .u16, .rws, 750, 620, 880, 0, 0, 0, false⟩,
  ⟨0x2100, 2, 2, .u16, .ro, 0xFFFF, 0, 0xFFFF, 0, 0, 0, false⟩,
  ⟨0x2100, 3, 3, .u16, .ro, 750, 0, 0xFFFF, 0, 0, 0, false⟩,
  ⟨0x2104, 1, 1, .u64, .ro, 0, 0, 0xFFFFFFFFFFFFFFFF, 0, 0, 0, false⟩,
  ⟨0x2110, 1, 32, .f32, .ro, 0x7FC00000, 0, 0xFFFFFFFF, 0, 0, 0, false⟩,
  ⟨0x2111, 1, 8, .f32, .ro, 0x7FC00000, 0, 0xFFFFFFFF, 0, 0, 0, false⟩,
  ⟨0x2112, 1, 1, .f32, .ro, 0x7FC00000, 0, 0xFFFFFFFF, 0, 0, 0, false⟩,
  ⟨0x2112, 2, 2, .f32, .rw, 0, 0, 0x7F7FFFFF, 0, 0, 0, true⟩]

/-- Rows for indices 0x2112 to 0x2210. -/
def objRows1 : List ObjDef := [
  ⟨0x2112, 3, 3, .u8, .ro, 255, 0, 255, 0, 0, 0, false⟩,
  ⟨0x2112, 4, 4, .u64, .ro, 0, 0, 0xFFFFFFFFFFFFFFFF, 0, 0, 0, false⟩,
  ⟨0x2112, 5, 5, .u16, .const, 1000, 0, 0xFFFF, 0, 0, 0, false⟩,
  ⟨0x2112, 6, 6, .f32, .rw, 0x3F4CCCCD, 0x3ECCCCCD, 0x3F800000, 0, 0, 0, false⟩,
  ⟨0x2120, 1, 1, .f32, .ro, 0x7FC00000, 0, 0xFFFFFFFF, 0, 0, 0, false⟩,
  ⟨0x2120, 2, 2, .f32, .ro, 0x7FC00000, 0, 0xFFFFFFFF, 0, 0, 0, false⟩,
  ⟨0x2120, 3, 3, .f32, .ro, 0x7FC00000, 0, 0xFFFFFFFF, 0, 0, 0, false⟩,
  ⟨0x2120, 4, 4, .f32, .ro, 0x7FC00000, 0, 0xFFFFFFFF, 0, 0, 0, false⟩,
  ⟨0x2120, 5, 5, .f32, .ro, 0x7FC00000, 0, 0xFFFFFFFF, 0, 0, 0, false⟩,
  ⟨0x2121, 1, 1, .u16, .rws, 3000, 2000, 3200, 0, 0, 0, false⟩,
  ⟨0x2121, 2, 2, .u16, .ro, 880, 0, 0xFFFF, 0, 0, 0, false⟩,
  ⟨0x2122, 1, 36, .f32, .ro, 0x7FC00000, 0, 0xFFFFFFFF, 0, 0, 0, false⟩,
  ⟨0x2123, 1, 36, .f32, .ro, 0x7FC00000, 0, 0xFFFFFFFF, 0, 0, 0, false⟩,
  ⟨0x2130, 1, 1, .f32, .rws, 0x41200000, 0x3F000000, 0x41200000, 0, 0, 0, false⟩,
  ⟨0x2130, 2, 2, .f32, .rw, 0x40C00000, 0, 0x41A00000, 0, 0, 0, false⟩,
  ⟨0x2130, 3, 3, .f32, .ro, 0, 0, 0xFFFFFFFF, 0, 0, 0, false⟩,
  ⟨0x2130, 4, 4, .u64, .rw, 0, 0, 0xFFFFFFFFFFFFFFFF, 0, 0, 0, true⟩,
  ⟨0x2130, 5, 5, .u64, .rw, 0, 0, 0xFFFFFFFFFFFFFFFF, 0, 0, 0, true⟩,
  ⟨0x2130, 6, 6, .f32, .ro, 0, 0, 0xFFFFFFFF, 0, 0, 0, false⟩,
  ⟨0x2130, 7, 7, .f32, .rw, 0x42480000, 0, 0x42960000, 0, 0, 0, false⟩,
  ⟨0x2130, 8, 8, .u64, .rw, 0, 0, 0xFFFFFFFFFFFFFFFF, 0, 0, 0, true⟩,
  ⟨0x2140, 1, 1, .f32, .const, 0x40C00000, 0, 0xFFFFFFFF, 0, 0, 0, false⟩,
  ⟨0x2140, 2, 2, .u16, .const, 500, 0, 0xFFFF, 0, 0, 0, false⟩,
  ⟨0x2140, 3, 3, .f32, .const, 0x40600000, 0, 0xFFFFFFFF, 0, 0, 0, false⟩,
  ⟨0x2140, 4, 4, .f32, .ro, 0x7FC00000, 0, 0xFFFFFFFF, 0, 0, 0, false⟩,
  ⟨0x2140, 5, 5, .f32, .ro, 0x7FC00000, 0, 0xFFFFFFFF, 0, 0, 0, false⟩,
  ⟨0x2200, 1, 96, .f32, .ro, 0x7FC00000, 0, 0xFFFFFFFF, 0, 0, 0, false⟩,
  ⟨0x2201, 1, 1, .f32, .ro, 0x7FC00000, 0, 0xFFFFFFFF, 0, 0, 0, false⟩,
  ⟨0x2201, 2, 2, .u8, .ro, 255, 0, 255, 0, 0, 0, false⟩,
  ⟨0x2202, 1, 1, .f32, .rw, 0x42D20000, 0x42AA0000, 0x42DC0000, 0, 0, 0, false⟩,
  ⟨0x2202, 2, 2, .f32, .const, 0x42E60000, 0, 0xFFFFFFFF, 0, 0, 0, false⟩,
  ⟨0x2202, 3, 3, .f32, .rw, 0x42BE0000, 0x42A00000, 0x42C80000, 0, 0, 0, false⟩,
  ⟨0x2202, 4, 4, .f32, .const, 0x42D20000, 0, 0xFFFFFFFF, 0, 0, 0, false⟩,
  ⟨0x2202, 5, 5, .u16, .ro, 880, 0, 0xFFFF, 0, 0, 0, false⟩,
  ⟨0x2204, 1, 12, .f32, .ro, 0x7FC00000, 0, 0xFFFFFFFF, 0, 0, 0, false⟩,
  ⟨0x2206, 1, 1, .f32, .ro, 0x7FC00000, 0, 0xFFFFFFFF, 0, 0, 0, false⟩,
  ⟨0x2206, 2, 2, .f32, .ro, 0x7FC00000, 0, 0xFFFFFFFF, 0, 0, 0, false⟩,
  ⟨0x2206, 3, 3, .f32, .ro, 0x7FC00000, 0, 0xFFFFFFFF, 0, 0, 0, false⟩,
  ⟨0x2206, 4, 4, .f32, .rw, 0x42340000, 0x41A00000, 0x42340000, 0, 0, 0, false⟩,
  ⟨0x2210, 1, 1, .u64, .rw, 0, 0, 0xFFFFFFFFFFFFFFFF, 0, 0, 0, true⟩]

/-- Rows for indices 0x2400 to 0x2610. -/
def objRows2 : List ObjDef := [
  ⟨0x2400, 1, 1, .u16, .const, 256, 0, 0xFFFF, 0, 0, 0, false⟩,
  ⟨0x2400, 2, 2, .u16, .const, 2048, 0, 0xFFFF, 0, 0, 0, false⟩,
  ⟨0x2401, 1, 4, .u8, .ro, 2, 0, 255, 0, 0, 0, false⟩,
  ⟨0x2402, 1, 4, .dom, .ro, 0, 0, 0, 64, 64, 0, false⟩,
  ⟨0x2404, 1, 1, .u32, .const, 0x18000, 0, 0xFFFFFFFF, 0, 0, 0, false⟩,
  ⟨0x2404, 2, 2, .u8, .const, 48, 0, 255, 0, 0, 0, false⟩,
  ⟨0x2404, 3, 3, .u32, .const, 0x40000, 0, 0xFFFFFFFF, 0, 0, 0, false⟩,
  ⟨0x2405, 1, 1, .u32, .rw, 0x186A0, 1000, 0x989680, 0, 0, 0, false⟩,
  ⟨0x2410, 1, 1, .u16, .ro, 0, 0, 0xFFFF, 0, 0, 0, false⟩,
  ⟨0x2410, 2, 2, .u16, .ro, 0, 0, 0xFFFF, 0, 0, 0, false⟩,
  ⟨0x2410, 3, 3, .u64, .ro, 0, 0, 0xFFFFFFFFFFFFFFFF, 0, 0, 0, false⟩,
  ⟨0x2410, 4, 4, .u32, .ro, 0, 0, 0xFFFFFFFF, 0, 0, 0, false⟩,
  ⟨0x2411, 1, 1, .u64, .rw, 0, 0, 0xFFFFFFFFFFFFFFFF, 0, 0, 0, true⟩,
  ⟨0x2411, 2, 2, .u64, .rw, 0, 0, 0xFFFFFFFFFFFFFFFF, 0, 0, 0, true⟩,
  ⟨0x2412, 1, 1, .u64, .rw, 0, 0, 0xFFFFFFFFFFFFFFFF, 0, 0, 0, true⟩,
  ⟨0x2412, 2, 2, .u64, .rw, 0, 0, 0xFFFFFFFFFFFFFFFF, 0, 0, 0, true⟩,
  ⟨0x2430, 1, 1, .u8, .const, 8, 0, 255, 0, 0, 0, false⟩,
  ⟨0x2430, 2, 2, .u8, .const, 8, 0, 255, 0, 0, 0, false⟩,
  ⟨0x2430, 3, 3, .u16, .const, 1024, 0, 0xFFFF, 0, 0, 0, false⟩,
  ⟨0x2430, 4, 4, .u16, .const, 3072, 0, 0xFFFF, 0, 0, 0, false⟩,
  ⟨0x2430, 5, 5, .u16, .const, 160, 0, 0xFFFF, 0, 0, 0, false⟩,
  ⟨0x2430, 6, 6, .u16, .const, 128, 0, 0xFFFF, 0, 0, 0, false⟩,
  ⟨0x2431, 1, 1, .u16, .rw, 16, 0, 4096, 0, 0, 0, false⟩,
  ⟨0x2432, 1, 1, .u64, .rw, 0, 0, 0xFFFFFFFFFFFFFFFF, 0, 0, 0, true⟩,
  ⟨0x2432, 2, 2, .u64, .rw, 0, 0, 0xFFFFFFFFFFFFFFFF, 0, 0, 0, true⟩,
  ⟨0x2432, 3, 3, .u64, .rw, 0, 0, 0xFFFFFFFFFFFFFFFF, 0, 0, 0, true⟩,
  ⟨0x2432, 4, 4, .u64, .rw, 0, 0, 0xFFFFFFFFFFFFFFFF, 0, 0, 0, true⟩,
  ⟨0x2440, 1, 1, .u8, .const, 4, 0, 255, 0, 0, 0, false⟩,
  ⟨0x2440, 2, 2, .u32, .const, 0x10000, 0, 0xFFFFFFFF, 0, 0, 0, false⟩,
  ⟨0x2440, 3, 3, .u16, .const, 64, 0, 0xFFFF, 0, 0, 0, false⟩,
  ⟨0x2440, 4, 4, .u16, .const, 64, 0, 0xFFFF, 0, 0, 0, false⟩,
  ⟨0x2441, 1, 1, .u64, .rw, 0, 0, 0xFFFFFFFFFFFFFFFF, 0, 0, 0, true⟩,
  ⟨0x2441, 2, 2, .u64, .rw, 0, 0, 0xFFFFFFFFFFFFFFFF, 0, 0, 0, true⟩,
  ⟨0x2441, 3, 3, .u64, .rw, 0, 0, 0xFFFFFFFFFFFFFFFF, 0, 0, 0, true⟩,
  ⟨0x2610, 1, 1, .u8, .const, 32, 0, 255, 0, 0, 0, false⟩,
  ⟨0x2610, 2, 2, .u8, .rw, 16, 1, 32, 0, 0, 0, false⟩,
  ⟨0x2610, 3, 3, .u8, .rw, 1, 1, 2, 0, 0, 0, false⟩,
  ⟨0x2610, 4, 4, .u8, .rw, 1, 1, 2, 0, 0, 0, false⟩,
  ⟨0x2610, 5, 5, .u8, .rw, 2, 1, 2, 0, 0, 0, false⟩,
  ⟨0x2610, 6, 6, .u8, .rw, 1, 1, 2, 0, 0, 0, false⟩]

/-- Rows for indices 0x2612 to 0x3002. -/
def objRows3 : List ObjDef := [
  ⟨0x2612, 1, 1, .u32, .rw, 1000, 1, 0xF4240, 0, 0, 0, false⟩,
  ⟨0x2614, 1, 1, .u64, .rw, 0, 0, 0xFFFFFFFFFFFFFFFF, 0, 0, 0, true⟩,
  ⟨0x2614, 2, 2, .u64, .rw, 0, 0, 0xFFFFFFFFFFFFFFFF, 0, 0, 0, true⟩,
  ⟨0x2614, 3, 3, .u64, .rw, 0, 0, 0xFFFFFFFFFFFFFFFF, 0, 0, 0, true⟩,
  ⟨0x2614, 4, 4, .u64, .rw, 0, 0, 0xFFFFFFFFFFFFFFFF, 0, 0, 0, true⟩,
  ⟨0x2616, 1, 1, .u8, .rw, 2, 1, 15, 0, 0, 0, false⟩,
  ⟨0x2616, 2, 2, .u64, .rw, 0, 0, 0xFFFFFFFFFFFFFFFF, 0, 0, 0, true⟩,
  ⟨0x2620, 1, 1, .u8, .rw, 10, 0, 255, 0, 0, 0, false⟩,
  ⟨0x2620, 2, 2, .u32, .rw, 0xC4EC, 0, 0xFFFFFFFF, 0, 0, 0, false⟩,
  ⟨0x2620, 3, 3, .f32, .rw, 0x3F800000, 0x3D800000, 0x42800000, 0, 0, 0, false⟩,
  ⟨0x2620, 4, 4, .u64, .rw, 0, 0, 0xFFFFFFFFFFFFFFFF, 0, 0, 0, true⟩,
  ⟨0x2620, 5, 5, .u64, .rw, 0, 0, 0xFFFFFFFFFFFFFFFF, 0, 0, 0, true⟩,
  ⟨0x2620, 6, 6, .u64, .rw, 0, 0, 0xFFFFFFFFFFFFFFFF, 0, 0, 0, true⟩,
  ⟨0x2622, 1, 1, .u16, .ro, 0, 0, 0xFFFF, 0, 0, 0, false⟩,
  ⟨0x2622, 2, 2, .f32, .ro, 0, 0, 0xFFFFFFFF, 0, 0, 0, false⟩,
  ⟨0x2800, 1, 1, .u16, .ro, 4095, 0, 0xFFFF, 0, 0, 0, false⟩,
  ⟨0x2801, 1, 1, .u64, .const, 0x17DBFFFFFFF, 0, 0xFFFFFFFFFFFFFFFF, 0, 0, 0, false⟩,
  ⟨0x2801, 2, 2, .u64, .const, 0x17DC0000000, 0, 0xFFFFFFFFFFFFFFFF, 0, 0, 0, false⟩,
  ⟨0x2804, 1, 1, .u64, .rw, 0, 0, 0xFFFFFFFFFFFFFFFF, 0, 0, 0, true⟩,
  ⟨0x2804, 2, 2, .u64, .rw, 0, 0, 0xFFFFFFFFFFFFFFFF, 0, 0, 0, true⟩,
  ⟨0x2804, 3, 3, .u64, .rw, 0, 0, 0xFFFFFFFFFFFFFFFF, 0, 0, 0, true⟩,
  ⟨0x2805, 1, 1, .u32, .rw, 0x15180, 3600, 0x93A80, 0, 0, 0, false⟩,
  ⟨0x2806, 1, 1, .u8, .rw, 3, 1, 15, 0, 0, 0, false⟩,
  ⟨0x2806, 2, 2, .u32, .rw, 0x15180, 60, 0x278D00, 0, 0, 0, false⟩,
  ⟨0x2806, 3, 3, .u16, .const, 4096, 0, 0xFFFF, 0, 0, 0, false⟩,
  ⟨0x2806, 4, 4, .u16, .rw, 16, 4, 1024, 0, 0, 0, false⟩,
  ⟨0x2806, 5, 16, .u16, .ro, 0, 0, 0xFFFF, 0, 0, 0, false⟩,
  ⟨0x2807, 1, 1, .u16, .ro, 0xFFFF, 0, 0xFFFF, 0, 0, 0, false⟩,
  ⟨0x2810, 1, 1, .u8, .rw, 8, 0, 32, 0, 0, 0, false⟩,
  ⟨0x2811, 1, 1, .u32, .ro, 0, 0, 0xFFFFFFFF, 0, 0, 0, false⟩,
  ⟨0x2820, 1, 1, .u8, .rws, 0, 0, 1, 0, 0, 0, false⟩,
  ⟨0x2820, 2, 2, .u32, .rw, 0x4E20, 1000, 0xF4240, 0, 0, 0, false⟩,
  ⟨0x2820, 3, 3, .u32, .rw, 0x989680, 0xF4240, 0x23C34600, 0, 0, 0, false⟩,
  ⟨0x2821, 1, 2, .u32, .ro, 0, 0, 0xFFFFFFFF, 0, 0, 0, false⟩,
  ⟨0x2821, 3, 4, .u64, .ro, 0, 0, 0xFFFFFFFFFFFFFFFF, 0, 0, 0, false⟩,
  ⟨0x3000, 1, 1, .u16, .rws, 0, 0, 0x7FFF, 0, 0, 0, false⟩,
  ⟨0x3001, 1, 1, .u8, .ro, 0, 0, 255, 0, 0, 0, false⟩,
  ⟨0x3001, 2, 2, .u8, .const, 64, 0, 255, 0, 0, 0, false⟩,
  ⟨0x3002, 1, 1, .u8, .const, 64, 0, 255, 0, 0, 0, false⟩,
  ⟨0x3002, 2, 2, .u16, .const, 512, 0, 0xFFFF, 0, 0, 0, false⟩]

/-- Rows for indices 0x3002 to 0x3062. -/
def objRows4 : List ObjDef := [
  ⟨0x3002, 3, 3, .u16, .const, 256, 0, 0xFFFF, 0, 0, 0, false⟩,
  ⟨0x3010, 1, 1, .u64, .rws, 0, 0, 0xFFFFFFFFFFFFFFFF, 0, 0, 0, false⟩,
  ⟨0x3011, 1, 64, .u32, .ro, 0, 0, 0xFFFFFFFF, 0, 0, 0, false⟩,
  ⟨0x3020, 1, 1, .record, .rws, 0, 0, 0, 32, 32, 0, false⟩,
  ⟨0x3020, 2, 2, .dom, .rws, 0, 0, 0, 16, 65536, 0, false⟩,
  ⟨0x3020, 3, 3, .u64, .ro, 0, 0, 0xFFFFFFFFFFFFFFFF, 0, 0, 0, false⟩,
  ⟨0x3021, 1, 1, .u32, .ro, 0, 0, 0xFFFFFFFF, 0, 0, 0, false⟩,
  ⟨0x3021, 2, 2, .u32, .const, 0x200000, 0, 0xFFFFFFFF, 0, 0, 0, false⟩,
  ⟨0x3022, 1, 1, .u64, .rw, 0, 0, 0xFFFFFFFFFFFFFFFF, 0, 0, 0, true⟩,
  ⟨0x3022, 2, 2, .u64, .ro, 0, 0, 0xFFFFFFFFFFFFFFFF, 0, 0, 0, false⟩,
  ⟨0x3022, 3, 3, .u8, .ro, 0, 0, 255, 0, 0, 0, false⟩,
  ⟨0x3023, 1, 1, .record, .rws, 0, 0, 0, 24, 24, 0, false⟩,
  ⟨0x3030, 1, 1, .u64, .rw, 0, 0, 0xFFFFFFFFFFFFFFFF, 0, 0, 0, true⟩,
  ⟨0x3030, 2, 2, .u64, .rw, 0, 0, 0xFFFFFFFFFFFFFFFF, 0, 0, 0, true⟩,
  ⟨0x3030, 3, 3, .u64, .rw, 0, 0, 0xFFFFFFFFFFFFFFFF, 0, 0, 0, true⟩,
  ⟨0x3040, 1, 1, .u8, .rws, 3, 0, 3, 0, 0, 0, false⟩,
  ⟨0x3040, 2, 2, .u16, .rws, 0x8000, 2, 0x8000, 0, 0, 0, false⟩,
  ⟨0x3040, 3, 3, .u8, .ro, 2, 0, 255, 0, 0, 0, false⟩,
  ⟨0x3041, 1, 3, .f32, .rws, 0x43FA0000, 0, 0x461C4000, 0, 0, 0, false⟩,
  ⟨0x3041, 4, 4, .u16, .rws, 100, 1, 0x2710, 0, 0, 0, false⟩,
  ⟨0x3041, 5, 5, .f32, .ro, 0x7FC00000, 0, 0xFFFFFFFF, 0, 0, 0, false⟩,
  ⟨0x3041, 6, 6, .f32, .ro, 0x7FC00000, 0, 0xFFFFFFFF, 0, 0, 0, false⟩,
  ⟨0x3041, 7, 7, .u32, .ro, 0xFFFFFFFF, 0, 0xFFFFFFFF, 0, 0, 0, false⟩,
  ⟨0x3050, 1, 1, .u32, .const, 0x1000000, 0, 0xFFFFFFFF, 0, 0, 0, false⟩,
  ⟨0x3050, 2, 2, .u8, .rw, 16, 4, 255, 0, 0, 0, false⟩,
  ⟨0x3050, 3, 3, .u32, .rw, 100, 10, 0x2710, 0, 0, 0, false⟩,
  ⟨0x3050, 4, 4, .u64, .rw, 0, 0, 0xFFFFFFFFFFFFFFFF, 0, 0, 0, true⟩,
  ⟨0x3050, 5, 5, .u64, .rw, 0, 0, 0xFFFFFFFFFFFFFFFF, 0, 0, 0, true⟩,
  ⟨0x3060, 1, 1, .u32, .const, 0x100000, 0, 0xFFFFFFFF, 0, 0, 0, false⟩,
  ⟨0x3060, 2, 2, .u32, .rw, 2000, 500, 0x186A0, 0, 0, 0, false⟩,
  ⟨0x3060, 3, 3, .u64, .rw, 0, 0, 0xFFFFFFFFFFFFFFFF, 0, 0, 0, true⟩,
  ⟨0x3060, 4, 4, .u64, .rw, 0, 0, 0xFFFFFFFFFFFFFFFF, 0, 0, 0, true⟩,
  ⟨0x3061, 1, 1, .u32, .rw, 1000, 100, 0x186A0, 0, 0, 0, false⟩,
  ⟨0x3061, 2, 2, .u8, .rw, 2, 0, 7, 0, 0, 0, false⟩,
  ⟨0x3061, 3, 3, .u32, .ro, 3000, 0, 0xFFFFFFFF, 0, 0, 0, false⟩,
  ⟨0x3061, 4, 4, .u64, .rw, 0, 0, 0xFFFFFFFFFFFFFFFF, 0, 0, 0, true⟩,
  ⟨0x3061, 5, 5, .u64, .rw, 0, 0, 0xFFFFFFFFFFFFFFFF, 0, 0, 0, true⟩,
  ⟨0x3061, 6, 6, .u64, .rw, 0, 0, 0xFFFFFFFFFFFFFFFF, 0, 0, 0, true⟩,
  ⟨0x3062, 1, 1, .u32, .ro, 0xFFFFFFFF, 0, 0xFFFFFFFF, 0, 0, 0, false⟩,
  ⟨0x3062, 2, 2, .u64, .rw, 0, 0, 0xFFFFFFFFFFFFFFFF, 0, 0, 0, true⟩]

/-- Rows for indices 0x3062 to 0x3600. -/
def objRows5 : List ObjDef := [
  ⟨0x3062, 3, 3, .u64, .rw, 0, 0, 0xFFFFFFFFFFFFFFFF, 0, 0, 0, true⟩,
  ⟨0x3070, 1, 1, .dom, .ro, 0, 0, 0, 8192, 8192, 0, false⟩,
  ⟨0x3070, 2, 2, .u64, .rw, 0, 0, 0xFFFFFFFFFFFFFFFF, 0, 0, 0, true⟩,
  ⟨0x3100, 1, 1, .u32, .const, 0xFFFFFFFF, 0, 0xFFFFFFFF, 0, 0, 0, false⟩,
  ⟨0x3100, 2, 2, .u16, .const, 0xFFFF, 0, 0xFFFF, 0, 0, 0, false⟩,
  ⟨0x3101, 1, 32, .u32, .ro, 0, 0, 0xFFFFFFFF, 0, 0, 0, false⟩,
  ⟨0x3102, 1, 32, .u32, .ro, 1672, 0, 0xFFFFFFFF, 0, 0, 0, false⟩,
  ⟨0x3103, 1, 1, .u32, .rws, 0xFFFFFFFF, 0, 0xFFFFFFFF, 0, 0, 0, false⟩,
  ⟨0x3103, 2, 2, .u8, .rw, 2, 0, 2, 0, 0, 0, false⟩,
  ⟨0x3103, 3, 3, .u32, .rw, 40, 5, 50, 0, 0, 0, false⟩,
  ⟨0x3103, 4, 4, .u32, .rw, 10, 2, 50, 0, 0, 0, false⟩,
  ⟨0x3103, 5, 5, .f32, .rw, 0x397BA882, 0, 0x7F7FFFFF, 0, 0, 0, false⟩,
  ⟨0x3103, 6, 6, .u32, .const, 0x40000, 0, 0xFFFFFFFF, 0, 0, 0, false⟩,
  ⟨0x3104, 1, 1, .u64, .rw, 0, 0, 0xFFFFFFFFFFFFFFFF, 0, 0, 0, true⟩,
  ⟨0x3104, 2, 2, .u64, .rw, 0, 0, 0xFFFFFFFFFFFFFFFF, 0, 0, 0, true⟩,
  ⟨0x3104, 3, 3, .u64, .rw, 0, 0, 0xFFFFFFFFFFFFFFFF, 0, 0, 0, true⟩,
  ⟨0x3104, 4, 4, .u64, .rw, 0, 0, 0xFFFFFFFFFFFFFFFF, 0, 0, 0, true⟩,
  ⟨0x3110, 1, 16, .f32, .ro, 0x7FC00000, 0, 0xFFFFFFFF, 0, 0, 0, false⟩,
  ⟨0x3111, 1, 8, .u8, .ro, 0, 0, 255, 0, 0, 0, false⟩,
  ⟨0x3111, 9, 9, .f32, .rw, 0x41880000, 0x41700000, 0x41900000, 0, 0, 0, false⟩,
  ⟨0x3120, 1, 2, .u8, .rws, 0, 0, 2, 0, 0, 0, false⟩,
  ⟨0x3120, 3, 4, .u32, .ro, 0, 0, 0xFFFFFFFF, 0, 0, 0, false⟩,
  ⟨0x3121, 2, 2, .u8, .rws, 0, 0, 63, 0, 0, 0, false⟩,
  ⟨0x3121, 3, 3, .dom, .rws, 0, 0, 0, 32, 32, 255, false⟩,
  ⟨0x3121, 4, 4, .u64, .rw, 0, 0, 0xFFFFFFFFFFFFFFFF, 0, 0, 0, true⟩,
  ⟨0x3400, 1, 1, .u16, .const, 1024, 0, 0xFFFF, 0, 0, 0, false⟩,
  ⟨0x3400, 2, 2, .u16, .const, 4096, 0, 0xFFFF, 0, 0, 0, false⟩,
  ⟨0x3400, 3, 3, .u32, .const, 0x108000, 0, 0xFFFFFFFF, 0, 0, 0, false⟩,
  ⟨0x3400, 4, 4, .u16, .const, 768, 0, 0xFFFF, 0, 0, 0, false⟩,
  ⟨0x3402, 1, 1, .u32, .rw, 0x186A0, 0x2710, 0x989680, 0, 0, 0, false⟩,
  ⟨0x3403, 1, 1, .u64, .rw, 0, 0, 0xFFFFFFFFFFFFFFFF, 0, 0, 0, true⟩,
  ⟨0x3403, 2, 2, .u64, .rw, 0, 0, 0xFFFFFFFFFFFFFFFF, 0, 0, 0, true⟩,
  ⟨0x3403, 3, 3, .u64, .rw, 0, 0, 0xFFFFFFFFFFFFFFFF, 0, 0, 0, true⟩,
  ⟨0x3403, 4, 4, .u64, .rw, 0, 0, 0xFFFFFFFFFFFFFFFF, 0, 0, 0, true⟩,
  ⟨0x3403, 5, 5, .u64, .rw, 0, 0, 0xFFFFFFFFFFFFFFFF, 0, 0, 0, true⟩,
  ⟨0x3600, 1, 1, .record, .rws, 0, 0, 0, 16, 16, 0, false⟩,
  ⟨0x3600, 2, 2, .u8, .ro, 0, 0, 255, 0, 0, 0, false⟩,
  ⟨0x3600, 3, 3, .u16, .ro, 0, 0, 0xFFFF, 0, 0, 0, false⟩,
  ⟨0x3600, 4, 4, .u64, .ro, 0, 0, 0xFFFFFFFFFFFFFFFF, 0, 0, 0, false⟩,
  ⟨0x3600, 5, 5, .u8, .ro, 228, 0, 255, 0, 0, 0, false⟩]

/-- Rows for indices 0x3600 to 0x3623. -/
def objRows6 : List ObjDef := [
  ⟨0x3600, 6, 6, .u64, .ro, 0, 0, 0xFFFFFFFFFFFFFFFF, 0, 0, 0, false⟩,
  ⟨0x3601, 1, 1, .u64, .rws, 0, 0, 0xFFFFFFFFFFFF, 0, 0, 0, false⟩,
  ⟨0x3601, 2, 2, .u8, .rw, 2, 0, 7, 0, 0, 0, false⟩,
  ⟨0x3601, 3, 3, .u8, .rw, 1, 0, 2, 0, 0, 0, false⟩,
  ⟨0x3601, 4, 4, .u32, .rw, 0x30D40, 0x2710, 0x989680, 0, 0, 0, false⟩,
  ⟨0x3601, 5, 5, .u64, .rw, 0, 0, 0xFFFFFFFFFFFFFFFF, 0, 0, 0, true⟩,
  ⟨0x3601, 6, 6, .u64, .rw, 0, 0, 0xFFFFFFFFFFFFFFFF, 0, 0, 0, true⟩,
  ⟨0x3601, 7, 7, .u64, .rw, 0, 0, 0xFFFFFFFFFFFFFFFF, 0, 0, 0, true⟩,
  ⟨0x3601, 8, 8, .u8, .ro, 0, 0, 255, 0, 0, 0, false⟩,
  ⟨0x3602, 1, 1, .dom, .rws, 0, 0, 0, 16, 16, 0, false⟩,
  ⟨0x3602, 2, 2, .record, .ro, 0, 0, 0, 16, 16, 0, false⟩,
  ⟨0x3603, 1, 1, .u64, .rws, 0, 0, 0xFFFFFFFFFFFFFFFF, 0, 0, 0, false⟩,
  ⟨0x3603, 2, 2, .u32, .rws, 0, 0, 0xFFFFFFFF, 0, 0, 0, false⟩,
  ⟨0x3603, 3, 3, .dom, .rws, 0, 0, 0, 2048, 2048, 0, false⟩,
  ⟨0x3604, 1, 1, .record, .rws, 0, 0, 0, 24, 24, 0, false⟩,
  ⟨0x3604, 2, 2, .u16, .ro, 0, 0, 0xFFFF, 0, 0, 0, false⟩,
  ⟨0x3604, 3, 3, .dom, .ro, 0, 0, 0, 65536, 65536, 0, false⟩,
  ⟨0x3605, 1, 1, .u64, .ro, 0, 0, 0xFFFFFFFFFFFFFFFF, 0, 0, 0, false⟩,
  ⟨0x3620, 1, 1, .record, .rws, 0, 0, 0, 32, 32, 0, false⟩,
  ⟨0x3620, 2, 2, .u8, .rw, 0, 0, 2, 0, 0, 0, false⟩,
  ⟨0x3620, 3, 3, .u8, .rw, 8, 1, 8, 0, 0, 0, false⟩,
  ⟨0x3620, 4, 4, .u32, .const, 400, 0, 0xFFFFFFFF, 0, 0, 0, false⟩,
  ⟨0x3620, 5, 5, .u64, .rws, 0, 0, 0xFFFFFFFFFFFFFFFF, 0, 0, 0, false⟩,
  ⟨0x3620, 6, 6, .u64, .rws, 0, 0, 0xFFFFFFFFFFFFFFFF, 0, 0, 0, false⟩,
  ⟨0x3620, 7, 7, .u64, .ro, 0, 0, 0xFFFFFFFFFFFFFFFF, 0, 0, 0, false⟩,
  ⟨0x3620, 8, 8, .u8, .ro, 0, 0, 255, 0, 0, 0, false⟩,
  ⟨0x3621, 1, 1, .u32, .rws, 0, 0, 0xFFFFFFFF, 0, 0, 0, false⟩,
  ⟨0x3621, 2, 2, .u16, .ro, 0xFFFF, 0, 0xFFFF, 0, 0, 0, false⟩,
  ⟨0x3621, 3, 3, .u8, .ro, 0, 0, 255, 0, 0, 0, false⟩,
  ⟨0x3621, 4, 4, .u64, .ro, 0xFFFFFFFFFFFFFFFF, 0, 0xFFFFFFFFFFFFFFFF, 0, 0, 0, false⟩,
  ⟨0x3621, 5, 5, .u64, .ro, 0xFFFFFFFFFFFFFFFF, 0, 0xFFFFFFFFFFFFFFFF, 0, 0, 0, false⟩,
  ⟨0x3621, 6, 6, .u64, .ro, 0xFFFFFFFFFFFFFFFF, 0, 0xFFFFFFFFFFFFFFFF, 0, 0, 0, false⟩,
  ⟨0x3622, 1, 1, .dom, .rws, 0, 0, 0, 32, 32, 255, false⟩,
  ⟨0x3622, 2, 2, .u8, .rw, 1, 0, 1, 0, 0, 0, false⟩,
  ⟨0x3622, 3, 3, .u16, .ro, 0, 0, 0xFFFF, 0, 0, 0, false⟩,
  ⟨0x3622, 4, 4, .u8, .ro, 0, 0, 255, 0, 0, 0, false⟩,
  ⟨0x3623, 1, 1, .u64, .rw, 0, 0, 0xFFFFFFFFFFFFFFFF, 0, 0, 0, true⟩,
  ⟨0x3623, 2, 2, .u64, .rw, 0, 0, 0xFFFFFFFFFFFFFFFF, 0, 0, 0, true⟩,
  ⟨0x3623, 3, 3, .u64, .rw, 0, 0, 0xFFFFFFFFFFFFFFFF, 0, 0, 0, true⟩,
  ⟨0x3623, 4, 4, .u64, .rw, 0, 0, 0xFFFFFFFFFFFFFFFF, 0, 0, 0, true⟩]

/-- Rows for indices 0x3623 to 0x5011. -/
def objRows7 : List ObjDef := [
  ⟨0x3623, 5, 5, .u64, .rw, 0, 0, 0xFFFFFFFFFFFFFFFF, 0, 0, 0, true⟩,
  ⟨0x3623, 6, 6, .u64, .rw, 0, 0, 0xFFFFFFFFFFFFFFFF, 0, 0, 0, true⟩,
  ⟨0x3623, 7, 7, .u64, .rw, 0, 0, 0xFFFFFFFFFFFFFFFF, 0, 0, 0, true⟩,
  ⟨0x3623, 8, 8, .u64, .rw, 0, 0, 0xFFFFFFFFFFFFFFFF, 0, 0, 0, true⟩,
  ⟨0x4000, 1, 1, .u32, .rw, 100, 50, 0x2710, 0, 0, 0, false⟩,
  ⟨0x4000, 2, 2, .u32, .rw, 1000, 100, 0x186A0, 0, 0, 0, false⟩,
  ⟨0x4000, 3, 3, .u32, .rw, 0x9C40, 0x4E20, 0xF4240, 0, 0, 0, false⟩,
  ⟨0x4000, 4, 4, .u32, .rw, 0x989680, 0x5B8D80, 0x3938700, 0, 0, 0, false⟩,
  ⟨0x4001, 1, 1, .u32, .rw, 0x2710, 1000, 0xF4240, 0, 0, 0, false⟩,
  ⟨0x4001, 2, 2, .u32, .rw, 20, 5, 1000, 0, 0, 0, false⟩,
  ⟨0x4001, 3, 3, .u32, .rw, 0xF4240, 1000, 0x5F5E100, 0, 0, 0, false⟩,
  ⟨0x4010, 1, 1, .u64, .rws, 0, 0, 0xFFFFFFFFFFFFFFFF, 0, 0, 0, false⟩,
  ⟨0x4011, 1, 1, .u8, .ro, 0, 0, 255, 0, 0, 0, false⟩,
  ⟨0x4011, 2, 2, .u16, .ro, 0, 0, 0xFFFF, 0, 0, 0, false⟩,
  ⟨0x4011, 3, 3, .u16, .ro, 0, 0, 0xFFFF, 0, 0, 0, false⟩,
  ⟨0x4012, 1, 1, .u64, .rw, 0, 0, 0xFFFFFFFFFFFFFFFF, 0, 0, 0, true⟩,
  ⟨0x4012, 2, 2, .u64, .rw, 0, 0, 0xFFFFFFFFFFFFFFFF, 0, 0, 0, true⟩,
  ⟨0x4012, 3, 3, .u64, .rw, 0, 0, 0xFFFFFFFFFFFFFFFF, 0, 0, 0, true⟩,
  ⟨0x4012, 4, 4, .u64, .rw, 0, 0, 0xFFFFFFFFFFFFFFFF, 0, 0, 0, true⟩,
  ⟨0x4012, 5, 5, .u64, .rw, 0, 0, 0xFFFFFFFFFFFFFFFF, 0, 0, 0, true⟩,
  ⟨0x4012, 6, 6, .u64, .rw, 0, 0, 0xFFFFFFFFFFFFFFFF, 0, 0, 0, true⟩,
  ⟨0x4012, 7, 7, .u64, .rw, 0, 0, 0xFFFFFFFFFFFFFFFF, 0, 0, 0, true⟩,
  ⟨0x4013, 1, 6, .u8, .ro, 0, 0, 255, 0, 0, 0, false⟩,
  ⟨0x4014, 1, 1, .dom, .ro, 0, 0, 0, 8, 8, 0, false⟩,
  ⟨0x4015, 1, 1, .u8, .ro, 0, 0, 255, 0, 0, 0, false⟩,
  ⟨0x4015, 2, 2, .u64, .rw, 0, 0, 0xFFFFFFFFFFFFFFFF, 0, 0, 0, true⟩,
  ⟨0x4015, 3, 3, .u32, .ro, 0, 0, 0xFFFFFFFF, 0, 0, 0, false⟩,
  ⟨0x5000, 1, 1, .u64, .ro, 0xFFFFFFFFFFFFFFFF, 0, 0xFFFFFFFFFFFFFFFF, 0, 0, 0, false⟩,
  ⟨0x5000, 2, 2, .u64, .ro, 0xFFFFFFFFFFFFFFFF, 0, 0xFFFFFFFFFFFFFFFF, 0, 0, 0, false⟩,
  ⟨0x5000, 3, 3, .u32, .const, 0x200000, 0, 0xFFFFFFFF, 0, 0, 0, false⟩,
  ⟨0x5001, 1, 1, .u64, .rw, 0, 0, 0xFFFFFFFFFFFFFFFF, 0, 0, 0, false⟩,
  ⟨0x5001, 2, 2, .dom, .ro, 0, 0, 0, 0, 16384, 0, false⟩,
  ⟨0x5002, 1, 1, .u8, .rw, 2, 0, 4, 0, 0, 0, false⟩,
  ⟨0x5002, 2, 2, .u16, .rw, 64, 1, 1024, 0, 0, 0, false⟩,
  ⟨0x5002, 3, 3, .u64, .rw, 0, 0, 0xFFFFFFFFFFFFFFFF, 0, 0, 0, true⟩,
  ⟨0x5003, 1, 1, .u8, .rw, 3, 0, 4, 0, 0, 0, false⟩,
  ⟨0x5004, 1, 1, .dom, .ro, 0, 0, 0, 32768, 32768, 0, false⟩,
  ⟨0x5010, 1, 20, .u32, .rw, 0, 0, 0xFFFFFFFF, 0, 0, 0, true⟩,
  ⟨0x5011, 1, 1, .u16, .rw, 0, 0, 1023, 0, 0, 0, false⟩,
  ⟨0x5011, 2, 2, .dom, .ro, 0, 0, 0, 0, 16384, 0, false⟩]

/-- Rows for indices 0x6000 to 0x7002. -/
def objRows8 : List ObjDef := [
  ⟨0x6000, 1, 1, .u8, .rws, 1, 0, 2, 0, 0, 0, false⟩,
  ⟨0x6001, 1, 1, .u8, .ro, 0, 0, 255, 0, 0, 0, false⟩,
  ⟨0x6001, 2, 2, .u32, .ro, 0, 0, 0xFFFFFFFF, 0, 0, 0, false⟩,
  ⟨0x6001, 3, 3, .u8, .ro, 255, 0, 255, 0, 0, 0, false⟩,
  ⟨0x6002, 1, 1, .u64, .rws, 0, 0, 0xFFFFFFFFFFFFFFFF, 0, 0, 0, false⟩,
  ⟨0x6003, 1, 1, .u32, .rws, 15, 0, 15, 0, 0, 0, false⟩,
  ⟨0x6003, 2, 2, .u16, .rws, 1, 0, 0xFFFF, 0, 0, 0, false⟩,
  ⟨0x6003, 3, 3, .u32, .ro, 0, 0, 0xFFFFFFFF, 0, 0, 0, false⟩,
  ⟨0x6004, 1, 1, .dom, .rws, 0, 0, 0, 0, 2592, 0, false⟩,
  ⟨0x6004, 2, 2, .dom, .rws, 0, 0, 0, 0, 4699, 0, false⟩,
  ⟨0x6004, 3, 3, .u8, .rws, 1, 0, 1, 0, 0, 0, false⟩,
  ⟨0x6004, 4, 4, .u32, .rws, 0, 0, 0xFFFFFFFF, 0, 0, 0, false⟩,
  ⟨0x6004, 5, 5, .u64, .rw, 0, 0, 0xFFFFFFFFFFFFFFFF, 0, 0, 0, true⟩,
  ⟨0x6005, 1, 1, .dom, .rws, 0, 0, 0, 0, 65536, 0, false⟩,
  ⟨0x6005, 2, 2, .u32, .ro, 0, 0, 0xFFFFFFFF, 0, 0, 0, false⟩,
  ⟨0x6006, 1, 1, .dom, .rw, 0, 0, 0, 32, 32, 0, false⟩,
  ⟨0x6006, 2, 2, .dom, .ro, 0, 0, 0, 5139, 5139, 0, false⟩,
  ⟨0x6010, 1, 1, .dom, .ro, 0, 0, 0, 2592, 2592, 0, false⟩,
  ⟨0x6010, 2, 2, .dom, .ro, 0, 0, 0, 4715, 4715, 0, false⟩,
  ⟨0x6010, 3, 3, .dom, .ro, 0, 0, 0, 64, 64, 0, false⟩,
  ⟨0x6011, 1, 16, .dom, .rws, 0, 0, 0, 0, 2592, 0, false⟩,
  ⟨0x7000, 1, 1, .u8, .ro, 255, 0, 255, 0, 0, 0, false⟩,
  ⟨0x7000, 2, 2, .u32, .ro, 0xFFFFFFFF, 0, 0xFFFFFFFF, 0, 0, 0, false⟩,
  ⟨0x7000, 3, 3, .u32, .ro, 0xFFFFFFFF, 0, 0xFFFFFFFF, 0, 0, 0, false⟩,
  ⟨0x7000, 4, 4, .u32, .rw, 600, 60, 0x15180, 0, 0, 0, false⟩,
  ⟨0x7000, 5, 5, .u8, .ro, 0, 0, 255, 0, 0, 0, false⟩,
  ⟨0x7000, 6, 6, .u32, .ro, 0xFFFFFFFF, 0, 0xFFFFFFFF, 0, 0, 0, false⟩,
  ⟨0x7000, 7, 7, .u32, .ro, 0, 0, 0xFFFFFFFF, 0, 0, 0, false⟩,
  ⟨0x7001, 1, 1, .u64, .rws, 0, 0, 0xFFFFFFFFFFFFFFFF, 0, 0, 0, false⟩,
  ⟨0x7002, 1, 1, .dom, .wo, 0, 0, 0, 9, 1048576, 0, false⟩]

/-- The dictionary. -/
def objTable : List ObjDef :=
  objRows0 ++ objRows1 ++ objRows2 ++ objRows3 ++ objRows4 ++ objRows5 ++ objRows6 ++ objRows7 ++ objRows8

/-- The row of an object, none where no chapter assigns it. -/
def objDef (key : Nat) : Option ObjDef :=
  objTable.find? (fun d => d.index == key / 256 && d.lo ≤ key % 256 && key % 256 ≤ d.hi)

/-- The highest sub-index of an index, none where no chapter assigns the index (R563). -/
def highestSub (index : Nat) : Option Nat :=
  match objTable.filter (fun d => d.index == index) with
  | [] => none
  | ds => some (ds.foldl (fun m d => Nat.max m d.hi) 0)

/-- The size in bytes of a scalar type (R565). -/
def ObjType.bytes : ObjType → Nat
  | .u8 => 1 | .u16 => 2 | .u32 => 4 | .u64 => 8 | .f32 => 4 | _ => 0

/-- Whether a type is a scalar. -/
def ObjType.scalar : ObjType → Bool
  | .str => false | .dom => false | .record => false | _ => true

/-- The default of a scalar object (R567). -/
def objDefault (key : Nat) : Nat :=
  match objDef key with
  | some d => d.dflt
  | none => 0

end Sys2Proof.Machine
end

