-- ==== Sys2Proof/Machine/Ops.lean ====
section
/-!
DEFINITION. The shared operations over the device: sparse tables, object values and counters, free values, events and
readiness.
-/

namespace Sys2Proof.Machine

/-! ## Sparse tables -/

section
variable {α : Type}

/-- What a table holds at a key, if anything. -/
def mfind : Map α → Nat → Option α
  | [], _ => none
  | (k, v) :: m, i => if k = i then some v else mfind m i

/-- What a table holds at a key; `d` where it lists nothing. -/
def mget (d : α) (m : Map α) (i : Nat) : α := (mfind m i).getD d

/-- The table with no entry at a key. -/
def mdel : Map α → Nat → Map α
  | [], _ => []
  | (k, v) :: m, i => if k = i then mdel m i else (k, v) :: mdel m i

/-- The table with a value at a key, keys kept rising. -/
def mset : Map α → Nat → α → Map α
  | [], i, x => [(i, x)]
  | (k, v) :: m, i, x => if k < i then (k, v) :: mset m i x else if k = i then (i, x) :: m else (i, x) :: (k, v) :: m

/-- The table with a value at a key, where `d` is what an unlisted key reads as: `d` itself is not listed. -/
def mput [DecidableEq α] (d : α) (m : Map α) (i : Nat) (x : α) : Map α :=
  if x = d then mdel m i else mset m i x

/-- The form of a table: keys strictly rising. -/
def mkeysRise : Map α → Bool
  | [] => true
  | [_] => true
  | (k, _) :: (k', v') :: m => decide (k < k') && mkeysRise ((k', v') :: m)

/-- Each value changed in place. -/
def mmap (f : Nat → α → α) : Map α → Map α
  | [] => []
  | (k, v) :: m => (k, f k v) :: mmap f m

/-- The entries a test keeps. -/
def mfilter (f : Nat → α → Bool) : Map α → Map α
  | [] => []
  | (k, v) :: m => if f k v then (k, v) :: mfilter f m else mfilter f m

/-- A list element replaced; the list as it is past its end. -/
def lset : List α → Nat → α → List α
  | [], _, _ => []
  | _ :: l, 0, x => x :: l
  | a :: l, i + 1, x => a :: lset l i x

end

/-- Apply an effect once for each number below n, in rising order. -/
def times {σ : Type} (n : Nat) (f : Nat → σ → σ) (s : σ) : σ := (List.range n).foldl (fun s i => f i s) s

/-! ## Outcomes -/

/-- What a meaning answers. -/
abbrev Out := Host.Outcome State Fault Refusal

/-- Whether an effect makes the first write of the open step to a line whose flip-log bit is set, while the job seal notice
is awaited (R482). -/
def heldWrite (d d' : Dev) : Bool :=
  d.ckpt.holds && d'.seq.written.any (fun l => !d.seq.written.contains l && d.ckpt.flipLog.contains l)

/-- The wait for the job seal notice holds something up: it is timed from here (R484). -/
def noteWait (d : Dev) : Dev :=
  { d with ckpt := { d.ckpt with waitSince := some (d.ckpt.waitSince.getD d.tick) } }

/-- The next state after an effect on the device. A command whose write R482 holds, or that reached a shadowed line while the
sequencer is COMMITTING (R434), waits: nothing of it has happened yet (log entries 20 and 128). -/
def onDev (f : Dev → Dev) (s : State) : Out :=
  let d := f s.m
  .next { s with m := if d.seq.reached then s.m else if heldWrite s.m d then noteWait s.m else d }

/-! ## Object values (R567) -/

/-- The value an object holds, its default where nothing has been written or reported. -/
def rd (d : Dev) (key : Nat) : Nat := (mfind d.od key).getD (objDefault key)

/-- An object's value replaced. -/
def wr (key v : Nat) (d : Dev) : Dev := { d with od := mput (objDefault key) d.od key v }

/-- A 64-bit counter raised by n. -/
def addTo (key n : Nat) (d : Dev) : Dev := wr key ((rd d key + n) % 2 ^ 64) d

/-- A 64-bit counter raised by one. -/
def inc (key : Nat) (d : Dev) : Dev := addTo key 1 d

/-- The bytes a STRING, DOMAIN or RECORD object holds, if any were written or reported. -/
def rdBytes (d : Dev) (key : Nat) : Option Bytes := mfind d.odBytes key

/-- The bytes of a fixed-size object, its default bytes where nothing was written. -/
def rdFull (d : Dev) (key : Nat) : Bytes :=
  match rdBytes d key, objDef key with
  | some b, _ => b
  | none, some o => List.replicate o.size0 (BitVec.ofNat 8 o.fill)
  | none, none => []

def wrBytes (key : Nat) (b : Bytes) (d : Dev) : Dev := { d with odBytes := mset d.odBytes key b }
def delBytes (key : Nat) (d : Dev) : Dev := { d with odBytes := mdel d.odBytes key }

/-- The value of an object put back to its default. -/
def toDefault (key : Nat) (d : Dev) : Dev := { d with od := mdel d.od key, odBytes := mdel d.odBytes key }

/-! ## Free values -/

/-- The next value the manual leaves open. -/
def freeBits (d : Dev) : W64 := Config.freeValue d.free

/-- A status that the manual does not state, other than ST_PENDING: one of the values that are ever returned (R13). -/
def freeStatus (d : Dev) : Status :=
  let v := (freeBits d).toNat % (12 + 0xFF0 - 1)
  BitVec.ofNat 16 (if v < 12 then v else if v + 4 < ST.pending.toNat then v + 4 else v + 5)

/-- One free value has been drawn. -/
def drew (d : Dev) : Dev := { d with free := d.free + 1 }

/-! ## Events (R536) -/

/-- The port that stands for Hivan itself as the source of an event (R537). -/
abbrev hivanPort : Nat := 16

/-- An event raised on a management-bus port: it waits to be published (R55) or, on Hivan's own, to be logged. -/
def raise (port id inst detail0 : Nat) (details : List Nat) (d : Dev) : Dev :=
  { d with ev := { d.ev with
      raised := d.ev.raised ++ [(port, { id, inst, detail0 := detail0 % 2 ^ 28, details := details.take 15 })] } }

/-- Whether `gap` ticks have passed since the rate-limited event was last raised. -/
def rateFree (key gap : Nat) (d : Dev) : Bool :=
  match mfind d.ev.lastRaised key with
  | some t => decide (t + gap ≤ d.tick)
  | none => true

/-- An event raised at most once per `gap` ticks for a key. -/
def raiseRated (key gap port id inst detail0 : Nat) (details : List Nat) (d : Dev) : Dev :=
  if rateFree key gap d then
    let e := raise port id inst detail0 details d
    { e with ev := { e.ev with lastRaised := mset e.ev.lastRaised key d.tick } }
  else d

/-- The bus port of compute die c, base die b and link die l (R57). -/
def cdPort (c : Nat) : Nat := c
def bdPort (b : Nat) : Nat := 4 + b
def ldPort (l : Nat) : Nat := 8 + l

/-! ## Readiness (R570-R572) -/

/-- The states of R571. -/
abbrev RS.absent : Nat := 0
abbrev RS.init : Nat := 1
abbrev RS.ready : Nat := 2
abbrev RS.degraded : Nat := 3
abbrev RS.fenced : Nat := 4
abbrev RS.failed : Nat := 5

/-- STATE of a readiness object. -/
def readyState (d : Dev) (f : FunctionKey) : Nat := nfld (rd d f) 2 0
/-- REASON of a readiness object. -/
def readyReason (d : Dev) (f : FunctionKey) : Nat := nfld (rd d f) 15 8
/-- TRANSITIONS of a readiness object. -/
def readyCount (d : Dev) (f : FunctionKey) : Nat := nfld (rd d f) 31 16

/-- Whether a function is READY or DEGRADED. -/
def works (d : Dev) (f : FunctionKey) : Bool := readyState d f == RS.ready || readyState d f == RS.degraded

/-- The management-bus port of the die that reports a function: its own die where one is named, else Hivan
(DEDUCED, log entry 4). -/
def readyPort (f : FunctionKey) : Nat :=
  let i := f / 256
  let n := f % 256
  if i = 0x2001 then cdPort (n - 1)
  else if i = 0x2004 then ldPort (n - 1)
  else if i = 0x2005 then ldPort ((n - 1) / 16)
  else if i = 0x2006 then ldPort ((n - 1) / 4)
  else if i = 0x2007 then ldPort (n - 1)
  else if i = 0x2008 then cdPort (n - 1)
  else if i = 0x200A then ldPort (n - 1)
  else hivanPort

/-- A function reports a state and a reason: a change of STATE counts as a transition and raises EV_2001; a change of
REASON alone does not (R571, R572). -/
def setReady (f : FunctionKey) (state reason : Nat) (d : Dev) : Dev :=
  let old := readyState d f
  if old = state then wr f (state + reason * 2 ^ 8 + readyCount d f * 2 ^ 16) d
  else
    let v := state + reason * 2 ^ 8 + (readyCount d f + 1) % 2 ^ 16 * 2 ^ 16
    raise (readyPort f) 0x2001 0 (old * 2 ^ 24 + f) [v] (wr f v d)

/-- Lists of readiness objects (R570). -/
def computeFns : List FunctionKey := [OD.readyCompute, OD.readyCompute + 1, OD.readyCompute + 2, OD.readyCompute + 3]
def fabricPortFn (p : Nat) : FunctionKey := OD.readyFabricPort + p
def engineFn (e : Nat) : FunctionKey := OD.readyOpticalEngine + e
def edgeFn (e : Nat) : FunctionKey := OD.readyEdgePort + e
def linkDieFn (l : Nat) : FunctionKey := OD.readyLinkDie + l
def sequencerFn (q : Nat) : FunctionKey := OD.readySequencer + q
def digestFn (l : Nat) : FunctionKey := OD.readyDigestEngine + l
/-- Service s of R429: 0 step sequencer, 1 membership, 2 stream, 3 data position, 4 checkpoint. -/
def serviceFn (s : Nat) : FunctionKey := OD.readyService + s

/-- What a function's state answers to a use of it: ST_OK while READY or DEGRADED, ST_FENCED while FENCED, ST_STATE
otherwise (R630). -/
def useOf (d : Dev) (f : FunctionKey) : Status :=
  if works d f then ST.ok else if readyState d f = RS.fenced then ST.fenced else ST.state

/-- The same for a use that any of several functions serves: the answer of the first where none works. -/
def useAny (d : Dev) (fs : List FunctionKey) : Status :=
  if fs.any (works d) then ST.ok else match fs with
    | [] => ST.ok
    | f :: _ => useOf d f

/-- A use that needs every function of a list: the first answer that is not ST_OK. -/
def useAll (d : Dev) (fs : List FunctionKey) : Status :=
  fs.foldl (fun st f => if st = ST.ok then useOf d f else st) ST.ok

/-- Whether an engine is being reset: its fence is up (R515, R518). -/
def engineInReset (d : Dev) (e : Nat) : Bool := d.faults.resets.any (fun r => r.tier == 1 && r.target == e)

/-- The link dies. -/
def linkDies : List FunctionKey := [linkDieFn 0, linkDieFn 1]
/-- The compute die of a core. -/
def computeFn (core : Nat) : FunctionKey := OD.readyCompute + core / 512

/-! ## What leaves the block -/

/-- A message sent to the outside. -/
def send (m : Msg) (d : Dev) : Dev := { d with sent := d.sent ++ [m] }

/-- The source slot of a service: that of the sequencer processor on which it runs (R304, R429). -/
def serviceSlot (d : Dev) (service : Nat) : Nat := 10240 + d.seq.services.getD service 0

/-- A message that a service sends over the fabric, a write under the next sequence number of its slot (R304, log entry 129). -/
def sendAs (service : Nat) (m : Msg) (d : Dev) : Dev :=
  let slot := serviceSlot d service
  let seq := mget 0 d.tw.seqs slot
  send (.served slot seq m) { d with tw := { d.tw with seqs := mput 0 d.tw.seqs slot ((seq + 1) % 2 ^ 32) } }

/-- The role in force of an edge port: 0 OFF, 1 PCIe, 2 CXL (R387). -/
def edgeRoleOf (d : Dev) (e : Nat) : Nat := d.mem.roles.getD e 0

/-- The device number (OD 0x3000.01). -/
def devNo (d : Dev) : Nat := rd d OD.deviceNumber

end Sys2Proof.Machine
end

