-- ==== Sys2Proof/Machine/MemOps.lean ====
section
/-!
DEFINITION. Memory: the local address map, the hashes, the LLC, shadow regions, poison, and the one pair of operations
through which every agent reads and writes a location (R105-R111, R254-R263, R277, R280, R433-R435).
-/

namespace Sys2Proof.Machine

/-! ## The address map (R254) -/

inductive Zone where
  | hbm | reserve | cxl | dictionary | counters | doorbells | unmapped
  deriving DecidableEq, Repr

def cxlBase : Nat := 0x100000000000
/-- One past the CXL window. -/
def cxlEnd : Nat := 0x200000000000
def dictBase : Nat := 0x1F00000000000
def counterBase : Nat := 0x1F00001000000
def doorbellBase : Nat := 0x1F00002000000
/-- One past the last usable HBM address. -/
def hbmEnd : Nat := 0x017DC0000000
/-- One past the HBM reserve. -/
def reserveEnd : Nat := 0x018000000000

def zone (a : Nat) : Zone :=
  if a < hbmEnd then .hbm
  else if a < reserveEnd then .reserve
  else if a < cxlBase then .unmapped
  else if a < cxlEnd then .cxl
  else if a < dictBase then .unmapped
  else if a < counterBase then .dictionary
  else if a < 0x1F00001080000 then .counters
  else if a < doorbellBase then .unmapped
  else if a < 0x1F00002800000 then .doorbells
  else .unmapped

/-- Whether an address lies in control space, its reserved ranges included (R255). -/
def inControl (a : Nat) : Bool := decide (dictBase ≤ a)

/-! ## Hashes (R252, R256, R257) -/

/-- h of R256, from q. -/
def hashH (q : Nat) : Nat := (Nat.xor (Nat.xor (nfld q 8 0) (nfld q 17 9)) (nfld q 23 18)) % 384

/-- Pseudo-channel of an HBM address. -/
def pcOf (a : Nat) : Nat := (a / 256 % 384 + hashH (a / 256 / 384)) % 384

/-- Byte offset of an HBM address within its pseudo-channel. -/
def offsetOf (a : Nat) : Nat := 256 * (a / 256 / 384) + a % 256

/-- The HBM address of an offset within a pseudo-channel. -/
def addrOfPc (pc o : Nat) : Nat :=
  let q := o / 256
  256 * (384 * q + (pc + 384 - hashH q) % 384) + o % 256

/-- Stack and die of an HBM address, 16 * stack + die (R252). -/
def dieOf (a : Nat) : Nat :=
  let pc := pcOf a
  16 * (pc / 32) + 4 * (offsetOf a / 2 ^ 30) + (pc % 32 / 2) / 4

/-- LLC slice of an HBM address or a CXL window address (R257). -/
def sliceOf (a : Nat) : Nat :=
  if a < reserveEnd then
    64 * (pcOf a / 96) +
      Nat.xor (Nat.xor (Nat.xor (nfld a 11 6) (nfld a 17 12)) (Nat.xor (nfld a 23 18) (nfld a 29 24)))
        (Nat.xor (Nat.xor (nfld a 35 30) (nfld a 41 36)) (Nat.xor (nfld a 47 42) (nfld a 48 48)))
  else
    Nat.xor (Nat.xor (Nat.xor (nfld a 13 6) (nfld a 21 14)) (Nat.xor (nfld a 29 22) (nfld a 37 30)))
      (Nat.xor (nfld a 45 38) (nfld a 48 46))

/-- Set of a line within its slice (R257). -/
def setOf (a : Nat) : Nat := Nat.xor (Nat.xor (nfld a 17 6) (nfld a 29 18)) (nfld a 41 30)

/-- One number for a set of a slice. -/
def setKey (a : Nat) : Nat := 4096 * sliceOf a + setOf a

/-! ## The CXL window (R277, R280) -/

def CxlPort.none : CxlPort := { st := .off, capacity := 0, serial := 0, downSince := 0, lastTrain := 0 }

def cxlPort (m : MemState) (e : Nat) : CxlPort := mget CxlPort.none m.cxl e

/-- Capacity of E0 in whole GiB, at most 16 TiB. -/
def cxlC0 (m : MemState) : Nat := Nat.min ((cxlPort m 0).capacity / 2 ^ 30 * 2 ^ 30) (2 ^ 44)
/-- Capacity of E1, the total limited to 16 TiB. -/
def cxlC1 (m : MemState) : Nat := Nat.min ((cxlPort m 1).capacity / 2 ^ 30 * 2 ^ 30) (2 ^ 44 - cxlC0 m)

/-- Whether INTERLEAVE holds: it was in force at the last full restart, both ports have trained since, with equal
capacity (R277; log entry 5). -/
def interleaved (m : MemState) : Bool :=
  m.placement == 0 && cxlC0 m == cxlC1 m && decide ((cxlPort m 0).st ≠ .off) && decide ((cxlPort m 1).st ≠ .off)

/-- The port that backs a window address, none beyond the backed capacity. -/
def cxlPortOf (m : MemState) (a : Nat) : Option Nat :=
  let w := a - cxlBase
  if w < cxlC0 m + cxlC1 m then
    if interleaved m then some (nfld w 12 12) else if w < cxlC0 m then some 0 else some 1
  else none

/-- The device physical address of a window address on its port (R277). -/
def cxlDpa (m : MemState) (a : Nat) : Nat :=
  let w := a - cxlBase
  if interleaved m then w / 2 ^ 13 * 2 ^ 12 + w % 2 ^ 12 else if w < cxlC0 m then w else w - cxlC0 m

/-- Where the expander of a port begins in storage: beyond every local address. -/
def cxlStore (e : Nat) : Nat := 2 ^ 50 * (e + 1)

/-- The storage of a local address: an HBM byte's own address; a window byte's device physical address on its expander,
which keeps its contents where the placement changes (R277, R283). -/
def storeAt (m : MemState) (a : Nat) : Nat :=
  match zone a with
  | .cxl => (match cxlPortOf m a with
      | some e => cxlStore e + cxlDpa m a
      | none => a)
  | _ => a

/-! ## Physical places (R265-R268) -/

/-- Where the reserve begins, in granules. -/
def reserveFirst : Nat := hbmEnd / 256

/-- The first pseudo-channel of a die, and its die group (R252). -/
def diePc (x : Nat) : Nat := 32 * (x / 16) + 8 * (x % 4)
def dieGroup (x : Nat) : Nat := x % 16 / 4

/-- Whether a granule's own place lies on a die. -/
def onDie (x g : Nat) : Bool := dieOf (256 * g) == x

/-- Place of a granule in a die's order, ascending pseudo-channel and then ascending offset, and back (R267). -/
def dieIndex (x g : Nat) : Nat := (pcOf (256 * g) - diePc x) * 2 ^ 22 + (offsetOf (256 * g) / 256 - dieGroup x * 2 ^ 22)
def dieGranule (x n : Nat) : Nat := addrOfPc (diePc x + n / 2 ^ 22) (256 * (dieGroup x * 2 ^ 22 + n % 2 ^ 22)) / 256

/-- Granules of a row of 384 that lie off a die, in ascending address. -/
def rowOff (x row : Nat) : List Nat := ((List.range 384).map (fun r => 384 * row + r)).filter (fun g => !onDie x g)

/-- The n-th reserve granule that lies off a die, and the place of one among them: the reserve lies in die group 3, of
which every row of 384 granules has eight on a die. -/
def reserveNth (x n : Nat) : Nat :=
  if dieGroup x < 3 then reserveFirst + n else (rowOff x (reserveFirst / 384 + n / 376)).getD (n % 376) 0
def reserveRank (x p : Nat) : Nat :=
  if dieGroup x < 3 then p - reserveFirst
  else 376 * (p / 384 - reserveFirst / 384) + ((rowOff x (p / 384)).filter (fun g => decide (g < p))).length

/-- The places of the retirement spares in that order, ascending. -/
def spareRanks (m : MemState) (x : Nat) : List Nat :=
  ((m.retired.filter (fun r => !onDie x r.spare)).map (fun r => reserveRank x r.spare)).insertionSort (· ≤ ·)

/-- Where a granule of the lost die is re-homed: the n-th goes to the n-th reserve granule in ascending address that
neither lies on the die nor serves as a spare (R267). -/
def rehomed (m : MemState) (x g : Nat) : Nat :=
  reserveNth x ((spareRanks m x).foldl (fun n r => if r ≤ n then n + 1 else n) (dieIndex x g))

/-- The place of a granule once the retirements done are followed, and the granule that a place serves. -/
def spareOf (m : MemState) (g : Nat) : Nat :=
  m.retired.foldl (fun p r => if r.granule = p ∧ r.done then r.spare else p) g
def servedBy (m : MemState) (p : Nat) : Nat :=
  m.retired.reverse.foldl (fun g r => if r.spare = g ∧ r.done then r.granule else g) p

/-- The granule of HBM whose controller serves a granule: its spare once retired, its new place once its die is lost. -/
def physGranule (m : MemState) (g : Nat) : Nat :=
  let p := spareOf m g
  match m.lost with
  | some x => if onDie x p then spareOf m (rehomed m x p) else p
  | none => p

/-- The granule that a place of HBM holds, none where it holds none any more. -/
def heldAt (m : MemState) (p : Nat) : Option Nat :=
  let g := servedBy m p
  if m.retired.any (fun r => r.granule == p && r.done) then none
  else match m.lost with
    | none => some g
    | some x =>
      if onDie x p then none
      else
        let k := reserveRank x g
        let n := k - ((spareRanks m x).filter (fun r => decide (r < k))).length
        if reserveFirst ≤ g ∧ n < 2 ^ 25 then some (servedBy m (dieGranule x n)) else some g

/-- Whether a line of storage lies in the range of the lost die and has not been written whole since (R267). -/
def lostLine (m : MemState) (l : Nat) : Bool :=
  match m.lost with
  | none => false
  | some x => m.lostPoison && decide (64 * l < reserveEnd) && onDie x (spareOf m (l / 4)) && !(m.healed.contains l)

/-! ## Poison -/

/-- Whether a line of storage holds poison (R263). -/
def poisoned (m : MemState) (l : Nat) : Bool := m.poison.contains l || lostLine m l

/-- A line of storage marked poisoned. -/
def setPoison (l : Nat) (m : MemState) : MemState :=
  { m with poison := if m.poison.contains l then m.poison else l :: m.poison,
           healed := m.healed }

/-- A line of storage no longer poisoned: it has been written whole. -/
def clearPoison (l : Nat) (m : MemState) : MemState :=
  { m with poison := m.poison.filter (· != l),
           healed := if lostLine m l then l :: m.healed else m.healed }

/-! ## Bytes of storage -/

/-- What an unlisted byte reads as: HBM is initialised to zero (R629); for the CXL tier log entry 6. -/
def cellDefault : Byte := 0

def cellAt (m : MemState) (p : Nat) : Byte := mget cellDefault m.cells p

def cellPut (p : Nat) (b : Byte) (m : MemState) : MemState := { m with cells := mput cellDefault m.cells p b }

/-- Bytes stored from an address up. -/
def cellsPut : Nat → Bytes → MemState → MemState
  | _, [], m => m
  | p, b :: bs, m => cellsPut (p + 1) bs (cellPut p b m)

def cellsAt (m : MemState) (p n : Nat) : Bytes := (List.range n).map (fun i => cellAt m (p + i))

/-- The canonical form of memory: addresses strictly rising, no entry equal to what an unlisted address reads as. -/
def MemState.wf (m : MemState) : Bool := mkeysRise m.cells && m.cells.all (fun c => decide (c.2 ≠ cellDefault))

/-- No slice holds a clean line of which the memory behind it holds another copy, so an eviction changes no byte. -/
def MemState.settled (m : MemState) : Bool := m.llc.all (fun e => e.dirty || e.below.isNone)

/-! ## The LLC (R258, R280) -/

/-- Ways of a set that work. -/
def waysOf (m : MemState) (key : Nat) : Nat := 12 - (m.llcOff.filter (fun k => k / 16 == key)).length

/-- Whether a line's CXL port is down, so that it is not evicted. -/
def pinned (m : MemState) (l : Nat) : Bool :=
  match zone (64 * l) with
  | .cxl => (match cxlPortOf m (64 * l) with
      | some e => decide ((cxlPort m e).st = .down)
      | none => false)
  | _ => false

/-- The list without its last element that a test allows. -/
def dropLast1 {α : Type} (f : α → Bool) (l : List α) : List α := (l.reverse.eraseP f).reverse

/-- A line as its coherence point holds it. -/
def copyOf (m : MemState) (l : Nat) : LineCopy :=
  { data := cellsAt m (storeAt m (64 * l)) 64, poison := poisoned m (storeAt m (64 * l) / 64) }

/-- A line replaced by a copy. -/
def putCopy (l : Nat) (c : LineCopy) (m : MemState) : MemState :=
  let p := storeAt m (64 * l)
  if c.poison then setPoison (p / 64) (cellsPut p c.data m) else clearPoison (p / 64) (cellsPut p c.data m)

/-- What a slice keeps of the memory behind a line that becomes dirty: of a line of the CXL window what its expander holds.
What HBM holds is written over when the line is evicted. -/
def behind (m : MemState) (l : Nat) : Option LineCopy := if zone (64 * l) = .cxl then some (copyOf m l) else none

/-- A line leaves its slice: a dirty one has been written back, and after a clean one the memory behind it is read. -/
def evict (e : LlcLine) (m : MemState) : MemState :=
  match e.dirty, e.below with
  | false, some c => putCopy e.line c m
  | _, _ => m

/-- The line of a set that makes room: the least recently used one that may be evicted. -/
def victim (m : MemState) (key : Nat) : Option LlcLine :=
  m.llc.reverse.find? (fun x => setKey (64 * x.line) == key && !pinned m x.line)

/-- A line without room for it in its slice's set, made room for; none where no way may be evicted (log entry 117). -/
def makeRoom (key : Nat) (m : MemState) : Option MemState :=
  let held := m.llc.filter (fun x => setKey (64 * x.line) == key)
  if held.length < waysOf m key then some m
  else (victim m key).map (fun e => { evict e m with llc := m.llc.filter (fun x => x.line != e.line) })

/-- A line used: it moves to the front; if the slice does not hold it, it is allocated, the least recently used way
that may be evicted making room. `dirty` says that it is written. -/
def touch (l : Nat) (dirty : Bool) (m : MemState) : MemState :=
  match m.llc.find? (fun e => e.line == l) with
  | some e =>
    let e' : LlcLine := { e with dirty := e.dirty || dirty, below := if dirty && !e.dirty then behind m l else e.below }
    { m with llc := e' :: m.llc.filter (fun x => x.line != l) }
  | none =>
    match makeRoom (setKey (64 * l)) m with
    | some m => { m with llc := { line := l, dirty, below := if dirty then behind m l else none } :: m.llc }
    | none => m

def inLlc (m : MemState) (l : Nat) : Bool := m.llc.any (fun e => e.line == l)

/-- Whether a combining queue holds a line (R273). -/
def queued (m : MemState) (l : Nat) : Bool := m.combining.any (fun e => e.line == l)

/-- A line used where its queue does not serve it. -/
def use (l : Nat) (dirty : Bool) (m : MemState) : MemState := if queued m l then m else touch l dirty m

/-- A line written whole by an engine that does not name it through its region: a copy put at its coherence point. -/
def lineWrite (l : Nat) (c : LineCopy) (m : MemState) : MemState := putCopy l c (use l true m)

/-! ## Shadow regions (R433-R435) -/

def overlaps (a n b k : Nat) : Bool := decide (a < b + k) && decide (b < a + n)

/-- The shadow region that an address lies in. -/
def shadowOf (d : Dev) (a : Nat) : Option Shadow :=
  d.seq.regions.find? (fun r => decide (r.base ≤ a) && decide (a < r.base + r.length))

/-- Whether a step is OPEN or at its GATE. -/
def inStep (d : Dev) : Bool := d.seq.st == .open || d.seq.st == .gate

/-- Address of a location in a half of its region. -/
def halfAddr (r : Shadow) (half1 : Bool) (a : Nat) : Nat := if half1 then r.half1 + (a - r.base) else a

/-- The storage a read of a location reaches; none where it returns zero (R434). -/
def readPlace (d : Dev) (a : Nat) : Option Nat :=
  match shadowOf d a with
  | none => some a
  | some r =>
    let c := d.seq.half.contains (a / 64)
    if inStep d then
      if d.seq.written.contains (a / 64) then some (halfAddr r (!c) a)
      else if r.zero then none else some (halfAddr r c a)
    else some (halfAddr r c a)

/-- Whether a range touches the half 1 or the map of a loaded region. -/
def touchesMeta (d : Dev) (a n : Nat) : Bool :=
  d.seq.regions.any (fun r => overlaps a n r.half1 r.length || overlaps a n r.map (r.length / 256))

/-! ## One location -/

/-- The byte that a read of a location returns. -/
def byteAt (d : Dev) (a : Nat) : Byte :=
  match readPlace d a with
  | some p => cellAt d.mem (storeAt d.mem p)
  | none => 0

def bytesAt (d : Dev) (a n : Nat) : Bytes := (List.range n).map (fun i => byteAt d (a + i))

/-- Whether the port behind a place answers a read of it with poison: it is FAILED, or down and neither the slice nor a
combining queue holds the line (R280). -/
def portDead (m : MemState) (p : Nat) : Bool :=
  match zone p with
  | .cxl => (match cxlPortOf m p with
      | some e => decide ((cxlPort m e).st = .failed) ||
                  (decide ((cxlPort m e).st = .down) && !inLlc m (p / 64) && !queued m (p / 64))
      | none => false)
  | _ => false

/-- Whether a read of a location returns poison. -/
def poisonAt (d : Dev) (a : Nat) : Bool :=
  match readPlace d a with
  | some p => poisoned d.mem (storeAt d.mem p / 64) || portDead d.mem p
  | none => false

/-- Whether a range of data memory may be named at all (R255, R434). -/
def spaceStatus (d : Dev) (a n : Nat) : Status :=
  if n = 0 then ST.ok
  else if touchesMeta d a n then ST.access
  else if a + n ≤ hbmEnd then ST.ok
  else if cxlBase ≤ a ∧ a - cxlBase + n ≤ cxlC0 d.mem + cxlC1 d.mem then ST.ok
  else ST.access

/-- The pieces of a range, one per line: address and length. -/
def pieces (a n : Nat) : List (Nat × Nat) :=
  if n = 0 then [] else
  (List.range ((a + n - 1) / 64 + 1 - a / 64)).map (fun i =>
    let lo := Nat.max a (64 * (a / 64 + i))
    (lo, Nat.min (a + n) (64 * (a / 64 + i) + 64) - lo))

/-- The lines of a range. -/
def linesOf (a n : Nat) : List Nat := (pieces a n).map (fun p => p.1 / 64)

/-- The first line of a range whose read returns poison. -/
def poisonedIn (d : Dev) (a n : Nat) : Bool := (pieces a n).any (fun p => poisonAt d p.1)

/-- An access to a range. One that reaches a shadowed line while the sequencer is COMMITTING is held (R434): its command
waits, and nothing of it has happened yet (log entry 128). -/
def reach (a n : Nat) (d : Dev) : Dev :=
  if d.seq.st == .committing && (linesOf a n).any (fun l => (shadowOf d (64 * l)).isSome)
  then { d with seq := { d.seq with reached := true } } else d

/-- The lines of a range used by a read. -/
def touchRead (a n : Nat) (d : Dev) : Dev :=
  let d := reach a n d
  { d with mem := ((linesOf a n).filterMap (fun l => readPlace d (64 * l))).foldl (fun m p => use (p / 64) false m) d.mem }

/-- Whether a range can be read: status and bytes. A range of which any line is poison reads as ST_POISON and its
bytes must not be used. -/
def readMem (d : Dev) (a n : Nat) : Status × Bytes :=
  let st := spaceStatus d a n
  if st ≠ ST.ok then (st, [])
  else if poisonedIn d a n then (ST.poison, [])
  else (ST.ok, bytesAt d a n)

/-- The line of a region's half 1 - C prepared for the first write of the open step: W set, and the committed bytes
copied unless the write covers the whole line (R434). -/
def openLine (d : Dev) (r : Shadow) (a : Nat) (whole : Bool) : Dev :=
  let l := a / 64
  if d.seq.written.contains l then d
  else
    let c := d.seq.half.contains l
    let src := halfAddr r c (64 * l) / 64
    let dst := halfAddr r (!c) (64 * l) / 64
    let m := if whole then d.mem
      else if r.zero then lineWrite dst { data := List.replicate 64 0, poison := false } d.mem
      else lineWrite dst (copyOf d.mem src) (use src false d.mem)
    { d with mem := m, seq := { d.seq with written := l :: d.seq.written } }

/-- The storage that a write to a location reaches, and the device made ready for it. -/
def writePlace (d : Dev) (a : Nat) (whole : Bool) : Nat × Dev :=
  match shadowOf d a with
  | none => (a, d)
  | some r =>
    let c := d.seq.half.contains (a / 64)
    if inStep d then (halfAddr r (!c) a, openLine d r a whole) else (halfAddr r c a, d)

/-- Whether a CXL port that is not up turns a write to a place away (R280). -/
def portBarred (m : MemState) (p : Nat) : Bool :=
  match zone p with
  | .cxl => (match cxlPortOf m p with
      | some e => decide ((cxlPort m e).st = .down) || decide ((cxlPort m e).st = .failed)
      | none => false)
  | _ => false

/-- The same for a location, through its region. -/
def writeBarred (d : Dev) (a : Nat) : Bool :=
  match shadowOf d a with
  | none => portBarred d.mem a
  | some r =>
    let c := d.seq.half.contains (a / 64)
    portBarred d.mem (halfAddr r (if inStep d then !c else c) a)

/-- A write within one line: a write of the whole line clears poison, a partial write to a poisoned line leaves it
and is answered with ST_POISON (R263). -/
def writePiece (a : Nat) (bs : Bytes) (d : Dev) : Status × Dev :=
  let d := reach a bs.length d
  if writeBarred d a then (ST.poison, d)
  else
    let whole := bs.length == 64
    let (p, d1) := writePlace d a whole
    let m := use (p / 64) true d1.mem
    let k := storeAt m p
    if whole then (ST.ok, { d1 with mem := cellsPut k bs (clearPoison (k / 64) m) })
    else if poisoned m (k / 64) then (ST.poison, { d1 with mem := m })
    else (ST.ok, { d1 with mem := cellsPut k bs m })

/-- The status of two parts: the first that is not ST_OK. -/
def firstBad (s t : Status) : Status := if s = ST.ok then t else s

/-- Whether a range touches the tandem store, which only the checkpoint service writes (R477). -/
def inTandemStore (d : Dev) (a n : Nat) : Bool := overlaps a n (rd d OD.tandemStoreBase) (rd d OD.tandemStoreLength) && n != 0 && rd d OD.tandemStoreLength != 0

/-- Whether a range of data memory may be written by anyone but the checkpoint service. -/
def writeStatus (d : Dev) (a n : Nat) : Status := if inTandemStore d a n then ST.access else spaceStatus d a n

/-- A write of data memory, line by line; every line that takes it is written, and the status is the first that is
not ST_OK. -/
def writeMem (a : Nat) (bs : Bytes) (d : Dev) : Status × Dev :=
  let st := writeStatus d a bs.length
  if st ≠ ST.ok then (st, d)
  else (pieces a bs.length).foldl (fun (acc : Status × Dev) p =>
    let r := writePiece p.1 ((bs.drop (p.1 - a)).take p.2) acc.2
    (firstBad acc.1 r.1, r.2)) (ST.ok, d)

/-- A whole line written as poison through its coherence point (R263, R314). -/
def writePoison (l : Nat) (d : Dev) : Dev :=
  let d := reach (64 * l) 64 d
  if writeBarred d (64 * l) then d
  else
    let (p, d1) := writePlace d (64 * l) true
    { d1 with mem := lineWrite (p / 64) { data := List.replicate 64 0, poison := true } d1.mem }

/-- A write made by the device's own engines, whose failure is not reported. -/
def putMem (a : Nat) (bs : Bytes) (d : Dev) : Dev := (writeMem a bs d).2

/-- A 64-bit word of memory, zero where it cannot be read. -/
def wordAt (d : Dev) (a : Nat) : W64 := BitVec.ofNat 64 (leNat (readMem d a 8).2)

/-- n 64-bit words of memory. -/
def wordsAt (d : Dev) (a n : Nat) : List W64 := wordsOf n (readMem d a (8 * n)).2

/-- A 64-bit word written. -/
def putWord (a : Nat) (w : W64) (d : Dev) : Dev := putMem a (leBytes 8 w.toNat) d

/-! ## Prefetch buffers (R270, R115) -/

def Prefetcher.none : Prefetcher := { trackers := [], buffer := [] }

/-- Lines that a store or an atomic of a core makes its buffer discard. -/
def dropBuffered (core a n : Nat) (d : Dev) : Dev :=
  let p := mget Prefetcher.none d.mem.prefetch core
  let kept : Prefetcher := { p with buffer := p.buffer.filter (fun b => !(linesOf a n).contains b.line) }
  { d with mem := { d.mem with prefetch := mput Prefetcher.none d.mem.prefetch core kept } }

/-- An acquire of BLOCK scope or wider discards what the core's prefetchers hold. -/
def dropAllBuffered (core : Nat) (d : Dev) : Dev :=
  let p := mget Prefetcher.none d.mem.prefetch core
  let kept : Prefetcher := { p with buffer := [] }
  { d with mem := { d.mem with prefetch := mput Prefetcher.none d.mem.prefetch core kept } }

end Sys2Proof.Machine
end

