-- ==== Sys2Proof/Machine/Control.lean ====
section
/-!
DEFINITION. Local regions, contexts, control space: which local access is granted (R290-R295), and what a load, store
or atomic of an arrival counter slot or a dictionary slot does (R255, R319, R551, R552).
-/

namespace Sys2Proof.Machine

/-! ## Contexts and local regions -/

def Ctx.free : Ctx := { st := .free, epoch := 0, regions := [], since := 0 }

def ctxOf (d : Dev) (c : Nat) : Ctx := mget Ctx.free d.tw.ctxs c

/-- A context's record replaced. -/
def setCtx (c : Nat) (x : Ctx) (d : Dev) : Dev := { d with tw := { d.tw with ctxs := mput Ctx.free d.tw.ctxs c x } }

/-- Whether one 64 KiB unit is covered by a valid region with a right. -/
def unitGranted (x : Ctx) (right : Region → Bool) (unit : Nat) : Bool :=
  x.regions.any (fun r => r.2.valid && right r.2 && decide (r.2.base ≤ unit) && decide (unit ≤ r.2.last))

/-- Whether every byte of a range lies in a valid region of the context with a right (R295). -/
def granted (d : Dev) (c : Nat) (right : Region → Bool) (a n : Nat) : Bool :=
  n == 0 || (List.range ((a + n - 1) / 65536 + 1 - a / 65536)).all
    (fun i => unitGranted (ctxOf d c) right (a / 65536 + i))

/-- The rights of an access. -/
structure Need where
  rd : Bool
  wr : Bool
  deriving DecidableEq, Repr

def Need.load : Need := ⟨true, false⟩
def Need.store : Need := ⟨false, true⟩
def Need.atomic : Need := ⟨true, true⟩

def grantedFor (d : Dev) (c : Nat) (k : Need) (a n : Nat) : Bool :=
  (!k.rd || granted d c (fun r => r.rd) a n) && (!k.wr || granted d c (fun r => r.wr) a n)

/-- Why a context cannot be named by new work: ST_FENCED while DRAINING, ST_STATE while FREE or QUIET (R293). -/
def ctxRefusal (d : Dev) (c : Nat) : Status :=
  match (ctxOf d c).st with
  | .live => ST.ok
  | .draining => ST.fenced
  | _ => ST.state

/-- Whether a fetch at an address is allowed: usable HBM or CXL window, and EX granted (R82). -/
def fetchStatus (d : Dev) (c pc : Nat) : Status :=
  if pc % 8 ≠ 0 then ST.invalid
  else if spaceStatus d pc 8 ≠ ST.ok then ST.access
  else if granted d c (fun r => r.ex) pc 8 then ST.ok else ST.access

/-! ## Arrival counters (R319) -/

def counterAt (d : Dev) (n : Nat) : Nat := mget 0 d.tw.counters n

/-- Whether a counter less a value, modulo 2^32 as a signed number, is zero or positive (R100). -/
def reached (counter : Nat) (value : W32) : Bool := decide (0 ≤ sext 32 (counter + 2 ^ 32 - value.toNat))

/-- A lane that waits for an arrival counter goes on once the counter reaches its value. -/
def wakeLane (n v : Nat) (l : Lane) : Lane :=
  match l.st with
  | .waitArr k x _ => if k = n ∧ reached v x then { l with st := .run } else l
  | _ => l

/-- The lanes that a counter's new value releases; each is an acquire at BLOCK scope (R101), which discards what its
core's prefetchers hold. -/
def wakeCounter (n v : Nat) (d : Dev) : Dev :=
  let woken := fun (b : Block) => b.groups.any (fun g => g.lanes.any (fun l => l != wakeLane n v l))
  let cores := (d.blocks.filter woken).map (fun b => b.core)
  let wake := fun (b : Block) => { b with groups := b.groups.map (fun g => { g with lanes := g.lanes.map (wakeLane n v) }) }
  cores.foldl (fun d c => dropAllBuffered c d) { d with blocks := d.blocks.map wake }

/-- A counter's new value, and the lanes it releases. -/
def setCounter (n v : Nat) (d : Dev) : Dev :=
  wakeCounter n (v % 2 ^ 64) { d with tw := { d.tw with counters := mput 0 d.tw.counters n (v % 2 ^ 64) } }

/-- The wait limit of a RUN runs anew from each increment that it counts (R424). -/
def noteIncrement (n : Nat) (d : Dev) : Dev :=
  { d with runs := mmap (fun _ r => if r.first ≤ n ∧ n < r.first + r.count then { r with seen := d.tick } else r) d.runs }

/-- One arrival: an atomic add of one, modulo 2^64 (R121). -/
def arrive (n : Nat) (d : Dev) : Dev := setCounter n (counterAt d n + 1) (noteIncrement n d)

/-! ## Dictionary slots (R552) -/

def InSlot.empty : InSlot := { owner := 0, doorbell := 0, done := 0, request := [], reply := [], pending := false }

def slotAt (d : Dev) (n : Nat) : InSlot := mget InSlot.empty d.hv.slots n

def setSlot (n : Nat) (x : InSlot) (d : Dev) : Dev :=
  { d with hv := { d.hv with slots := mput InSlot.empty d.hv.slots n x } }

/-- Bytes of a buffer from an offset, zero past what has been written. -/
def bufRead (b : Bytes) (o n : Nat) : Bytes := (List.range n).map (fun i => b.getD (o + i) 0)

/-- A buffer with bytes written at an offset, zeros filling a gap. -/
def bufWrite (b : Bytes) (o : Nat) (x : Bytes) : Bytes :=
  (b ++ List.replicate (o - b.length) 0).take o ++ x ++ b.drop (o + x.length)

/-- A doorbell store: ignored and counted while the previous request is not done (R552). A zero SEQ submits nothing. -/
def ringSlot (n : Nat) (seq : Nat) (d : Dev) : Dev :=
  let x := slotAt d n
  if x.done ≠ x.doorbell then inc OD.requestsDiscarded d
  else if seq = 0 then setSlot n { x with doorbell := 0, done := 0 } d
  else setSlot n { x with doorbell := seq, pending := true } d

/-- The 8-byte word of a dictionary slot at an offset; none in its reserved words. -/
def slotLoad (x : InSlot) (o : Nat) : Option Nat :=
  if o = 0 then some x.owner
  else if o = 8 then some x.doorbell
  else if o = 0x10 then some x.done
  else if o < 0x40 then none
  else if o < 0x8000 then some (leNat (bufRead x.request (o - 0x40) 8))
  else some (leNat (bufRead x.reply (o - 0x8000) 8))

/-- A store of an 8-byte word of a dictionary slot; none where it is turned away. -/
def slotStore (n o v : Nat) (d : Dev) : Option Dev :=
  let x := slotAt d n
  if o = 0 then some (setSlot n { x with owner := v } d)
  else if o = 8 then some (ringSlot n v d)
  else if o = 0x10 then some (setSlot n { x with done := v } d)
  else if o < 0x40 then none
  else if o < 0x8000 then some (setSlot n { x with request := bufWrite x.request (o - 0x40) (leBytes 8 v) } d)
  else some (setSlot n { x with reply := bufWrite x.reply (o - 0x8000) (leBytes 8 v) } d)

/-! ## Loads, stores and atomics of control space -/

/-- A load of n bytes of control space: aligned 8-byte accesses only (R255). Doorbells are refused here: the accesses
they accept are those of R306. -/
def ctlLoad (d : Dev) (a n : Nat) : Status × Nat :=
  if n ≠ 8 ∨ a % 8 ≠ 0 then (ST.access, 0)
  else match zone a with
    | .counters => (ST.ok, counterAt d ((a - counterBase) / 8))
    | .dictionary =>
      (match slotLoad (slotAt d ((a - dictBase) / 65536)) ((a - dictBase) % 65536) with
       | some v => (ST.ok, v)
       | none => (ST.access, 0))
    | _ => (ST.access, 0)

/-- A store of control space by an agent: slots 0 to 3 are the sequencer processors' (R552). -/
def ctlStore (who : Agent) (a n v : Nat) (d : Dev) : Status × Dev :=
  if n ≠ 8 ∨ a % 8 ≠ 0 then (ST.access, d)
  else match zone a with
    | .counters => (ST.ok, setCounter ((a - counterBase) / 8) v d)
    | .dictionary =>
      let s := (a - dictBase) / 65536
      if s < 4 ∧ who ≠ .sequencer then (ST.access, d)
      else (match slotStore s ((a - dictBase) % 65536) v d with
        | some d' => (ST.ok, d')
        | none => (ST.access, d))
    | _ => (ST.access, d)

/-- Whether control space accepts an atomic: ADD or EXCH of type U64 on a counter slot (R319), CAS of type U64 in the
dictionary window (R552). -/
def ctlAtomicOk (a aop aty : Nat) : Bool :=
  a % 8 == 0 && (match zone a with
    | .counters => (aop == 0 || aop == 6) && aty == 2
    | .dictionary => aop == 7 && aty == 2
    | _ => false)

end Sys2Proof.Machine
end

