-- ==== Sys2Proof/Machine/Numerics.lean ====
section
/-!
DEFINITION. Number formats: exact values, decoding, rounding and encoding (R170-R183), FP32 arithmetic (R77), and the
FP32 encoding of measured quantities.
-/

namespace Sys2Proof.Machine

/-! ## Formats (R170, R171, R182) -/

inductive Fmt where
  | fp32 | bf16 | fp16 | e4m3 | e5m2 | e3m2 | e2m3 | e2m1 | mxint8
  deriving DecidableEq, Repr

/-- Exponent bits, mantissa bits, bias. An MXINT8 element has neither exponent nor bias. -/
def Fmt.expBits : Fmt → Nat
  | .fp32 => 8 | .bf16 => 8 | .fp16 => 5 | .e4m3 => 4 | .e5m2 => 5 | .e3m2 => 3 | .e2m3 => 2 | .e2m1 => 2 | .mxint8 => 0
def Fmt.manBits : Fmt → Nat
  | .fp32 => 23 | .bf16 => 7 | .fp16 => 10 | .e4m3 => 3 | .e5m2 => 2 | .e3m2 => 2 | .e2m3 => 3 | .e2m1 => 1 | .mxint8 => 7
def Fmt.bias : Fmt → Nat
  | .fp32 => 127 | .bf16 => 127 | .fp16 => 15 | .e4m3 => 7 | .e5m2 => 15 | .e3m2 => 3 | .e2m3 => 1 | .e2m1 => 1
  | .mxint8 => 0

/-- Bits of an encoding. -/
def Fmt.bits (f : Fmt) : Nat := 1 + f.expBits + f.manBits

/-- Whether the format has infinities. -/
def Fmt.hasInf : Fmt → Bool
  | .fp32 => true | .bf16 => true | .fp16 => true | .e5m2 => true | _ => false

/-- The canonical NaN, none where the format has no NaN. -/
def Fmt.nan : Fmt → Option Nat
  | .fp32 => some 0x7FC00000 | .bf16 => some 0x7FC0 | .fp16 => some 0x7E00 | .e4m3 => some 0x7F | .e5m2 => some 0x7E
  | _ => none

/-- Exponent of the top binade. -/
def Fmt.emax : Fmt → Int
  | .fp32 => 127 | .bf16 => 127 | .fp16 => 15 | .e4m3 => 8 | .e5m2 => 15 | .e3m2 => 4 | .e2m3 => 2 | .e2m1 => 2
  | .mxint8 => 0

/-- Exponent of the lowest normal binade. -/
def Fmt.emin (f : Fmt) : Int := 1 - (f.bias : Int)

/-- Largest finite encoding without its sign. -/
def Fmt.maxBits : Fmt → Nat
  | .fp32 => 0x7F7FFFFF | .bf16 => 0x7F7F | .fp16 => 0x7BFF | .e4m3 => 0x7E | .e5m2 => 0x7B | .e3m2 => 0x1F
  | .e2m3 => 0x1F | .e2m1 => 7 | .mxint8 => 0x7F

/-- Significand of the largest finite value, in units of the top binade's spacing. -/
def Fmt.maxMant (f : Fmt) : Nat := if f = .e4m3 then 14 else 2 ^ (f.manBits + 1) - 1

/-! ## Exact values -/

/-- An exact dyadic number, i * 2^e. -/
structure Dy where
  i : Int
  e : Int
  deriving DecidableEq, Repr

/-- A value: finite with its sign (so that zero keeps one), infinite, or NaN. -/
inductive Val where
  | fin (neg : Bool) (n : Nat) (e : Int)
  | inf (neg : Bool)
  | nan
  deriving DecidableEq, Repr

/-- i * 2^k for k of any sign, where it is an integer; the floor elsewhere. -/
def ishift (i : Int) (k : Int) : Int := if 0 ≤ k then i * 2 ^ k.toNat else i / 2 ^ (-k).toNat
def nshift (n : Nat) (k : Int) : Nat := if 0 ≤ k then n * 2 ^ k.toNat else n / 2 ^ (-k).toNat

def Dy.zero : Dy := ⟨0, 0⟩
def Dy.add (x y : Dy) : Dy :=
  let e := min x.e y.e
  ⟨ishift x.i (x.e - e) + ishift y.i (y.e - e), e⟩
def Dy.mul (x y : Dy) : Dy := ⟨x.i * y.i, x.e + y.e⟩
def Dy.neg (x : Dy) : Dy := ⟨-x.i, x.e⟩
/-- x * 2^k. -/
def Dy.scale (x : Dy) (k : Int) : Dy := ⟨x.i, x.e + k⟩
/-- x < y. -/
def Dy.lt (x y : Dy) : Bool := decide ((Dy.add x (Dy.neg y)).i < 0)
def Dy.abs (x : Dy) : Dy := ⟨x.i.natAbs, x.e⟩
/-- floor(log2 |x|) of a non-zero number. -/
def Dy.log2 (x : Dy) : Int := (Nat.log2 x.i.natAbs : Int) + x.e

/-- A finite value of a dyadic number; zero is +0. -/
def Dy.toVal (x : Dy) : Val := .fin (decide (x.i < 0)) x.i.natAbs x.e

/-- The number a finite value is; zero for the others. -/
def Val.toDy : Val → Dy
  | .fin s n e => ⟨if s then -(n : Int) else n, e⟩
  | _ => Dy.zero

def Val.isNan : Val → Bool
  | .nan => true | _ => false
def Val.isInf : Val → Bool
  | .inf _ => true | _ => false
def Val.isFin : Val → Bool
  | .fin _ _ _ => true | _ => false
def Val.isZero : Val → Bool
  | .fin _ n _ => n == 0 | _ => false
def Val.negative : Val → Bool
  | .fin s _ _ => s | .inf s => s | .nan => false

/-- An integer as a value. -/
def ofInt (i : Int) : Val := Dy.toVal ⟨i, 0⟩

/-! ## Decoding (R170-R172) -/

/-- The value of an encoding; bits above the format's are ignored. -/
def decode (f : Fmt) (b : Nat) : Val :=
  match f with
  | .mxint8 => Dy.toVal ⟨sext 8 b, -6⟩
  | _ =>
    let m := f.manBits
    let x := b % 2 ^ f.bits
    let s := x / 2 ^ (f.bits - 1) == 1
    let e := x / 2 ^ m % 2 ^ f.expBits
    let frac := x % 2 ^ m
    if f.hasInf && e == 2 ^ f.expBits - 1 then (if frac = 0 then .inf s else .nan)
    else if f = .e4m3 ∧ x % 128 = 127 then .nan
    else if e = 0 then .fin s frac (f.emin - m)
    else .fin s (2 ^ m + frac) ((e : Int) - f.bias - m)

/-! ## Rounding (R176, R177) -/

/-- RNE 0, RTZ 1, RDN 2, RUP 3, SR 4 with its random word. -/
structure RMode where
  mode : Nat
  u : W32
  deriving DecidableEq, Repr

def RMode.rne : RMode := ⟨0, 0⟩

/-- Whether a magnitude k + rem / 2^sh is raised to k + 1. -/
def roundsUp (r : RMode) (neg : Bool) (k rem sh : Nat) : Bool :=
  match r.mode with
  | 0 => decide (2 ^ sh < 2 * rem) || (decide (2 * rem = 2 ^ sh) && k % 2 == 1)
  | 1 => false
  | 2 => neg && decide (0 < rem)
  | 3 => !neg && decide (0 < rem)
  | _ => decide (2 ^ 32 ≤ rem * 2 ^ 32 / 2 ^ sh + r.u.toNat)

/-- The magnitude n * 2^e rounded to a multiple of 2^q: the multiple. -/
def roundTo (r : RMode) (neg : Bool) (n : Nat) (e q : Int) : Nat :=
  if q ≤ e then n * 2 ^ (e - q).toNat
  else
    let sh := (q - e).toNat
    let k := n / 2 ^ sh
    if roundsUp r neg k (n % 2 ^ sh) sh then k + 1 else k

/-- Sign bit of an encoding. -/
def signBit (f : Fmt) (neg : Bool) : Nat := if neg then 2 ^ (f.bits - 1) else 0

/-- ±max (R171, R179). -/
def maxOf (f : Fmt) (neg : Bool) : Nat :=
  match f with
  | .mxint8 => if neg then 0x80 else 0x7F
  | _ => f.maxBits + signBit f neg

/-- Infinity in the format's own encoding. -/
def infOf (f : Fmt) (neg : Bool) : Nat := (2 ^ f.expBits - 1) * 2 ^ f.manBits + signBit f neg

/-- What an overflow is written as (R179). -/
def overflowOf (f : Fmt) (r : RMode) (sat neg : Bool) : Nat :=
  let big := if f.hasInf then infOf f neg else (f.nan).getD (maxOf f neg)
  if sat || !(f.hasInf || f == .e4m3) then maxOf f neg
  else match r.mode with
    | 1 => maxOf f neg
    | 2 => if neg then big else maxOf f neg
    | 3 => if neg then maxOf f neg else big
    | _ => big

/-- What a rounding delivers: the encoding, and whether it overflowed. -/
structure Rounded where
  bits : Nat
  ovf : Bool
  deriving DecidableEq, Repr

/-- An exact value rounded to a format (R176-R180). -/
def round (f : Fmt) (r : RMode) (sat : Bool) (v : Val) : Rounded :=
  match v with
  | .nan => ⟨(f.nan).getD 0, false⟩
  | .inf s =>
    if f.hasInf then ⟨if sat then maxOf f s else infOf f s, false⟩
    else if f = .e4m3 then ⟨if sat then maxOf f s else 0x7F, false⟩
    else ⟨maxOf f s, false⟩
  | .fin s n e =>
    match f with
    | .mxint8 =>
      let k := roundTo r s n e (-6)
      if s then (if 128 < k then ⟨0x80, true⟩ else ⟨(256 - k) % 256, false⟩)
      else (if 127 < k then ⟨0x7F, true⟩ else ⟨k, false⟩)
    | _ =>
      if n = 0 then ⟨signBit f s, false⟩
      else
        let b := max f.emin (min f.emax ((Nat.log2 n : Int) + e))
        let k := roundTo r s n e (b - f.manBits)
        if b = f.emax ∧ f.maxMant < k then ⟨overflowOf f r sat s, true⟩
        else ⟨((b + f.bias - 1).toNat) * 2 ^ f.manBits + k + signBit f s, false⟩

/-- RNE to FP32, as R194 writes it. -/
def rne32 (v : Val) : W32 := BitVec.ofNat 32 (round .fp32 RMode.rne false v).bits

/-- An FP32 register's value. -/
def f32 (w : W32) : Val := decode .fp32 w.toNat

def canonNan : W32 := 0x7FC00000

/-! ## Exact arithmetic on values -/

def vneg : Val → Val
  | .fin s n e => .fin (!s) n e
  | .inf s => .inf (!s)
  | .nan => .nan

/-- The exact sum under IEEE 754's rules for specials and signed zeros. -/
def vadd : Val → Val → Val
  | .nan, _ => .nan
  | _, .nan => .nan
  | .inf s, .inf t => if s = t then .inf s else .nan
  | .inf s, _ => .inf s
  | _, .inf t => .inf t
  | .fin s n e, .fin t k f =>
    let d := Dy.add (Val.toDy (.fin s n e)) (Val.toDy (.fin t k f))
    if d.i = 0 then .fin (s && t) 0 0 else d.toVal

/-- The exact product. -/
def vmul : Val → Val → Val
  | .nan, _ => .nan
  | _, .nan => .nan
  | .inf s, .inf t => .inf (s != t)
  | .inf s, .fin t k _ => if k = 0 then .nan else .inf (s != t)
  | .fin s n _, .inf t => if n = 0 then .nan else .inf (s != t)
  | .fin s n e, .fin t k f => .fin (s != t) (n * k) (e + f)

/-- x * 2^k. -/
def vscale (v : Val) (k : Int) : Val :=
  match v with
  | .fin s n e => .fin s n (e + k)
  | v => v

/-- The exact sum of a group of products (R195): zero is -0 only when every product is -0. -/
def vsum (l : List Val) : Val :=
  match l with
  | [] => .fin false 0 0
  | v :: vs => vs.foldl vadd v

/-- Order of two values that are not NaN, as numbers: -1, 0 or 1; -0 equals +0. -/
def vcmp (x y : Val) : Int :=
  match x, y with
  | .inf s, .inf t => if s = t then 0 else if s then -1 else 1
  | .inf s, _ => if s then -1 else 1
  | _, .inf t => if t then 1 else -1
  | x, y => let d := (Dy.add x.toDy (Dy.neg y.toDy)).i; if d < 0 then -1 else if 0 < d then 1 else 0

/-! ## FP32 operations (R77) -/

def fadd (a b : W32) : W32 := rne32 (vadd (f32 a) (f32 b))
def fsub (a b : W32) : W32 := rne32 (vadd (f32 a) (vneg (f32 b)))
def fmul (a b : W32) : W32 := rne32 (vmul (f32 a) (f32 b))
/-- a * b + c, rounded once. -/
def ffma (a b c : W32) : W32 := rne32 (vadd (vmul (f32 a) (f32 b)) (f32 c))

/-- Minimum and maximum: NaN when either operand is, and -0 below +0. -/
def fmin (a b : W32) : W32 :=
  let x := f32 a
  let y := f32 b
  if x.isNan || y.isNan then canonNan
  else match vcmp x y with
    | -1 => a
    | 0 => if x.negative then a else b
    | _ => b
def fmax (a b : W32) : W32 :=
  let x := f32 a
  let y := f32 b
  if x.isNan || y.isNan then canonNan
  else match vcmp x y with
    | -1 => b
    | 0 => if x.negative then b else a
    | _ => a

def fabs (a : W32) : W32 := if (f32 a).isNan then canonNan else a &&& 0x7FFFFFFF
def fneg (a : W32) : W32 := if (f32 a).isNan then canonNan else a ^^^ 0x80000000

/-- An integer converted exactly where FP32 holds it, else rounded to nearest even. -/
def f32OfInt (i : Int) : W32 := rne32 (ofInt i)

/-- Whether an FP32 encoding is NaN or infinite. -/
def f32NonFinite (w : W32) : Bool := fld w 30 23 == 255

/-! ## Conversions to integers (R183) -/

/-- A value rounded to an integer and kept within a range; NaN is 0. -/
def toIntClamped (r : RMode) (lo hi : Int) (v : Val) : Int :=
  match v with
  | .nan => 0
  | .inf s => if s then lo else hi
  | .fin s n e =>
    let k := (roundTo r s n e 0 : Int)
    max lo (min hi (if s then -k else k))

/-! ## Measured quantities as FP32 (R565) -/

/-- The rational number an FP32 encoding of a finite value is. -/
def ratOf (w : W32) : Option ℚ :=
  match f32 w with
  | .fin s n e =>
    let q : ℚ := if 0 ≤ e then ((n * 2 ^ e.toNat : Nat) : ℚ) else mkRat n (2 ^ (-e).toNat)
    some (if s then -q else q)
  | _ => none

/-- The rational number of an FP32 object, zero for a special. -/
def ratBits (n : Nat) : ℚ := (ratOf (BitVec.ofNat 32 n)).getD 0

/-- A non-negative quotient rounded to nearest even as FP32. -/
def f32OfFrac (neg : Bool) (p q : Nat) : W32 :=
  if p = 0 ∨ q = 0 then BitVec.ofNat 32 (signBit .fp32 neg)
  else
    let l0 : Int := (Nat.log2 p : Int) - (Nat.log2 q : Int)
    let below := if 0 ≤ l0 then decide (p < q * 2 ^ l0.toNat) else decide (p * 2 ^ (-l0).toNat < q)
    let l := if below then l0 - 1 else l0
    let b := max (-126) (min 127 l)
    let s := b - 23
    let num := if 0 ≤ s then p else p * 2 ^ (-s).toNat
    let den := if 0 ≤ s then q * 2 ^ s.toNat else q
    let k := num / den
    let rem := num % den
    let k' := if den < 2 * rem ∨ (2 * rem = den ∧ k % 2 = 1) then k + 1 else k
    if b = 127 ∧ 2 ^ 24 - 1 < k' then BitVec.ofNat 32 (infOf .fp32 neg)
    else BitVec.ofNat 32 ((b + 126).toNat * 2 ^ 23 + k' + signBit .fp32 neg)

/-- A rational number rounded to nearest even as FP32. -/
def f32OfRat (x : ℚ) : W32 := f32OfFrac (decide (x < 0)) x.num.natAbs x.den

end Sys2Proof.Machine
end

