-- ==== Sys2Proof/Machine/Atomics.lean ====
section
/-!
DEFINITION. Atomic operations (R90-R92, R122) and the element operations of the accumulate units (R271-R275, R398).
-/

namespace Sys2Proof.Machine

/-- Bytes of an atomic type: U32, I32, F32 4, U64, I64 8 (R90). -/
def atomBytes (aty : Nat) : Nat := if aty = 2 ∨ aty = 3 then 8 else 4

/-- Whether an operation and a type form a pair that R90 allows. -/
def atomPairOk (aop aty : Nat) : Bool :=
  decide (aop ≤ 9) && decide (aty ≤ 4) && (aty != 4 || [0, 1, 2, 6, 7].contains aop)

/-- The new value of a location: operation, type, old value, operand, compare value. -/
def atomNew (aop aty old x cmp : Nat) : Nat :=
  let n := 8 * atomBytes aty
  let signed := aty == 1 || aty == 3
  if aty = 4 then
    let o := BitVec.ofNat 32 old
    let y := BitVec.ofNat 32 x
    (match aop with
     | 0 => (fadd o y).toNat
     | 1 => (fmin o y).toNat
     | 2 => (fmax o y).toNat
     | 6 => x
     | _ => if old = cmp then x else old)
  else match aop with
    | 0 => (old + x) % 2 ^ n
    | 1 => if signed then (if sext n x < sext n old then x else old) else Nat.min old x
    | 2 => if signed then (if sext n old < sext n x then x else old) else Nat.max old x
    | 3 => Nat.land old x
    | 4 => Nat.lor old x
    | 5 => Nat.xor old x
    | 6 => x
    | 7 => if old = cmp then x else old
    | 8 => Config.incWrap old x % 2 ^ n
    | _ => Config.decWrap old x % 2 ^ n

/-- One lane's part of a merged atomic: lane, operand, compare value. -/
structure AtomArg where
  lane : Nat
  x : Nat
  cmp : Nat
  deriving DecidableEq, Repr

/-- The lanes' operands applied one after another to a value: the values returned, in order, and the last value
(R91, R92). -/
def atomFold (aop aty : Nat) : Nat → List AtomArg → List (Nat × Nat) × Nat
  | old, [] => ([], old)
  | old, p :: ps =>
    let r := atomFold aop aty (atomNew aop aty old p.x p.cmp) ps
    ((p.lane, old) :: r.1, r.2)

/-- Bytes that one lane's operands take in a packet: the operand, and for CAS the compare value. -/
def argBytes (aop aty : Nat) : Nat := if aop = 7 then 2 * atomBytes aty else atomBytes aty

/-- The operands of a merged atomic's lanes after the first, as its packet's payload carries them (DESIGN CHOICE, log
entry 10: R373 gives the header one operand). -/
def packArgs (aop aty : Nat) (ps : List AtomArg) : Bytes :=
  ps.flatMap (fun p => leBytes (atomBytes aty) p.x ++ (if aop = 7 then leBytes (atomBytes aty) p.cmp else []))

/-- The operands that a payload carries, numbered from 1. -/
def unpackArgs (aop aty : Nat) (bs : Bytes) : List AtomArg :=
  let k := argBytes aop aty
  let n := atomBytes aty
  (List.range (bs.length / k)).map (fun i =>
    { lane := i + 1, x := leNat ((bs.drop (k * i)).take n),
      cmp := if aop = 7 then leNat ((bs.drop (k * i + n)).take n) else 0 })

/-- All operands of an atomic: the header's as number 0, then the payload's. -/
def argsOf (aop aty : Nat) (x cmp : W64) (bs : Bytes) : List AtomArg :=
  { lane := 0, x := x.toNat % 2 ^ (8 * atomBytes aty), cmp := cmp.toNat % 2 ^ (8 * atomBytes aty) } :: unpackArgs aop aty bs

/-- A merged atomic on a location of data memory: status, values returned, device. -/
def atomMem (aop aty a : Nat) (args : List AtomArg) (d : Dev) : Status × List (Nat × Nat) × Dev :=
  let n := atomBytes aty
  let r := readMem d a n
  if r.1 ≠ ST.ok then (r.1, [], reach a n d)
  else
    let f := atomFold aop aty (leNat r.2) args
    let w := writeMem a (leBytes n f.2) d
    if w.1 ≠ ST.ok then (w.1, [], reach a n d) else (ST.ok, f.1, w.2)

/-- A merged atomic on a word of control space. -/
def atomCtl (who : Agent) (aop aty a : Nat) (args : List AtomArg) (d : Dev) : Status × List (Nat × Nat) × Dev :=
  if ctlAtomicOk a aop aty then
    let r := ctlLoad d a 8
    if r.1 ≠ ST.ok then (r.1, [], d)
    else
      let f := atomFold aop aty r.2 args
      let w := ctlStore who a 8 f.2 d
      if w.1 ≠ ST.ok then (w.1, [], d) else (ST.ok, f.1, w.2)
  else (ST.access, [], d)

/-- A merged atomic on any local location. -/
def atomLocal (who : Agent) (aop aty a : Nat) (args : List AtomArg) (d : Dev) : Status × List (Nat × Nat) × Dev :=
  if inControl a then atomCtl who aop aty a args d else atomMem aop aty a args d

/-! ## Element operations of the accumulate units (R271, R398) -/

/-- Operand and target element sizes of a code; none where it is undefined (R309, R398). RUN is no element operation. -/
def accSizes (code : Nat) : Option (Nat × Nat) :=
  match code with
  | 0x01 => some (4, 4) | 0x02 => some (8, 8) | 0x03 => some (4, 4) | 0x04 => some (2, 4) | 0x05 => some (2, 4)
  | 0x06 => some (4, 4) | 0x07 => some (4, 4)
  | 0x12 => some (1, 1) | 0x13 => some (1, 1) | 0x14 => some (2, 4) | 0x15 => some (2, 4)
  | 0x16 => some (4, 4) | 0x17 => some (4, 4)
  | _ => none

/-- A BF16 or FP16 element widened exactly to FP32. -/
def widen (f : Fmt) (x : Nat) : W32 := rne32 (decode f x)

/-- One element: the new target value from the old one and the operand. -/
def accElem (code old x : Nat) : Nat :=
  let o := BitVec.ofNat 32 old
  match code with
  | 0x01 => (old + x) % 2 ^ 32
  | 0x02 => (old + x) % 2 ^ 64
  | 0x03 => (fadd o (BitVec.ofNat 32 x)).toNat
  | 0x04 => (fadd o (widen .bf16 x)).toNat
  | 0x05 => (fadd o (widen .fp16 x)).toNat
  | 0x06 => (fmax o (BitVec.ofNat 32 x)).toNat
  | 0x07 => (fmin o (BitVec.ofNat 32 x)).toNat
  | 0x14 => (widen .bf16 x).toNat
  | 0x15 => (widen .bf16 x).toNat
  | _ => x

/-- Controller of the place that serves a granule, 0 to 11 (R268). -/
def controllerOf (m : MemState) (g : Nat) : Nat := pcOf (256 * physGranule m g) / 32

/-- The accumulate unit that serves a line: that of its controller; for the CXL window the first of the three units of its
slice's base die (R275 names the base die alone, log entry 118). -/
def accUnit (m : MemState) (l : Nat) : Nat :=
  if 64 * l < reserveEnd then controllerOf m (l / 4) else 3 * (sliceOf (64 * l) / 64)

/-- An accumulate reaches a line: applied to the slice's copy, or held in the unit's combining queue of 64 lines, the one
without an accumulate for longest written back to make room (R273). -/
def queueLine (l : Nat) (m : MemState) : MemState :=
  if inLlc m l then m
  else if queued m l then
    { m with combining := m.combining.filter (fun x => x.line == l) ++ m.combining.filter (fun x => x.line != l) }
  else
    let mine := fun (x : QueueLine) => accUnit m x.line == accUnit m l
    let kept := if (m.combining.filter mine).length < 64 then m.combining
                else dropLast1 (fun x => mine x && !pinned m x.line) m.combining
    if (kept.filter mine).length < 64 then { m with combining := { line := l, below := behind m l } :: kept } else m

/-- One element applied at an address: not applied to a poisoned line (R275). A slot code is a write. -/
def accOne (code a x : Nat) (d : Dev) : Status × Dev :=
  match accSizes code with
  | none => (ST.invalid, d)
  | some (_, t) =>
    let d := reach a t d
    if poisonAt d a then (ST.poison, d)
    else
      let old := leNat (bytesAt d a t)
      if writeBarred d a then (ST.poison, d)
      else
        let (p, d) := writePlace d a false
        writePiece a (leBytes t (accElem code old x)) { d with mem := queueLine (p / 64) d.mem }

/-- The elements of an operand applied in ascending order from an address; the first status that is not ST_OK. -/
def accElems (code o t : Nat) : Nat → Nat → Bytes → Dev → Status × Dev
  | 0, _, _, d => (ST.ok, d)
  | n + 1, a, bs, d =>
    let r := accOne code a (leNat (bs.take o)) d
    let r2 := accElems code o t n (a + t) (bs.drop o) r.2
    (firstBad r.1 r2.1, r2.2)

/-- An accumulate of whole elements at a local address: poisoned lines keep their poison, the others receive their
elements (R275). -/
def accumulate (code a : Nat) (operand : Bytes) (d : Dev) : Status × Dev :=
  match accSizes code with
  | none => (ST.invalid, d)
  | some (o, t) =>
    let n := operand.length / o
    if a % t ≠ 0 ∨ operand.length % o ≠ 0 then (ST.invalid, d)
    else
      let st := writeStatus d a (n * t)
      if st ≠ ST.ok then (st, d) else accElems code o t n a operand d

end Sys2Proof.Machine
end

