-- ==== Sys2Proof/Machine/Operands.lean ====
section
/-!
DEFINITION. Thread groups: which lanes issue (R75, R79-R81), register and predicate operands and their legality
(R74, R76, R77), group faults (R102), and the one way an instruction issues.
-/

namespace Sys2Proof

/-! ## Modifiers of the instruction word (R73, R77) -/

/-- IMM as bits. -/
def Fields.immFld (f : Fields) (hi lo : Nat) : Nat := fld f.imm hi lo

/-- BIMM (R77). -/
def Fields.bimm (f : Fields) : Bool := bit f.imm 15

/-- Integer type code (R77). -/
def Fields.ity (f : Fields) : Nat := f.immFld 14 12

/-- Registers of an integer operand: two for a 64-bit type. -/
def Fields.iregs (f : Fields) : Nat := if 2 ≤ f.ity then 2 else 1

/-- Modifiers of the integer class other than SETP: a defined type, and IMM[11:0] zero unless BIMM is set. -/
def Fields.intImmOk (f : Fields) : Bool := decide (f.ity ≤ 3) && (f.bimm || f.immFld 11 0 == 0)

/-- Modifiers of the FP32 class other than FSETP. -/
def Fields.fpImmOk (f : Fields) : Bool := f.immFld 14 12 == 0 && (f.bimm || f.immFld 11 0 == 0)

/-- Modifiers of SETP: no BIMM, a defined type, reserved bits zero. -/
def Fields.setpImmOk (f : Fields) : Bool :=
  !f.bimm && decide (f.ity ≤ 3) && f.immFld 11 11 == 0 && f.immFld 4 0 == 0

/-- Modifiers of FSETP. -/
def Fields.fsetpImmOk (f : Fields) : Bool :=
  !f.bimm && f.immFld 14 12 == 0 && f.immFld 11 11 == 0 && f.immFld 4 0 == 0

end Sys2Proof

namespace Sys2Proof.Machine

/-! ## Finding and changing a group -/

def findBlock (d : Dev) (grid no : Nat) : Option Block := d.blocks.find? (fun b => b.grid == grid && b.no == no)

def findGroup (d : Dev) (w : Where) : Option (Block × Group) :=
  match findBlock d w.grid w.block with
  | none => none
  | some b =>
    match b.groups[w.group]? with
    | none => none
    | some g => some (b, g)

/-- A list with its element at an index changed. -/
def lmod {α : Type} (f : α → α) : List α → Nat → List α
  | [], _ => []
  | a :: l, 0 => f a :: l
  | a :: l, i + 1 => a :: lmod f l i

/-- A list with each element changed by its index, counted from i. -/
def lmapiFrom {α : Type} (f : Nat → α → α) : Nat → List α → List α
  | _, [] => []
  | i, a :: l => f i a :: lmapiFrom f (i + 1) l

/-- A list with each element changed by its index. -/
def lmapi {α : Type} (f : Nat → α → α) (l : List α) : List α := lmapiFrom f 0 l

/-- A resident block changed. -/
def modBlock (grid no : Nat) (f : Block → Block) (d : Dev) : Dev :=
  { d with blocks := d.blocks.map (fun b => if b.grid = grid ∧ b.no = no then f b else b) }

/-- A resident group changed. -/
def modGroup (w : Where) (f : Group → Group) (d : Dev) : Dev :=
  modBlock w.grid w.block (fun b => { b with groups := lmod f b.groups w.group }) d

/-- The lanes of a list changed, each by its number. -/
def modLanes (w : Where) (ls : List Nat) (f : Nat → Lane → Lane) (d : Dev) : Dev :=
  modGroup w (fun g => { g with lanes := lmapi (fun i l => if ls.contains i then f i l else l) g.lanes }) d

def gridOf (d : Dev) (g : Nat) : Option Grid := mfind d.grids g

def modGrid (g : Nat) (f : Grid → Grid) (d : Dev) : Dev :=
  match mfind d.grids g with
  | some x => { d with grids := mset d.grids g (f x) }
  | none => d

/-! ## Registers and predicates -/

/-- A register of a lane: 0xFF reads as zero (R74). -/
def Lane.reg (l : Lane) (r : BitVec 8) : W32 := if r = 0xFF then 0 else l.regs.getD r.toNat 0

/-- n consecutive registers as one number, the lowest register lowest (R74). -/
def Lane.wide (l : Lane) (r : BitVec 8) : Nat → Nat
  | 0 => 0
  | n + 1 => (l.reg r).toNat + 2 ^ 32 * (if r = 0xFF then 0 else Lane.wide l (r + 1) n)

/-- A register written; 0xFF discards (R74). -/
def Lane.setReg (l : Lane) (r : BitVec 8) (v : W32) : Lane :=
  if r = 0xFF then l else { l with regs := lset l.regs r.toNat v }

/-- A number written to n consecutive registers. -/
def Lane.setWide (l : Lane) (r : BitVec 8) : Nat → Nat → Lane
  | 0, _ => l
  | n + 1, v =>
    if r = 0xFF then l else Lane.setWide (l.setReg r (BitVec.ofNat 32 v)) (r + 1) n (v / 2 ^ 32)

/-- A predicate: p7 reads as true (R65). -/
def Lane.pred (l : Lane) (p : Nat) : Bool := if p = 7 then true else l.preds.getD p false

/-- A predicate written; naming p7 discards. -/
def Lane.setPred (l : Lane) (p : Nat) (v : Bool) : Lane :=
  if p = 7 then l else { l with preds := lset l.preds p v }

/-- The predicates as bits. -/
def Lane.predBits (l : Lane) : Nat := l.preds.foldr (fun b n => (if b then 1 else 0) + 2 * n) 0

/-- A lane at the start of a block (R70). -/
def Lane.fresh (regs pc : Nat) : Lane :=
  { pc, regs := List.replicate regs 0, preds := List.replicate 7 false, stack := [], st := .run, lastIssue := 0,
    yielded := none }

/-! ## Legality (R74, R76, R77) -/

/-- A register field used as n registers, with the thread's allocation. -/
def regOk (alloc : Nat) (use : BitVec 8 × Nat) : Bool :=
  use.1 == 0xFF || (decide (use.1.toNat + use.2 ≤ alloc) && use.1.toNat % use.2 == 0)

/-- Registers of a size code of loads and stores (R96). -/
def sizeRegs (s : Nat) : Nat := if s ≤ 2 then 1 else if s = 3 then 2 else 4

/-! ## Which lanes issue (R79-R81) -/

/-- Whether a lane is held by its own YIELD. -/
def heldByYield (issues : Nat) (l : Lane) : Bool :=
  match l.yielded with
  | some y => decide (issues < y + 16)
  | none => false

/-- Lanes that could issue, with their numbers. -/
def runnable (g : Group) : List (Nat × Lane) :=
  (g.lanes.zipIdx.map (fun p => (p.2, p.1))).filter (fun p => decide (p.2.st = .run))

/-- Issues since a lane last issued. -/
def waited (g : Group) (l : Lane) : Nat := g.issues - l.lastIssue

/-- Of two candidate lanes the one whose subset is selected first: one that has gone 64 issues without issuing before
any other, the one waiting longest first, else the lower program counter. -/
def selectsBefore (g : Group) (a b : Lane) : Bool :=
  let sa := decide (64 ≤ waited g a)
  let sb := decide (64 ≤ waited g b)
  if sa && sb then decide (waited g b < waited g a) || (waited g a == waited g b && decide (a.pc ≤ b.pc))
  else if sa then true
  else if sb then false
  else decide (a.pc ≤ b.pc)

/-- The best lane of a list under an order. -/
def bestLane (better : Lane → Lane → Bool) : List (Nat × Lane) → Option Lane
  | [] => none
  | [p] => some p.2
  | p :: q :: ps =>
    match bestLane better (q :: ps) with
    | none => some p.2
    | some x => if better p.2 x then some p.2 else some x

/-- The program counter that the core selects for a group. -/
def selectPc (g : Group) : Option Nat :=
  let all := runnable g
  let free := all.filter (fun p => !heldByYield g.issues p.2)
  match bestLane (selectsBefore g) free with
  | some l => some l.pc
  | none => (bestLane (fun a b => decide (a.yielded.getD 0 ≤ b.yielded.getD 0)) all).map (fun l => l.pc)

/-- The lanes of the selected subset: every runnable lane at its program counter. -/
def subsetAt (g : Group) (pc : Nat) : List Nat :=
  ((runnable g).filter (fun p => p.2.pc == pc)).map (fun p => p.1)

/-- Whether a lane's guard passes (R75). -/
def guardPasses (f : Fields) (l : Lane) : Bool := l.pred f.pred.toNat != f.pneg

/-- The issue of one instruction: its place, block, grid, program counter, subset, and the lanes that execute it. -/
structure Issue where
  w : Where
  block : Block
  group : Group
  grid : Grid
  pc : Nat
  lanes : List Nat
  act : List Nat
  deriving DecidableEq, Repr

/-- Whether a core issues nothing: its own engine or its fabric queues are being reset, or its cluster is being moved or
is marked failed (R511, R514, R518). -/
def coreFenced (d : Dev) (core : Nat) : Bool :=
  engineInReset d (0x4000 + core) || engineInReset d (0x5000 + core) || d.faults.failedClusters.contains (core / 8) ||
  d.faults.resets.any (fun r => r.tier == 2 && r.target == core / 8)

/-- What the core would issue for a group now. -/
def issueOf (d : Dev) (w : Where) (f : Fields) : Option Issue :=
  match findGroup d w, gridOf d w.grid with
  | some (b, g), some gr =>
    (match (if coreFenced d b.core then none else selectPc g) with
     | some pc =>
       let ls := subsetAt g pc
       some { w, block := b, group := g, grid := gr, pc, lanes := ls,
              act := ls.filter (fun i => guardPasses f (g.lanes.getD i (Lane.fresh 0 0))) }
     | none => none)
  | _, _ => none

/-- Lane i of the issuing group, as it was at the issue. -/
def Issue.lane (s : Issue) (i : Nat) : Lane := s.group.lanes.getD i (Lane.fresh 0 0)

/-! ## The order of issue of a core (R71) -/

/-- The resident groups of a core. -/
def coreGroups (d : Dev) (core : Nat) : List Group := (d.blocks.filter (fun b => b.core == core)).flatMap (fun b => b.groups)

/-- The place of a core's next issue in its order. -/
def nextIssue (d : Dev) (core : Nat) : Nat := (coreGroups d core).foldl (fun n g => Nat.max n g.issuedAt) 0 + 1

/-- The core's choice among groups: the one that issued least recently. Which groups are eligible rests on the steps after
which results are available, and the block's commands say it (log entry 99): a command of a group that a core issues
from is the word that it was the choice. -/
def leastRecent : List Group → Option Group
  | [] => none
  | g :: gs =>
    match leastRecent gs with
    | none => some g
    | some h => if g.issuedAt ≤ h.issuedAt then some g else some h

/-! ## Group faults (R102) -/

/-- A mask of lanes. -/
def laneMask (ls : List Nat) : Nat := ls.foldl (fun m i => Nat.lor m (2 ^ i)) 0

/-- A block ends: it leaves its core and counts as ended in its grid. -/
def endBlock (grid no : Nat) (d : Dev) : Dev :=
  modGrid grid (fun g => { g with ended := g.ended + 1 })
    { d with blocks := d.blocks.filter (fun b => !(b.grid == grid && b.no == no)) }

/-- A fault of a group of a block recorded and raised; the grid keeps its first status. DETAIL0 of EV_2420 carries the
status, and LastFaultLanes the lanes given: the whole subset that issues where an instruction faults (DESIGN CHOICE, log
entry 9). -/
def noteFault (b : Block) (st : Status) (pc : Nat) (lanes : List Nat) (d : Dev) : Dev :=
  modGrid b.grid (fun g => { g with fault := some (g.fault.getD st) })
    (raise (cdPort (b.core / 512)) 0x2420 b.core st.toNat []
      (wr OD.lastFaultStatus st.toNat (wr OD.lastFaultCore b.core (wr OD.lastFaultPC pc
        (wr OD.lastFaultLanes (laneMask lanes) (inc OD.groupFaults d))))))

/-- A group faults: the fault is recorded and raised, and its block stops. -/
def groupFault (w : Where) (st : Status) (pc : Nat) (lanes : List Nat) (d : Dev) : Dev :=
  match findBlock d w.grid w.block with
  | none => d
  | some b => endBlock w.grid w.block (noteFault b st pc lanes d)

/-- A barrier mismatch of a block counted and raised (R84, R85). DETAIL0 of EV_2421 carries 0 (DESIGN CHOICE, log entry
9). -/
def noteBarMismatch (b : Block) (d : Dev) : Dev :=
  raise (cdPort (b.core / 512)) 0x2421 b.core 0 [] (inc OD.barrierMismatches d)

/-- Fault of a group that reaches a barrier number with another count than the threads waiting there (R84). -/
def barrierFault (w : Where) (pc : Nat) (lanes : List Nat) (d : Dev) : Dev :=
  match findBlock d w.grid w.block with
  | none => d
  | some b => groupFault w ST.barrierMismatch pc lanes (noteBarMismatch b d)

/-! ## Issuing -/

/-- The subset has issued: the group counts the issue and is the latest of its core, and each of its lanes moves to the
next instruction (R71, R75). -/
def markIssued (s : Issue) (d : Dev) : Dev :=
  modGroup s.w (fun g => { g with
    issues := g.issues + 1,
    issuedAt := nextIssue d s.block.core,
    lanes := lmapi (fun i l => if s.lanes.contains i then { l with pc := l.pc + 8, lastIssue := g.issues + 1 } else l)
      g.lanes }) d

/-- The register fields an operation uses, with the registers each takes, and whether its modifiers are defined;
none where the class and operation are not (R74, R76, R77, R83-R93, R96-R98, R100, R181). -/
def opRules (cls op : Nat) (f : Fields) : Option (List (BitVec 8 × Nat) × Bool) :=
  let k := f.iregs
  let n := atomBytes (f.immFld 11 9) / 4
  let b := if f.bimm then [] else [(f.srcB, k)]
  let fb := if f.bimm then [] else [(f.srcB, 1)]
  let sz := sizeRegs (f.immFld 2 0)
  let none0 := f.imm == 0
  match cls with
  | 0 =>
    if op = 4 then some ([(f.dst, k), (f.srcA, k)] ++ b ++ [(f.srcC, k)], f.intImmOk)
    else if op = 0x0A ∨ op = 0x0E ∨ op = 0x0F then some ([(f.dst, k), (f.srcA, k)], f.intImmOk)
    else if op = 0x10 then some ([(f.srcA, k), (f.srcB, k)], f.setpImmOk)
    else if op = 0x11 ∨ op = 0x12 ∨ op = 0x13 then some ([(f.dst, k)], f.intImmOk)
    else if op ≤ 0x0D then some ([(f.dst, k), (f.srcA, k)] ++ b, f.intImmOk)
    else none
  | 1 =>
    if op = 3 then some ([(f.dst, 1), (f.srcA, 1)] ++ fb ++ [(f.srcC, 1)], f.fpImmOk)
    else if op = 6 ∨ op = 7 then some ([(f.dst, 1), (f.srcA, 1)], f.fpImmOk)
    else if op = 8 then some ([(f.srcA, 1), (f.srcB, 1)], f.fsetpImmOk)
    else if op ≤ 5 then some ([(f.dst, 1), (f.srcA, 1)] ++ fb, f.fpImmOk)
    else none
  | 2 =>
    if op = 0 then
      some ([(f.dst, 1), (f.srcA, 1)] ++ (if bit f.imm 12 then [(f.srcB, 1)] else []) ++
          (if f.immFld 10 8 = 4 then [(f.srcC, 1)] else []),
        !([5, 6, 0xB, 0xE, 0xF].contains (f.immFld 3 0)) && !([5, 6, 0xB, 0xE, 0xF].contains (f.immFld 7 4)) &&
          decide (f.immFld 10 8 ≤ 4) && f.immFld 15 13 == 0)
    else if 0x10 ≤ op ∧ op ≤ 0x15 then some ([(f.dst, 1), (f.srcA, 1)], none0)
    else none
  | 3 =>
    if op = 0 then some ([(f.dst, 1), (f.srcA, 1)], none0)
    else if op = 1 then some ([(f.dst, 1)], true)
    else if op = 2 then some ([(f.dst, 1)], decide (f.immFld 7 0 ≤ 0x0A) && f.immFld 15 8 == 0)
    else if op = 3 then some ([], none0)
    else none
  | 4 =>
    let m := decide (f.immFld 2 0 ≤ 4) && f.immFld 15 3 == 0
    if op = 0 then some ([(f.dst, sz), (f.srcA, 1)], m)
    else if op = 1 then some ([(f.srcA, 1), (f.srcB, sz)], m)
    else if op = 2 then some ([(f.dst, sz), (f.srcA, 2)], m)
    else if op = 3 then some ([(f.srcA, 2), (f.srcB, sz)], m)
    else none
  | 5 =>
    let m := atomPairOk (f.immFld 15 12) (f.immFld 11 9) && f.immFld 6 0 == 0
    let c := if f.immFld 15 12 = 7 then [(f.srcC, n)] else []
    if op = 0 then some ([(f.dst, n), (f.srcA, 1), (f.srcB, n)] ++ c, m)
    else if op = 1 then some ([(f.dst, n), (f.srcA, 2), (f.srcB, n)] ++ c, m)
    else none
  | 6 => if op = 0 then some ([], decide (f.immFld 3 2 ≤ 2) && f.immFld 15 4 == 0) else none
  | 7 =>
    if op = 0 ∨ op = 2 then some ([], true)
    else if op = 1 then some ([(f.srcA, 2)], none0)
    else if op ≤ 6 then some ([], none0)
    else none
  | 8 => if op ≤ 1 then some ([(f.srcA, 1)], f.immFld 15 4 == 0) else none
  | 9 => if op = 0 then some ([(f.dst, 1), (f.srcA, 1), (f.srcB, 1)], decide (f.immFld 13 11 ≤ 5) && f.immFld 7 5 == 0)
         else none
  | 0xA =>
    if op ≤ 2 then some ([(f.srcA, 1)], f.immFld 15 11 == 0 && f.immFld 7 0 == 0)
    else if op ≤ 4 then some ([(f.dst, 1), (f.srcA, 1)], none0)
    else none
  | 0xB => if op = 0 then some ([(f.dst, 1), (f.srcA, 2)], f.immFld 15 4 == 0) else none
  | 0xC => if op = 0 then some ([(f.dst, 1), (f.srcA, 2)], f.immFld 15 4 == 0) else none
  | 0xD => if op = 0 then some ([(f.dst, 1), (f.srcA, 2)], f.immFld 15 2 == 0) else none
  | 0xE =>
    if op = 0 then some ([(f.srcA, 1)], f.immFld 15 4 == 0)
    else if op = 1 then some ([(f.srcA, 1), (f.srcB, 1)], none0)
    else none
  | _ => none

/-- Whether an operation is legal for a thread with an allocation. -/
def opLegal (cls op : Nat) (f : Fields) (alloc : Nat) : Bool :=
  match opRules cls op f with
  | some r => r.2 && r.1.all (regOk alloc)
  | none => false

/-! ### Remote accesses that have not returned (R72, R115, R123) -/

/-- Whether two register ranges share a register; 0xFF is none. -/
def regsMeet (r : BitVec 8) (n : Nat) (q : BitVec 8) (m : Nat) : Bool :=
  r != 0xFF && q != 0xFF && decide (r.toNat < q.toNat + m) && decide (q.toNat < r.toNat + n)

/-- The registers that an operation reads or writes: those of `opRules`, and for PMOV, whose operands are open, DST and
SRC_A. -/
def opRegs (cls op : Nat) (f : Fields) : List (BitVec 8 × Nat) :=
  if cls = 3 ∧ op = 3 then [(f.dst, 1), (f.srcA, 1)] else ((opRules cls op f).map (fun r => r.1)).getD []

/-- Whether a lane's access that has not returned keeps an instruction of that lane from issuing: one that reads or writes a
register the access fills; a fence, barrier, post, counter wait or EXIT, which orders or ends the lane's accesses; and after
an atomic, which is an acquire, any memory access (DEDUCED, log entry 108). -/
def awaitHolds (cls op : Nat) (f : Fields) (a : Await) : Bool :=
  [6, 8, 0xB, 0xC, 0xD, 0xE].contains cls || (cls == 7 && op == 4) || (a.atomic && (cls == 4 || cls == 5)) ||
  (opRegs cls op f).any (fun u => regsMeet u.1 u.2 a.reg a.regs)

/-- Whether the executing lanes have to wait for an access of their own before the instruction issues. -/
def operandsDue (cls op : Nat) (f : Fields) (s : Issue) : Bool :=
  s.group.awaits.any (fun a => s.act.contains a.lane && awaitHolds cls op f a)

/-- An instruction: the fetch at the selected program counter is checked (R82), a draining context stops its groups
(R356), then its legality is (R74, R76); then it issues, once its operands are available (R71), and has its effect on the
executing lanes. -/
def runInstr (w : Where) (f : Fields) (cls op : Nat) (effect : Issue → Dev → Dev) (d : Dev) : Dev :=
  match issueOf d w f with
  | none => d
  | some s =>
    let fs := fetchStatus d s.grid.ctx s.pc
    if fs ≠ ST.ok then groupFault w fs s.pc s.lanes d
    else if ctxRefusal d s.grid.ctx = ST.fenced then groupFault w ST.fenced s.pc s.lanes d
    else if opLegal cls op f (8 * s.grid.regs) then (if operandsDue cls op f s then d else effect s (markIssued s d))
    else groupFault w ST.invalid s.pc s.lanes d

/-- An instruction whose whole effect is on each executing lane's own registers and predicates. -/
def runLanes (w : Where) (f : Fields) (cls op : Nat) (effect : Issue → Nat → Lane → Lane) : Dev → Dev :=
  runInstr w f cls op (fun s d => modLanes w s.act (effect s) d)

/-- The first store error of a group is delivered as a fault (R118); otherwise the device goes on. An instruction that no
lane executes delivers it too: the group has issued it (DESIGN CHOICE, log entry 9). -/
def deliverStoreError (s : Issue) (go : Dev → Dev) (d : Dev) : Dev :=
  match findGroup d s.w with
  | some (_, g) =>
    (match g.storeError with
     | some st => groupFault s.w st s.pc s.lanes (inc OD.deferredStoreErrors d)
     | none => go d)
  | none => d

end Sys2Proof.Machine
end

