-- ==== Sys2Proof/Machine/Fab.lean ====
section
/-!
DEFINITION. Twizan, the parts that read the device: fields of descriptors and records, latency and lifetime terms,
ports and flow keys, the translation table, and the checks made when a descriptor is accepted (R296-R300, R307-R310,
R327-R336, R345, R355, R356, R359, R398-R400).
-/

namespace Sys2Proof.Machine

/-! ## Addresses -/

/-- Device number and local part of a global address (R286). -/
def gDev (a : Nat) : Nat := a / 2 ^ 49 % 2 ^ 15
def gLocal (a : Nat) : Nat := a % 2 ^ 49
def gAddr (dev loc : Nat) : Nat := dev * 2 ^ 49 + loc

/-! ## Descriptor fields (R307) -/

def fdOp (x : FabDesc) : Nat := fld (word x.words 0) 3 0
def fdFlag (x : FabDesc) : Bool := bit (word x.words 0) 4
def fdSize (x : FabDesc) : Nat := fld (word x.words 0) 6 5
def fdBufEn (x : FabDesc) : Bool := bit (word x.words 0) 7
def fdAop (x : FabDesc) : Nat := fld (word x.words 0) 11 8
def fdAtype (x : FabDesc) : Nat := fld (word x.words 0) 14 12
def fdAcode (x : FabDesc) : Nat := fld (word x.words 0) 23 16
def fdDstCntEn (x : FabDesc) : Bool := bit (word x.words 0) 24
def fdSrcCntEn (x : FabDesc) : Bool := bit (word x.words 0) 25
def fdPrio (x : FabDesc) : Bool := bit (word x.words 0) 26
def fdDstCnt (x : FabDesc) : Nat := fld (word x.words 0) 47 32
def fdSrcCnt (x : FabDesc) : Nat := fld (word x.words 0) 63 48
def fdDst (x : FabDesc) : Nat := (word x.words 1).toNat
def fdSrc (x : FabDesc) : Nat := (word x.words 2).toNat
def fdLen (x : FabDesc) : Nat := (word x.words 3).toNat
def fdDstBuf (x : FabDesc) : Nat := (word x.words 4).toNat
def fdSrcBuf (x : FabDesc) : Nat := (word x.words 5).toNat
def fdResult (x : FabDesc) : Nat := fld (word x.words 6) 48 0
def fdRecord (x : FabDesc) : Nat := fld (word x.words 7) 48 0

/-- The ACODE of a RUN (R398). -/
def runCode : Nat := 0x10

def isRun (x : FabDesc) : Bool := fdOp x == 3 && fdAcode x == runCode

/-- Bytes the operation acts on at DST (R309). -/
def dstExtent (x : FabDesc) : Nat :=
  match fdOp x with
  | 1 => 2 ^ fdSize x
  | 2 => atomBytes (fdAtype x)
  | 3 => if fdAcode x = runCode then 128 else
    (match accSizes (fdAcode x) with
     | some (o, t) => fdLen x / o * t
     | none => 0)
  | _ => fdLen x

/-- Bytes the operation reads at SRC (R309). -/
def srcExtent (x : FabDesc) : Nat := if fdOp x = 3 ∨ fdOp x = 4 then fdLen x else 0

/-- Whether an operand names another device (R308). -/
def remote (d : Dev) (a : Nat) : Bool := gDev a != devNo d

/-- Whether the operation is a get: a COPY whose source is remote. -/
def isGet (d : Dev) (x : FabDesc) : Bool := fdOp x == 4 && remote d (fdSrc x)

/-- Whether an operation leaves its core for a link die: a STORE, an ATOMIC or an ACCUM whatever device it names, this one
included (R287, R315), and a COPY with a remote operand; a local COPY never does (R314). -/
def leaves (d : Dev) (x : FabDesc) : Bool :=
  fdOp x == 1 || fdOp x == 2 || (fdOp x == 3 && !isRun x) || (fdOp x == 4 && (remote d (fdDst x) || remote d (fdSrc x)))

/-! ## Antler record fields (R399) and scale record fields (R198) -/

def arKind (r : List W64) : Nat := fld (word r 0) 3 0
def arOneTree (r : List W64) : Bool := bit (word r 0) 4
def arSrcBf16 (r : List W64) : Bool := bit (word r 0) 5
def arOutBf16 (r : List W64) : Bool := bit (word r 0) 6
def arFactor (r : List W64) : Bool := bit (word r 0) 7
def arN (r : List W64) : Nat := fld (word r 0) 13 8 + 1
def arPhase (r : List W64) : Nat := fld (word r 0) 19 14
def arGroup (r : List W64) : Nat := fld (word r 0) 31 20
def arChunks (r : List W64) : Nat := fld (word r 0) 41 32 + 1
def arRoot (r : List W64) : Nat := fld (word r 0) 56 42
def arOut (r : List W64) : Nat := fld (word r 1) 48 0
def arSlots (r : List W64) : Nat := fld (word r 2) 48 0
def arLacc (r : List W64) : Nat := fld (word r 3) 48 0
def arScale (r : List W64) : Nat := fld (word r 4) 48 0
def arMark (r : List W64) : Nat := fld (word r 5) 48 0
def arCnt (r : List W64) : Nat := fld (word r 6) 15 0

/-- Bytes of an element of SRC_FMT: the operand of a RUN, to which SRC and LEN are aligned (R310, R398). -/
def arSrcBytes (r : List W64) : Nat := if arSrcBf16 r then 2 else 4

/-- Whether a reserved field of an Antler record is non-zero; device-maintained fields may hold anything. -/
def arReserved (r : List W64) : Bool :=
  fld (word r 0) 63 57 != 0 || fld (word r 1) 63 49 != 0 || fld (word r 2) 63 49 != 0 || fld (word r 3) 63 49 != 0 ||
  fld (word r 4) 63 49 != 0 || fld (word r 5) 63 49 != 0 || fld (word r 6) 63 16 != 0 ||
  [7, 8, 9, 10, 11, 15].any (fun i => word r i != 0) || fld (word r 12) 63 40 != 0 || fld (word r 13) 63 3 != 0

/-- Wire of a RUN (R407): 0 native, 1 BF16, 2 FP32, from the group's wire and FACTOR. -/
def runWire (g : GroupRec) (r : List W64) : Nat := if g.wire = 0 ∧ arFactor r then 1 else g.wire

def srMode (w : W64) : Nat := fld w 1 0
def srClass (w : W64) : Nat := fld w 3 2
def srHm2 (w : W64) : Bool := bit w 4
def srFmt (w : W64) : Nat := fld w 11 8

/-- Blocks of a RUN and of a tree (R397). BROADCAST and ALL_GATHER count bytes as elements. -/
def runElems (x : FabDesc) (r : List W64) : Nat :=
  if 4 ≤ arKind r then fdLen x else if arSrcBf16 r then fdLen x / 2 else fdLen x / 4
def runBlocks (x : FabDesc) (r : List W64) : Nat := (runElems x r + 31) / 32
def treeBlocks (x : FabDesc) (r : List W64) (t : Nat) : Nat :=
  let nb := runBlocks x r
  if arOneTree r then nb else if t = 0 then (nb + 1) / 2 else nb - (nb + 1) / 2
/-- First block of a tree. -/
def treeFirst (x : FabDesc) (r : List W64) (t : Nat) : Nat := if t = 0 then 0 else (runBlocks x r + 1) / 2
def treeCount (r : List W64) : Nat := if arOneTree r then 1 else 2

/-- Slot and wire element sizes (R402). -/
def slotBytes (wire : Nat) : Nat := if wire = 0 then 1 else 4
def wireBytes (wire : Nat) : Nat := if wire = 0 then 1 else if wire = 1 then 2 else 4

/-- Bytes of a tree's part of the slot area: regions L and R at e_s, U and V at e_w. -/
def treePart (x : FabDesc) (r : List W64) (wire t : Nat) : Nat :=
  64 * treeBlocks x r t * (slotBytes wire + wireBytes wire)

/-- Bytes of the result a member writes at OUT. -/
def outBytes (x : FabDesc) (r : List W64) (n rank : Nat) : Nat :=
  let e := runElems x r
  let o := if arOutBf16 r then 2 else 4
  match arKind r with
  | 1 => e * o
  | 2 => ((rank + 1) * e / n - rank * e / n) * o
  | 3 => e * o
  | 4 => fdLen x
  | _ => n * fdLen x

/-! ## Latency and lifetime terms, in ns (R47, R48, R334-R336, R345, R355, R356) -/

/-- t_step_max, none before the first measurement. -/
def tStepMax (d : Dev) : Option ℚ := ratOf (BitVec.ofNat 32 (rd d OD.stepMax))

def tSwitch (d : Dev) (i : Nat) : ℚ := ratBits (rd d (OD.switchStageTime + i - 1))

/-- Switches and hops of the longest path of a topology class (R327). -/
def nSwitches (c : Nat) : Nat := match c with | 0 => 0 | 1 => 1 | 2 => 3 | _ => 5
def nHops (c : Nat) : Nat := match c with | 0 => 1 | 1 => 2 | 2 => 4 | _ => 6
def sMax (d : Dev) (c : Nat) : ℚ :=
  match c with
  | 0 => 0
  | 1 => tSwitch d 1
  | 2 => 2 * tSwitch d 1 + tSwitch d 2
  | _ => 2 * tSwitch d 1 + 2 * tSwitch d 2 + tSwitch d 3

/-- W_max. -/
def wMax (d : Dev) : ℚ :=
  let c := rd d OD.topologyClass
  95 * (nHops c : ℚ) + 5 * (rd d OD.fibreMax : ℚ) + sMax d c

def lEnd (t : ℚ) : ℚ := 420 * t
def lHbm (t : ℚ) : ℚ := 210 * t + 85
def lLlc (t : ℚ) : ℚ := 60 * t

/-- T_rt, none before t_step_max is measured. -/
def tRoundTrip (d : Dev) : Option ℚ := (tStepMax d).map (fun t => lEnd t + lHbm t + 2 * wMax d)

/-- T_life in ns. -/
def tLifeNs (d : Dev) : Nat := (nSwitches (rd d OD.topologyClass) + 2) * 60000 + rd d OD.fibreMax * 5
/-- T_life in whole µs, rounded up (log entry 13). -/
def tLifeUs (d : Dev) : Nat := (tLifeNs d + 999) / 1000

/-- T_retry in µs. -/
def tRetry (d : Dev) : Nat := (rd d OD.retryLimit + 1) * rd d OD.txTimeout

/-- A time in ns as whole µs, rounded up. -/
def ceilUs (x : ℚ) : Nat := (⌈x / 1000⌉).toNat

/-- T_drain in µs, rounded up. -/
def tDrain (d : Dev) : Nat :=
  match tRoundTrip d with
  | some r => ceilUs (2 * r) + tRetry d
  | none => tRetry d

/-- DrainTime as its object reads: the largest value while t_step_max is unmeasured (R362, R567). -/
def drainReads (d : Dev) : Nat := if (tRoundTrip d).isSome then tDrain d else 2 ^ 32 - 1

/-- W_dst, the credit window (R337). -/
def wDst (d : Dev) : Nat := Nat.max 2 (Nat.min 64 (2 ^ 24 / (rd d OD.memorySpaceDevices * 256)))

/-! ## Peers, ports and flow keys (R328-R333, R358) -/

/-- Generation held for a device, 0 unknown. -/
def peerGen (d : Dev) (dev : Nat) : Nat :=
  nfld ((rdFull d OD.peerGenerations).getD (dev / 4) 0).toNat (2 * (dev % 4) + 1) (2 * (dev % 4))

def setPeerGen (dev g : Nat) (d : Dev) : Dev :=
  let b := rdFull d OD.peerGenerations
  let old := (b.getD (dev / 4) 0).toNat
  let cleared := old - nfld old (2 * (dev % 4) + 1) (2 * (dev % 4)) * 2 ^ (2 * (dev % 4))
  wrBytes OD.peerGenerations (lset b (dev / 4) (BitVec.ofNat 8 (cleared + g % 4 * 2 ^ (2 * (dev % 4))))) d

/-- Packet payload toward a device (R359). -/
def payloadOf (d : Dev) (dev : Nat) : Nat := match peerGen d dev with | 1 => 64 | 2 => 128 | _ => 256

/-- Credits toward a device: 16 for P1, the window it stated for P2, W_dst otherwise (R359). -/
def creditOf (d : Dev) (dev : Nat) : Nat :=
  match peerGen d dev with
  | 1 => 16
  | 2 => mget (wDst d) d.tw.windows dev
  | _ => wDst d

def portState (d : Dev) (p : Nat) : Nat := rd d (OD.portState + p)
def portUp (d : Dev) (p : Nat) : Bool := nfld (portState d p) 2 0 == 2 || nfld (portState d p) 2 0 == 3
def portPeer (d : Dev) (p : Nat) : Nat := nfld (portState d p) 30 16
def portGen (d : Dev) (p : Nat) : Nat := nfld (portState d p) 6 5

/-- The ports that are up and reach a device, ascending: U of R332. -/
def portsTo (d : Dev) (dev : Nat) : List Nat :=
  (List.range 32).filter (fun p => portUp d p &&
    (if rd d OD.topologyClass = 0 then portPeer d p == dev && decide (dev ≠ devNo d)
     else (mget 0 d.tw.planes dev).testBit p))

/-- The flow key of R332. -/
def flowKey (slot dev loc attempt : Nat) : Nat :=
  let a := loc / 256
  Nat.xor (Nat.xor (Nat.xor slot dev) (Nat.xor (nfld a 15 0) (nfld a 31 16)))
    (Nat.xor (nfld a 40 32) (attempt * 2 ^ 13)) % 2 ^ 16

/-- The port a packet leaves on. -/
def choosePort (d : Dev) (slot dev loc attempt : Nat) : Option Nat :=
  let u := portsTo d dev
  if u.length = 0 then none else u[flowKey slot dev loc attempt % u.length]?

/-! ## The translation table (R296-R300) -/

/-- Bits of a page's offset. -/
def pageBits (size : Nat) : Nat := match size with | 0 => 16 | 1 => 21 | _ => 30

/-- The entry of a context that an address matches. -/
def fttLookup (t : List FttEntry) (ctx a : Nat) : Option FttEntry :=
  t.find? (fun e => e.ctx == ctx && a / 2 ^ pageBits e.size == e.key * 65536 / 2 ^ pageBits e.size)

/-- The global address a byte reaches. -/
def fttTranslate (t : List FttEntry) (ctx a : Nat) : Option Nat :=
  (fttLookup t ctx a).map (fun e => e.tgt * 65536 + a % 2 ^ pageBits e.size)

/-- The first byte of an extent whose page is not granted. -/
def fttDenied (t : List FttEntry) (ctx : Nat) (right : FttEntry → Bool) (a n : Nat) : Option Nat :=
  if n = 0 then none else
  (List.range ((a + n - 1) / 65536 + 1 - a / 65536)).findSome? (fun i =>
    let p := Nat.max a (65536 * (a / 65536 + i))
    match fttLookup t ctx p with
    | some e => if right e then none else some p
    | none => some p)

/-- The set of an entry (R299). -/
def fttSet (e : FttEntry) : Nat :=
  let p := e.key / 2 ^ (pageBits e.size - 16)
  Nat.xor (Nat.xor (nfld p 17 0) (nfld p 35 18)) (Nat.xor (nfld p 47 36) (Nat.xor (e.ctx * 2 ^ 12) (e.size * 2 ^ 16)))
    % 2 ^ 18

/-- Whether two entries of one context name overlapping pages. -/
def fttOverlap (e f : FttEntry) : Bool :=
  e.ctx == f.ctx && overlaps (e.key * 65536) (2 ^ pageBits e.size) (f.key * 65536) (2 ^ pageBits f.size)

/-- Same context, size and page. -/
def fttSame (e f : FttEntry) : Bool := e.ctx == f.ctx && e.size == f.size && e.key == f.key

/-- The table that a link die checks against: while a command is pending, either the old or the new one (R302): a free
value says which. -/
def fttView (d : Dev) : List FttEntry × Dev :=
  match d.tw.fttPending with
  | none => (d.tw.ftt0, d)
  | some p => (if bit (freeBits d) 0 then p.newTable else d.tw.ftt0, drew d)

/-! ## Limits of older generations (R359) -/

/-- Whether a page reached at a target breaks a limit of its generation. -/
def peerBreaks (d : Dev) (x : FabDesc) (tgt : Nat) (count : Bool) : Bool :=
  let dev := gDev tgt
  let c := rd d OD.topologyClass
  match peerGen d dev with
  | 1 => decide (1023 < dev) || decide (1 < c) || decide (2 ^ 40 ≤ gLocal tgt) ||
         (count && decide (4095 < fdDstCnt x)) || (fdOp x == 3 && fdAcode x != 3)
  | 2 => decide (8191 < dev) || decide (2 < c) || decide (2 ^ 44 ≤ gLocal tgt) ||
         (fdOp x == 3 && !([1, 2, 3, 4, 5, 0x14, 0x15, 0x16, 0x17].contains (fdAcode x)))
  | _ => false

/-! ## Acceptance (R310, R400) -/

/-- Whether a local range passes the end of the usable HBM range or the CXL window that holds its base, or bit 48. -/
def passesRange (a n : Nat) : Bool :=
  match zone a with
  | .hbm => decide (hbmEnd < a + n)
  | .cxl => decide (0x200000000000 < a + n)
  | _ => decide (2 ^ 49 < a + n)

/-- Whether the map of every device has the bytes of a local part: none in an unmapped range or in the HBM reserve (R255,
R288). -/
def mapped (a n : Nat) : Bool :=
  n == 0 || (zone a != .unmapped && zone a != .reserve && zone a == zone (a + n - 1))

/-- Whether a local operand may be named: inside usable HBM or the CXL window, and granted (R310 4). -/
def localOk (d : Dev) (ctx : Nat) (k : Need) (a n : Nat) : Bool :=
  n == 0 || (spaceStatus d a n == ST.ok && grantedFor d ctx k a n)

/-- Reserved fields, undefined codes, alignment: check 1 of R310. -/
def fabMalformed (d : Dev) (addr : Nat) (x : FabDesc) : Bool :=
  let op := fdOp x
  let own := devNo d
  addr % 64 != 0 ||
  bit (word x.words 0) 15 || fld (word x.words 0) 31 27 != 0 ||
  (op == 0 || decide (4 < op)) ||
  (fdFlag x && op != 1) ||
  (op == 2 && !atomPairOk (fdAop x) (fdAtype x)) ||
  (op == 3 && (accSizes (fdAcode x)).isNone && fdAcode x != runCode) ||
  (op == 3 && gDev (fdSrc x) != own) ||
  (op == 4 && gDev (fdSrc x) != own && gDev (fdDst x) != own) ||
  (op == 1 && fdDst x % 2 ^ fdSize x != 0) ||
  (op == 2 && fdDst x % atomBytes (fdAtype x) != 0) ||
  (op == 3 && (match accSizes (fdAcode x) with
    | some (o, t) => fdDst x % t != 0 || fdSrc x % o != 0 || fdLen x % o != 0
    | none => false)) ||
  (op == 1 && fdLen x != 0) || (op == 2 && fdAop x != 7 && fdLen x != 0) ||
  (op == 2 && fdResult x % 8 != 0) || fld (word x.words 6) 63 49 != 0 ||
  fdRecord x % 16 != 0 || fld (word x.words 7) 63 49 != 0

/-- Check 3 of R310. -/
def fabTooLong (x : FabDesc) : Bool :=
  (fdBufEn x && (decide (fdDstBuf x < dstExtent x) || decide (fdSrcBuf x < srcExtent x))) ||
  passesRange (gLocal (fdDst x)) (dstExtent x) ||
  ((fdOp x == 3 || fdOp x == 4) && passesRange (gLocal (fdSrc x)) (srcExtent x))

/-- Check 4 of R310: the local operands, the result and the record; and the map check of a remote operand's local part
(R288). -/
def fabDenied (d : Dev) (ctx : Nat) (x : FabDesc) : Bool :=
  let own := devNo d
  let op := fdOp x
  let need := if op = 2 ∨ op = 3 then Need.atomic else Need.store
  (gDev (fdDst x) == own && !localOk d ctx need (gLocal (fdDst x)) (dstExtent x)) ||
  ((op == 3 || op == 4) && gDev (fdSrc x) == own && !localOk d ctx Need.load (gLocal (fdSrc x)) (srcExtent x)) ||
  (remote d (fdDst x) && !mapped (gLocal (fdDst x)) (dstExtent x)) ||
  (op == 4 && remote d (fdSrc x) && !mapped (gLocal (fdSrc x)) (srcExtent x)) ||
  (op == 2 && fdResult x != 0 && !localOk d ctx Need.store (fdResult x) 8) ||
  (fdRecord x != 0 && !localOk d ctx Need.store (fdRecord x) 16)

/-- The extents of a RUN besides SRC: address, bytes, and whether LEN is checked on it (R400 4). -/
def runExtents (x : FabDesc) (r : List W64) (g : GroupRec) : List (Nat × Nat) :=
  let wire := runWire g r
  let t := treeCount r
  [(gLocal (fdDst x), 128), (arOut r, outBytes x r g.members.length g.rank)] ++
  (if 1 < arN r then [(arLacc r, 4 * runElems x r)] else []) ++
  (if arKind r < 4 then
    [(arSlots r, treePart x r wire 0 + (if t = 2 then treePart x r wire 1 else 0))] else []) ++
  (if wire = 0 ∧ arKind r < 4 then [(arMark r, t * 1081344), (arScale r, 160)] else [])

/-- The checks of R400 on a RUN whose record has been read, in their order after those of R310's step 1. -/
def runRefusal (d : Dev) (ctx : Nat) (x : FabDesc) (r : List W64) : Status :=
  let g := mfind d.seq.groups (arGroup r)
  let n := (g.map (fun g => g.members.length)).getD 0
  let wire := (g.map (fun g => runWire g r)).getD 1
  let sr := wordAt d (arScale r)
  if gDev (fdDst x) ≠ devNo d ∨ fdDst x % 128 ≠ 0 ∨ arReserved r ∨ arKind r = 0 ∨ 5 < arKind r
      ∨ arN r ≤ arPhase r ∨ (1 < arN r ∧ 4 ≤ arKind r) ∨ (g.isSome ∧ (n ≤ arRoot r ∧ (arKind r = 3 ∨ arKind r = 4)))
      ∨ 65536 < arCnt r + 2 * arChunks r + 3
      ∨ (arKind r < 4 ∧ (fdSrc x % arSrcBytes r ≠ 0 ∨ fdLen x % arSrcBytes r ≠ 0))
      ∨ (g.isSome ∧ wire = 0 ∧ arKind r < 4 ∧
          (srClass sr ≠ 2 ∨ srMode sr ≠ 1 ∨ srFmt sr ≠ 3 ∨ srHm2 sr))
  then ST.invalid
  else if ctxRefusal d ctx ≠ ST.ok then ctxRefusal d ctx
  else match g with
    | none => ST.state
    | some g =>
      if g.st ≠ .admitted ∨ g.members.all (fun m => m.dev != devNo d) then ST.state
      else if g.members.any (fun m => m.gen == 1) ∧ 4096 < arCnt r + 2 * arChunks r + 3 then ST.peerLimit
      else if fabTooLong x ∨ (runExtents x r g).any (fun e => passesRange e.1 e.2) then ST.length
      else if !localOk d ctx Need.load (gLocal (fdSrc x)) (fdLen x)
          ∨ (runExtents x r g).any (fun e => !localOk d ctx ⟨true, true⟩ e.1 e.2)
          ∨ (fdRecord x ≠ 0 ∧ !localOk d ctx Need.store (fdRecord x) 16) then ST.access
      else ST.ok

/-- The descriptor as the core reads it, with the copy of its Antler record (R310, R400). -/
def readFabDesc (d : Dev) (addr ctx : Nat) (o : Origin) (step mb : Nat) : FabDesc :=
  let x : FabDesc := { words := wordsAt d addr 8, ctx, origin := o, record := [], step, mb }
  if isRun x then { x with record := wordsAt d (gLocal (fdDst x)) 16 } else x

/-- The acceptance status of a fabric descriptor: the first check that fails decides (R310, R400). A descriptor that cannot be
read is answered with the status of its read, after the checks of its address and of the context (log entry 17). -/
def fabAccept (d : Dev) (addr ctx : Nat) (x : FabDesc) : Status :=
  let seen := (readMem d addr 64).1
  if addr % 64 ≠ 0 then ST.invalid
  else if seen ≠ ST.ok then firstBad (ctxRefusal d ctx) seen
  else if fabMalformed d addr x then ST.invalid
  else if isRun x ∧ runRefusal d ctx x x.record ≠ ST.ok then runRefusal d ctx x x.record
  else if ctxRefusal d ctx ≠ ST.ok then ctxRefusal d ctx
  else if !isRun x ∧ fabTooLong x then ST.length
  else if !grantedFor d ctx Need.load addr 64 ∨ (!isRun x ∧ fabDenied d ctx x) then ST.access
  else ST.ok

def FabQueue.empty : FabQueue := { accepted := [], fails := [], lastFlag := [] }

def queueOf (d : Dev) (q : Nat) : FabQueue := mget FabQueue.empty d.tw.queues q
def setQueue (q : Nat) (x : FabQueue) (d : Dev) : Dev :=
  { d with tw := { d.tw with queues := mput FabQueue.empty d.tw.queues q x } }

/-- A descriptor queued at a fabric queue. -/
def pushDesc (q : Nat) (x : FabDesc) (d : Dev) : Dev :=
  let fq := queueOf d q
  setQueue q { fq with accepted := fq.accepted ++ [x] } d

/-- The step and micro-batch that a doorbell post is given (R432). -/
def doorbellStep (d : Dev) : Nat := rd d OD.stepNumber

def Bell.empty : Bell := { status := ST.ok, count := 0 }

/-- A post through the doorbell of a queue under a context: its status, and the status and count of stores that the
doorbell then holds (R305, R306). -/
def bellPostAs (core queue ctx addr : Nat) (o : Origin) (step mb : Nat) (d : Dev) : Status × Dev :=
  let q := 4 * core + queue
  let key := 64 * q + ctx
  let b := mget Bell.empty d.tw.bells key
  let x := readFabDesc d addr ctx o step mb
  let full := decide (64 ≤ (queueOf d q).accepted.length)
  let acc := firstBad (useAny d linkDies) (fabAccept d addr ctx x)
  let st := if acc ≠ ST.ok then acc else if full then ST.state else ST.ok
  let d1 := if st = ST.ok then pushDesc q x d
    else if acc = ST.ok then raise (cdPort (core / 512)) 0x3003 core 0 [] (inc OD.doorbellRefusals d)
    else d
  (st, { d1 with tw := { d1.tw with bells := mset d1.tw.bells key { status := st, count := (b.count + 1) % 2 ^ 48 } } })

/-- A post by a host or a processor. -/
def bellPost (core queue ctx addr : Nat) (d : Dev) : Dev :=
  (bellPostAs core queue ctx addr .doorbell (doorbellStep d) 0xFFFF d).2

/-- Queue and context that a doorbell address names, and its word. -/
def bellOf (a : Nat) : Nat × Nat × Nat :=
  let o := a - doorbellBase
  (o / 1024, o % 1024 / 16, o % 16)

/-- Status word of a doorbell (R305). -/
def bellRead (d : Dev) (core queue ctx : Nat) : Nat :=
  let b := mget Bell.empty d.tw.bells (64 * (4 * core + queue) + ctx)
  b.status.toNat + b.count * 2 ^ 16

end Sys2Proof.Machine
end

