-- ==== Sys2Proof/Machine/FabOps.lean ====
section
/-!
DEFINITION. Fabric operations in flight: how an operation is made and checked at its link die, how its packets are cut,
sent, lost and sent again, what a request does at its target, what a response does at its source, and the order in
which an operation completes (R303, R304, R311-R321, R332-R355, R360).
-/

namespace Sys2Proof.Machine

/-! ## Making an operation -/

/-- Bytes from an address to the next multiple of p. -/
def toMultiple (p a : Nat) : Nat := p - a % p

/-- The extent a, n cut into pieces, each as long as `room` allows at its address. -/
def cutExtent (room : Nat → Nat) : Nat → Nat → Nat → List (Nat × Nat)
  | 0, _, _ => []
  | fuel + 1, a, n =>
    if n = 0 then []
    else
      let k := Nat.min n (room a)
      (a, k) :: cutExtent room fuel (a + k) (n - k)

def PktRec.new (kind : PktKind) (dst loc len : Nat) : PktRec :=
  { kind, dst, localAddr := loc, len, st := .waiting, attempt := 0, spent := 0, firstSent := 0, lastSent := 0, port := 0,
    busyAt := none, resent := false }

/-- The packets of an operation whose pages translate under a table (R314, R317). -/
def cutPackets (d : Dev) (t : List FttEntry) (x : FabDesc) (load : Bool) : List PktRec :=
  let tr := fun a => (fttTranslate t x.ctx a).getD a
  let dst := fdDst x
  if load then [PktRec.new .read (tr (fdSrc x)) 0 (fdLen x)]
  else match fdOp x with
    | 1 => [PktRec.new .store (tr dst) 0 (2 ^ fdSize x)]
    | 2 => [PktRec.new .atomic (tr dst) 0 (atomBytes (fdAtype x))]
    | 3 =>
      if isRun x then []
      else
        (match accSizes (fdAcode x) with
         | some (o, t2) =>
           (cutExtent (fun a => toMultiple (payloadOf d (gDev (tr a))) a) (dstExtent x) dst (dstExtent x)).map
             (fun p => PktRec.new .accum (tr p.1) (gLocal (fdSrc x) + (p.1 - dst) / t2 * o) (p.2 / t2 * o))
         | none => [])
    | _ =>
      if remote d (fdSrc x) then
        (cutExtent (fun a => Nat.min (toMultiple (payloadOf d (gDev (tr (fdSrc x + (a - dst))))) a)
              (toMultiple 65536 (fdSrc x + (a - dst)))) (fdLen x) dst (fdLen x)).map
          (fun p => PktRec.new .read (tr (fdSrc x + (p.1 - dst))) (gLocal p.1) p.2)
      else if remote d dst then
        (cutExtent (fun a => toMultiple (payloadOf d (gDev (tr a))) a) (fdLen x) dst (fdLen x)).map
          (fun p => PktRec.new .write (tr p.1) (gLocal (fdSrc x) + (p.1 - dst)) p.2)
      else []

/-- The first byte of an operation whose page lacks the right it needs (R296, R298, R323). -/
def opDenied (d : Dev) (t : List FttEntry) (x : FabDesc) (load : Bool) : Option Nat :=
  let dst := fdDst x
  if load || isGet d x then fttDenied t x.ctx (fun e => e.rd) (fdSrc x) (fdLen x)
  else if leaves d x then
    let cnt := if fdDstCntEn x then fttDenied t x.ctx (fun e => e.cnt) dst 1 else none
    match cnt with
    | some a => some a
    | none => fttDenied t x.ctx (fun e => if fdOp x = 2 ∨ fdOp x = 3 then e.at_ else e.wr) dst (dstExtent x)
  else none

/-- Whether an operation has pages to check at a link die. -/
def opRemote (d : Dev) (x : FabDesc) (load : Bool) : Bool := load || leaves d x

/-- Whether DST_CNT lies at a target, where its increment is checked and sent; a get and a local copy count here (R320, R321). -/
def countsAway (d : Dev) (x : FabDesc) : Bool := fdDstCntEn x && leaves d x && !isGet d x

/-- Why the pages that an operation reaches, as translated, refuse it: an unmapped local part (R288), a limit of a target's
generation (R359). Where no byte moves the counter is checked at the page of DST (R323). -/
def targetStatus (d : Dev) (t : List FttEntry) (x : FabDesc) (pk : List PktRec) : Status :=
  let ends := if pk.isEmpty && countsAway d x then [(fttTranslate t x.ctx (fdDst x)).getD (fdDst x)] else pk.map (fun p => p.dst)
  if pk.any (fun p => !mapped (gLocal p.dst) 1) then ST.access
  else if ends.any (fun a => peerBreaks d x a (countsAway d x)) then ST.peerLimit else ST.ok

/-- A refusal for a peer's limit, counted and raised (R359). -/
def recordPeerLimit (d : Dev) : Dev := raiseRated 0x3070 1000 (ldPort 0) 0x3070 0 0 [] (inc OD.peerLimitRefusals d)

/-- A failed check recorded (R296). -/
def recordDenial (ctx a : Nat) (d : Dev) : Dev :=
  raiseRated (65536 * ctx + 0x3001) 1000 (ldPort 0) 0x3001 0 0 []
    (wr OD.lastDenialPage (a / 65536 * 65536) (wr OD.lastDenialContext ctx (inc OD.fttDenials d)))

/-- Whether the operation is sequenced: ATOMIC, ACCUM, a thread's remote ATOM (R346). A RUN sends no packet of its own. -/
def opSequenced (x : FabDesc) (load : Bool) : Bool := !load && (fdOp x == 2 || (fdOp x == 3 && !isRun x))

/-- The tag of a read, which stands where a writing operation has its sequence number; it lies in the upper half (log entry
33). -/
def readTag (id : Nat) : Nat := 2 ^ 31 + id % 2 ^ 31

/-- An operation issued from a slot: it takes the slot's next sequence number (a load takes its own number as a
tag), and its pages are checked before anything leaves (R296, R304, R359). Its number and the device. -/
def newOp (x : FabDesc) (use : OpUse) (slot : Nat) (load : Bool) (d : Dev) : Nat × Dev :=
  let id := d.tw.nextOp
  let seq := if load then readTag id else mget 0 d.tw.seqs slot
  let v := if opRemote d x load then fttView d else ([], d)
  let deny := if opRemote d x load then opDenied d v.1 x load else none
  let pk := cutPackets d v.1 x load
  let st := if deny.isSome then ST.access else targetStatus d v.1 x pk
  let d1 := v.2
  let d2 := match deny with
    | some a => recordDenial x.ctx a d1
    | none => if st = ST.peerLimit then recordPeerLimit d1 else d1
  let op : FabOp :=
    { desc := x, use_ := use, slot, epoch := (ctxOf d x.ctx).epoch, seq, sequenced := opSequenced x load,
      pkts := if st = ST.ok then pk else [], begun := false, status := st, fixed := decide (st ≠ ST.ok), bytes := 0,
      result := 0, data := [], multi := decide ((pk.map (fun p => gDev p.dst)).eraseDups.length > 1),
      counted := false, after := [] }
  (id, { d2 with tw := { d2.tw with
      ops := mset d2.tw.ops id op, nextOp := id + 1,
      seqs := if load then d2.tw.seqs else mput 0 d2.tw.seqs slot ((seq + 1) % 2 ^ 32) } })

def findOp (d : Dev) (id : Nat) : Option FabOp := mfind d.tw.ops id
def setOp (id : Nat) (op : FabOp) (d : Dev) : Dev := { d with tw := { d.tw with ops := mset d.tw.ops id op } }

/-- An operation changed, if it is outstanding. -/
def modOp (id : Nat) (f : FabOp → FabOp) (d : Dev) : Dev :=
  match findOp d id with
  | some op => setOp id (f op) d
  | none => d

def modPkt (i : Nat) (f : PktRec → PktRec) (op : FabOp) : FabOp := { op with pkts := lmod f op.pkts i }

/-- A final status other than ST_OK; the first one stays. -/
def fixStatus (st : Status) (op : FabOp) : FabOp :=
  { op with status := firstBad op.status st, fixed := true }

/-! ## Failures that are counted and raised (R349, R354) -/

def countUnknown (d : Dev) : Dev := raiseRated 0x3061 1000 (ldPort 0) 0x3061 0 0 [] (inc OD.unknownOutcomes d)
def countTimeout (d : Dev) : Dev := raiseRated 0x3062 1000 (ldPort 0) 0x3062 0 0 [] (inc OD.timeouts d)

/-- Outstanding request packets toward a device (R337). -/
def outstandingTo (d : Dev) (dev : Nat) : Nat := mget 0 d.tw.outstanding dev
def addOutstanding (dev : Nat) (d : Dev) : Dev :=
  { d with tw := { d.tw with outstanding := mput 0 d.tw.outstanding dev (outstandingTo d dev + 1) } }
def subOutstanding (dev : Nat) (d : Dev) : Dev :=
  { d with tw := { d.tw with outstanding := mput 0 d.tw.outstanding dev (outstandingTo d dev - 1) } }

/-- T_keep toward a target: 500 µs at a P2 target (R349, R359). -/
def tKeep (d : Dev) (dev : Nat) : Nat := if peerGen d dev = 2 then 500 else rd d OD.replayRetention

/-- Whether a sequenced packet may still be sent again (R349). -/
def mayResend (d : Dev) (p : PktRec) : Bool :=
  decide ((d.tick - p.firstSent) * 1000 + tLifeNs d + 4000 < tKeep d (gDev p.dst) * 1000)

/-- Whether a packet takes effect exactly once: one of a sequenced operation, or a counter's increment, of which a second copy
would be a second increment (R320, R346; DEDUCED, log entry 120). -/
def oncePacket (op : FabOp) (p : PktRec) : Bool := op.sequenced || p.kind == .count

/-- A packet that needs a resend which R349 does not allow: the operation's outcome is unknown. -/
def loseOutcome (id i : Nat) (op : FabOp) (d : Dev) : Dev :=
  countUnknown (setOp id (fixStatus ST.unknownOutcome (modPkt i (fun p => { p with st := .ended, busyAt := none }) op)) d)

/-- An attempt of a packet ends through T_tx or a lost completion: the packet will be sent again, or the operation's
final status is fixed (R354). -/
def endAttempt (id i : Nat) (lost : Bool) (d : Dev) : Dev :=
  match findOp d id with
  | none => d
  | some op =>
    match op.pkts[i]? with
    | none => d
    | some p =>
      let dev := gDev p.dst
      let d := if p.st = .flying then subOutstanding dev d else d
      let ended := modPkt i (fun p => { p with st := .ended }) op
      let again := decide (p.spent < rd d OD.retryLimit) &&
        (if oncePacket op p then peerGen d dev != 1 && mayResend d p else true)
      if op.fixed then setOp id ended d
      else if again then
        inc OD.endToEndResends
          (setOp id (modPkt i (fun p => { p with
            st := .waiting, attempt := p.attempt + 1, spent := p.spent + 1, resent := true }) op) d)
      else if oncePacket op p then loseOutcome id i op d
      else if lost then setOp id (fixStatus ST.poison ended) d
      else countTimeout (setOp id (fixStatus ST.timeout ended) d)

/-! ## Sending (R332, R333, R337, R338, R342, R348) -/

/-- Whether an operation holds a sequence number of its slot that packets carry: not a read, whose number is a tag, nor a RUN,
which sends none of its own (R304). -/
def numbered (op : FabOp) : Bool :=
  match op.use_ with
  | .loadLane _ => false
  | .hostRead _ => false
  | _ => !isRun op.desc

/-- The release mark of a slot: the oldest sequence number whose completion has not come back, or that was sent more
than once less than T_life ago (R348). -/
def releaseMark (d : Dev) (slot : Nat) : Nat :=
  let next := mget 0 d.tw.seqs slot
  let open_ := (d.tw.ops.filter (fun o => o.2.slot == slot && numbered o.2)).map (fun o => o.2.seq)
  let held := (d.tw.marks.filter (fun m => m.1 == slot && decide (d.tick < m.2.2))).map (fun m => m.2.1)
  (open_ ++ held).foldl (fun m s => if (next + 2 ^ 32 - m) % 2 ^ 32 < (next + 2 ^ 32 - s) % 2 ^ 32 then s else m) next

/-- The bytes of a local range, by their index in it, that lie in lines which read as poison. -/
def poisonBytes (d : Dev) (a n : Nat) : List Nat :=
  (pieces a n).flatMap (fun p => if poisonAt d p.1 then (List.range p.2).map (fun i => p.1 - a + i) else [])

/-- Whether the bytes of an operation's writes are its own, and not read at a local address: those of a RUN and of a host. -/
def ownBytes (op : FabOp) : Bool :=
  match op.use_ with
  | .antler _ => true
  | .hostWrite _ => true
  | _ => false

/-- The request packet as it leaves (R373). -/
def buildPacket (d : Dev) (op : FabOp) (p : PktRec) : Packet :=
  let x := op.desc
  let reads := p.kind == .write || p.kind == .accum
  let only := op.pkts.length == 1 && p.kind != .count && p.kind != .read
  { opk := p.kind, retx := p.resent, prio := fdPrio x,
    cntEn := (p.kind == .count) || (only && fdDstCntEn x && op.sequenced),
    len := if p.kind == .atomic then op.data.length else p.len, entropy := flowKey op.slot (gDev p.dst) (gLocal p.dst) p.attempt, ctx := x.ctx,
    srcDev := devNo d, dst := p.dst, slot := op.slot, seq := op.seq, epoch := op.epoch,
    relmark := releaseMark d op.slot, cnt := fdDstCnt x,
    code := (match p.kind with
      | .atomic => fdAop x + 16 * fdAtype x
      | .accum => fdAcode x
      | _ => 0),
    operand := if p.kind == .store || p.kind == .atomic then word x.words 2 else 0,
    compare := if p.kind == .atomic then word x.words 3 else 0,
    payload := if p.kind == .atomic then op.data
      else if p.kind == .store then leBytes p.len (word x.words 2).toNat
      else if !reads then [] else if ownBytes op then (op.data.drop p.localAddr).take p.len
      else bytesAt d p.localAddr p.len,
    poison := if !reads || ownBytes op then [] else poisonBytes d p.localAddr p.len }

/-- A port that has just trained, or has never done so. What the scrambler and the descrambler start from, and the level that a
precoder takes for the one before its first, is a DESIGN CHOICE (log entry 121). -/
def Port.new : Port :=
  { txSeq := 0, kept := [], resend := [], ackAt := 0, rxNext := 0, nakAt := none, templates := [],
    credit0 := 4096, credit1 := 4096, return0 := 0, return1 := 0, vc0 := [], vc1 := [], tail := [],
    tailItem := none, rx := [], arrived := [], control := [], laneErrs := [], windowPairs := 0, windowAt := 0, txScr := 0,
    rxScr := 0, txPairs := 0, rxPairs := 0, txLast := [], rxLast := [], precode := false, moving := none, outage := none,
    retryAt := none }

def portOf (d : Dev) (p : Nat) : Port := mget Port.new d.ports p
def setPort (p : Nat) (x : Port) (d : Dev) : Dev := { d with ports := mput Port.new d.ports p x }

/-- A request put in a port's queue. -/
def enqueueReq (p : Nat) (r : Packet) (d : Dev) : Dev :=
  let x := portOf d p
  setPort p { x with vc0 := x.vc0 ++ [{ item := .req r, since := d.tick }] } d

/-- Whether two acknowledgements may travel in one RESP (R375): same operation and verdict, no data, within 32
packets. -/
def mergeable (a b : Resp) : Bool :=
  a.slot == b.slot && a.seq == b.seq && a.dstDev == b.dstDev && a.epoch == b.epoch && a.status == b.status &&
  a.hot == b.hot && a.busy == b.busy && a.lost == b.lost && a.data.isEmpty && b.data.isEmpty &&
  a.poison.isEmpty && b.poison.isEmpty &&
  decide ((b.pbase + 2 ^ 14 - a.pbase) % 2 ^ 14 < 32) && b.mask == 1

/-- A response added to a port's queue, merged into one that waits there when it can be. -/
def addResp (r : Resp) (tick : Nat) : List Queued → List Queued
  | [] => [{ item := .resp r, since := tick }]
  | q :: l =>
    match q.item with
    | .resp a =>
      if mergeable a r then
        { q with item := .resp { a with mask := Nat.lor a.mask (2 ^ ((r.pbase + 2 ^ 14 - a.pbase) % 2 ^ 14)) } } :: l
      else q :: addResp r tick l
    | .req _ => q :: addResp r tick l

/-- EV_3041, once for a device that no port reaches any more (R333). -/
def noteUnreachable (dev : Nat) (d : Dev) : Dev :=
  if dev = devNo d ∨ portsTo d dev ≠ [] ∨ d.tw.unreachable.contains dev then d
  else raise (ldPort 0) 0x3041 0 dev [] { d with tw := { d.tw with unreachable := dev :: d.tw.unreachable } }

/-- Devices that a port reaches again are unreachable no longer. -/
def noteReachable (d : Dev) : Dev :=
  { d with tw := { d.tw with unreachable := d.tw.unreachable.filter (fun dev => decide (portsTo d dev = [])) } }

/-- A response handed to a port that reaches its requester; where none does it is lost at this router (R333), and the
requester's T_tx ends the attempt. -/
def queueResp (r : Resp) (loc : Nat) (d : Dev) : Dev :=
  match choosePort d r.slot r.dstDev loc 0 with
  | some p =>
    let x := portOf d p
    setPort p { x with vc1 := addResp r d.tick x.vc1 } d
  | none => noteUnreachable r.dstDev d

/-! ## At the target (R288, R341, R346-R351) -/

/-- A copied piece written, the bytes that come from poisoned source lines as poison in every line they touch (R314). Where
the target range refuses the write no byte moves (R255). -/
def writePayload (a : Nat) (bs : Bytes) (poison : List Nat) (d : Dev) : Status × Dev :=
  let r := writeMem a bs d
  if poison.isEmpty || writeStatus d a bs.length != ST.ok then r
  else
    let ls := (poison.map (fun i => (a + i) / 64)).eraseDups
    (if r.1 = ST.ok then ST.poison else r.1, ls.foldl (fun d l => writePoison l d) r.2)

/-- An accumulate whose operand has bytes from poisoned source lines: their elements are not added and the target lines they
reach are written as poison (R275). -/
def accumulatePoison (code a : Nat) (bs : Bytes) (poison : List Nat) (d : Dev) : Status × Dev :=
  match accSizes code with
  | none => (ST.invalid, d)
  | some (o, t) =>
    let n := bs.length / o
    if poison.isEmpty || a % t != 0 || bs.length % o != 0 || writeStatus d a (n * t) != ST.ok then accumulate code a bs d
    else
      let hit := fun (i : Nat) => poison.contains (o * i)
      let good := (List.range n).filter (fun i => !hit i)
      let bad := (List.range n).filter hit
      let d1 := good.foldl (fun d i => (accOne code (a + t * i) (leNat ((bs.drop (o * i)).take o)) d).2) d
      let ls := (bad.map (fun i => (a + t * i) / 64)).eraseDups
      (ST.poison, ls.foldl (fun d l => writePoison l d) d1)

/-- Whether a packet is a host's: this device's own, or through the bridge of its group (R306, R392). -/
def fromHost (d : Dev) (p : Packet) : Bool :=
  (p.slot == 10244 || p.slot == 10245) &&
  (p.srcDev == devNo d || leNat ((rdFull d OD.hostGroupTable).take 2) == p.srcDev)

/-- Whether memory a request reaches is still starting: the request completes with ST_STATE (R630). -/
def stillStarting (d : Dev) (a : Nat) : Bool :=
  readyState d OD.readyMemory == RS.init || (decide (a < hbmEnd) && readyState d OD.readyHbm == RS.init)

/-- A request applied at its coherence point: status, value or data returned, device. -/
def applyRequest (p : Packet) (d : Dev) : Status × Nat × Bytes × List Nat × Dev :=
  let a := gLocal p.dst
  if stillStarting d a then (ST.state, 0, [], [], d)
  else match p.opk with
  | .store =>
    if zone a = .doorbells then
      (if fromHost d p ∧ p.len = 8 ∧ a % 16 = 0 then
         let b := bellOf a
         (ST.ok, 0, [], [], bellPost (b.1 / 4) (b.1 % 4) b.2.1 p.operand.toNat d)
       else (ST.access, 0, [], [], d))
    else if inControl a then
      let r := ctlStore .other a p.len p.operand.toNat d
      (r.1, 0, [], [], r.2)
    else
      let r := writeMem a (leBytes p.len p.operand.toNat) d
      (r.1, 0, [], [], r.2)
  | .atomic =>
    let r := atomLocal .other (p.code % 16) (p.code / 16 % 8) a
      (argsOf (p.code % 16) (p.code / 16 % 8) p.operand p.compare p.payload) d
    (r.1, ((r.2.1.head?).map (fun v => v.2)).getD 0, [], [], r.2.2)
  | .accum =>
    let r := accumulatePoison p.code a p.payload p.poison d
    (r.1, 0, [], [], r.2)
  | .write =>
    let r := writePayload a p.payload p.poison d
    (r.1, 0, [], [], r.2)
  | .read =>
    if zone a = .doorbells then
      (if fromHost d p ∧ p.len = 8 ∧ a % 16 = 8 then
         let b := bellOf a
         (ST.ok, 0, leBytes 8 (bellRead d (b.1 / 4) (b.1 % 4) b.2.1), [], d)
       else (ST.access, 0, [], [], d))
    else if inControl a then
      let r := ctlLoad d a p.len
      (r.1, 0, leBytes p.len r.2, [], d)
    else
      let st := spaceStatus d a p.len
      if st ≠ ST.ok then (st, 0, [], [], d)
      else
        let bad := poisonBytes d a p.len
        (if bad.isEmpty then ST.ok else ST.poison, 0, bytesAt d a p.len, bad, touchRead a p.len d)
  | .count => (ST.ok, 0, [], [], d)

/-- Whether a packet kind is sequenced at the target (R346); a counter increment is applied exactly once (R320). -/
def pktSequenced (p : Packet) : Bool := p.opk == .atomic || p.opk == .accum || p.opk == .count

/-- Whether a sequence number lies below a release mark (R348). -/
def belowMark (seq mark : Nat) : Bool :=
  let k := (mark + 2 ^ 32 - seq) % 2 ^ 32
  decide (0 < k) && decide (k < 2 ^ 31)

/-- Entries freed by the release mark of a slot. -/
def freeByMark (p : Packet) (d : Dev) : Dev :=
  let keep := fun (e : ReplayEntry) => !(e.src == p.srcDev && e.slot == p.slot && belowMark e.seq p.relmark)
  { d with tw := { d.tw with replay := d.tw.replay.filter keep } }

/-- The response to a request. -/
def respOf (p : Packet) (st : Status) (hot busy : Bool) (value : Nat) (data : Bytes) (poison : List Nat) : Resp :=
  { slot := p.slot, dstDev := p.srcDev, hot, busy, lost := false, epoch := p.epoch, pbase := nfld p.dst 21 8,
    seq := p.seq, status := st, mask := 1,
    data := if p.opk = .atomic then leBytes 8 value else data, poison }

/-- Whether the packet's line is hot as it is answered, with so many operations waiting on it; nothing is known of them where
no number is given (R341). -/
def noteHot (p : Packet) (waiting : Option Nat) (d : Dev) : Bool × Dev :=
  let l := gLocal p.dst / 64
  let was := d.tw.hotLines.contains l
  match waiting with
  | none => (was, d)
  | some n =>
    if rd d OD.hotThreshold < n then
      if was then (true, d)
      else (true, raiseRated 0x3050 1000 (ldPort 0) 0x3050 0 0 []
        { d with tw := { d.tw with hotLines := l :: d.tw.hotLines } })
    else if n = 0 then (false, { d with tw := { d.tw with hotLines := d.tw.hotLines.filter (· != l) } })
    else (was, d)

/-- A request applied and, when sequenced, entered in the replay window (R347). -/
def serveRequest (p : Packet) (hot : Bool) (d : Dev) : Resp × Dev :=
  let r := applyRequest p d
  let d1 := r.2.2.2.2
  let d2 := if p.cntEn ∧ r.1 = ST.ok then arrive p.cnt d1 else d1
  let d3 := if pktSequenced p then
      let e : ReplayEntry := { src := p.srcDev, slot := p.slot, seq := p.seq, addr := nfld p.dst 48 8,
                               status := r.1, result := r.2.1, at_ := d2.tick }
      { d2 with tw := { d2.tw with replay := e :: d2.tw.replay } }
    else d2
  (respOf p r.1 hot false r.2.1 r.2.2.1 r.2.2.2.1, d3)

/-- The replay entry of a packet's key (R346). -/
def replayOf (p : Packet) (d : Dev) : Option ReplayEntry :=
  d.tw.replay.find? (fun e => e.src == p.srcDev && e.slot == p.slot && e.seq == p.seq && e.addr == nfld p.dst 48 8)

/-- A request at the target, its line hot or not: a resend after a full restart is answered ST_UNKNOWN_OUTCOME (R351); a
sequenced packet is checked against the replay window (R347), whose entries its release mark then frees (R348); anything else
is applied. -/
def takeRequestHot (p : Packet) (hot : Bool) (d : Dev) : Resp × Dev :=
  let late := match d.tw.retxUntil with
    | some t => decide (d.tick < t)
    | none => false
  if p.retx && late then (respOf p ST.unknownOutcome hot false 0 [] [], d)
  else if pktSequenced p then
    match replayOf p d with
    | some e => (respOf p e.status hot false e.result [] [], inc OD.replayHits (freeByMark p d))
    | none =>
      let d := freeByMark p d
      if rd d OD.replayWindowEntries ≤ d.tw.replay.length then
        (respOf p ST.ok hot true 0 [] [],
          raiseRated 0x3060 1000 (ldPort 0) 0x3060 0 0 [] (inc OD.windowFullRefusals d))
      else serveRequest p hot d
  else serveRequest p hot d

/-- A request at the target. Every answer for an operation on a hot line carries HOT, and is counted (R341). -/
def takeRequest (p : Packet) (waiting : Option Nat) (d : Dev) : Resp × Dev :=
  let h := noteHot p waiting d
  takeRequestHot p h.1 (if h.1 then inc OD.hotSignalsSent h.2 else h.2)

/-! ## At the source (R321, R342, R354) -/

/-- A hot-table entry made or kept; a full table of a link die replaces its oldest entry (R342). -/
def noteHotSource (ld dev line : Nat) (d : Dev) : Dev :=
  let e : HotEntry := { ld, dev, line, seen := d.tick }
  if d.tw.hot.any (fun x => x.dev == dev && x.line == line) then
    let seen := fun (x : HotEntry) => if x.dev == dev && x.line == line then HotEntry.mk x.ld x.dev x.line d.tick else x
    { d with tw := { d.tw with hot := d.tw.hot.map seen } }
  else
    let mine := d.tw.hot.filter (fun x => x.ld == ld)
    let kept := if mine.length < 64 then d.tw.hot else dropLast1 (fun x => x.ld == ld) d.tw.hot
    inc OD.hotThrottles { d with tw := { d.tw with hot := e :: kept } }

def dropHot (dev line : Nat) (d : Dev) : Dev :=
  { d with tw := { d.tw with hot := d.tw.hot.filter (fun x => !(x.dev == dev && x.line == line)) } }

/-- One acknowledged packet: bytes counted, a value or data taken. -/
def ackPacket (r : Resp) (i : Nat) (op : FabOp) (p : PktRec) (d : Dev) : FabOp × Dev :=
  let t := match p.kind with
    | .accum => (match accSizes (fdAcode op.desc) with
        | some (o, t) => p.len / o * t
        | none => 0)
    | .count => 0
    | _ => p.len
  let op1 := modPkt i (fun p => { p with st := .acked }) op
  match p.kind with
  | .atomic => ({ op1 with bytes := op1.bytes + t, result := leNat r.data }, d)
  | .read =>
    (match op.use_ with
     | .queue =>
       let w := writePayload p.localAddr (r.data.take p.len) r.poison d
       if w.1 = ST.ok then ({ op1 with bytes := op1.bytes + t }, w.2) else (fixStatus w.1 op1, w.2)
     | .hostRead _ =>
       let op2 : FabOp := { op1 with bytes := op1.bytes + t, data := bufWrite op1.data p.localAddr (r.data.take p.len) }
       (if r.status = ST.ok then op2 else fixStatus r.status op2, d)
     | _ => ({ op1 with bytes := op1.bytes + t, data := r.data.take p.len }, d))
  | .count => ({ op1 with counted := true }, d)
  | _ => ({ op1 with bytes := op1.bytes + t }, d)

/-- Whether the data of a read that returns poison are still used: a get writes them as poison (R314), a host's completion
carries them (R390). -/
def keepsPoison : OpUse → Bool
  | .queue => true
  | .hostRead _ => true
  | _ => false

/-- A response for packet i of an operation. -/
def respPacket (r : Resp) (id i : Nat) (d : Dev) : Dev :=
  match findOp d id with
  | none => d
  | some op =>
    match op.pkts[i]? with
    | none => d
    | some p =>
      if p.st = .acked ∨ p.st = .ended then d
      else
        let dev := gDev p.dst
        let line := gLocal p.dst / 64
        if r.lost then endAttempt id i true d
        else
          let d := if p.st = .flying then subOutstanding dev d else d
          if r.busy then
            setOp id (modPkt i (fun p => { p with st := .waiting, busyAt := some d.tick }) op) d
          else
            let d := if r.hot then noteHotSource (p.port / 16) dev line d else dropHot dev line d
            if r.status = ST.ok ∨ (r.status = ST.poison ∧ p.kind = .read ∧ keepsPoison op.use_) then
              let a := ackPacket r i op p d
              setOp id a.1 a.2
            else
              let fails := decide (r.status = ST.unknownOutcome) && !op.fixed
              setOp id (fixStatus r.status (modPkt i (fun p => { p with st := .ended }) op))
                (if fails then countUnknown d else d)

/-- The operation a response belongs to. -/
def respOp (d : Dev) (r : Resp) : Option Nat :=
  (d.tw.ops.find? (fun o => o.2.slot == r.slot && o.2.seq == r.seq && o.2.epoch == r.epoch)).map (fun o => o.1)

/-- Whether a response acknowledges the packet of a global address. -/
def namesAddr (r : Resp) (dst : Nat) : Bool :=
  let k := (nfld dst 21 8 + 2 ^ 14 - r.pbase) % 2 ^ 14
  decide (k < 32) && r.mask.testBit k

def respNames (r : Resp) (p : PktRec) : Bool := namesAddr r p.dst

/-- Packets of an ended operation that are on their way no longer: their credits return (R337). -/
def landed (e : Ended) (gone : Nat × Nat × Nat → Bool) (d : Dev) : Dev :=
  let back := e.flying.filter gone
  let e' : Ended := { e with flying := e.flying.filter (fun p => !gone p) }
  let d := back.foldl (fun d p => subOutstanding (gDev p.2.1) d) d
  { d with tw := { d.tw with tags := d.tw.tags.map (fun t => if t = e then e' else t) } }

/-- A completion of an ended operation is discarded, and counted when it carries an epoch that its context has left (R356). -/
def discardLate (e : Ended) (d : Dev) : Dev :=
  if (ctxOf d e.ctx).epoch ≠ e.epoch then
    raiseRated 0x3063 1000 (ldPort 0) 0x3063 0 0 [] (inc OD.lateCompletionsDiscarded d)
  else d

/-- A packet of an ended operation that is lost on its way. -/
def lostLate (mine : Ended → Bool) (gone : Nat × Nat × Nat → Bool) (d : Dev) : Dev :=
  match d.tw.tags.find? (fun t => mine t && t.flying.any gone) with
  | some t => landed t gone (discardLate t d)
  | none => d

/-- A response at its source: it completes packets of its operation; one of an ended operation is discarded, and
counted when it carries an old epoch (R354, R356). -/
def takeResponse (r : Resp) (d : Dev) : Dev :=
  match respOp d r with
  | some id =>
    (match findOp d id with
     | some op => (List.range op.pkts.length).foldl (fun d i =>
         if ((op.pkts[i]?).map (respNames r)).getD false then respPacket r id i d else d) d
     | none => d)
  | none =>
    match d.tw.tags.find? (fun t => t.slot == r.slot && t.seq == r.seq && t.epoch == r.epoch) with
    | some t => landed t (fun p => namesAddr r p.2.1) (discardLate t d)
    | none => d

/-! ## Sending one packet -/

/-- Whether a packet to a global address has to wait for a credit, or for the one operation that is outstanding on a hot line
(R338, R342). -/
def lacksRoom (d : Dev) (dst : Nat) : Bool :=
  let dev := gDev dst
  let line := gLocal dst / 64
  decide (creditOf d dev ≤ outstandingTo d dev) ||
  (d.tw.hot.any (fun h => h.dev == dev && h.line == line) &&
   d.tw.ops.any (fun o => o.2.pkts.any (fun q => decide (q.st = .flying) && gDev q.dst == dev && gLocal q.dst / 64 == line)))

/-- Whether a begun operation waits for credits or for a hot line. -/
def opWaits (d : Dev) (op : FabOp) : Bool :=
  op.begun && !op.fixed && op.pkts.any (fun p => decide (p.st = .waiting) && p.busyAt.isNone && lacksRoom d p.dst)

/-- Outstanding operations of a slot. -/
def slotOps (d : Dev) (slot : Nat) : Map FabOp := d.tw.ops.filter (fun o => o.2.slot == slot)

/-- Whether an operation of a fabric queue waits for credits or for a hot line, which holds back the later ones: those numbered
below n (R338). -/
def creditHeld (d : Dev) (slot n : Nat) : Bool :=
  decide (slot < 8192) && (slotOps d slot).any (fun o => decide (o.1 < n) && opWaits d o.2)

/-- Whether a packet of an operation may leave now: the operation has begun, nothing holds it back, there is credit, and no other
operation on a hot line is outstanding (R114, R338, R342). -/
def maySend (d : Dev) (id : Nat) (op : FabOp) (p : PktRec) : Bool :=
  op.begun && !op.fixed && decide (p.st = .waiting) && p.busyAt.isNone &&
  op.after.all (fun i => (findOp d i).isNone) && !lacksRoom d p.dst && !creditHeld d op.slot id

/-- A packet's local source range is read as the packet is made (R258). -/
def readSource (op : FabOp) (p : PktRec) (d : Dev) : Dev :=
  if decide (op.use_ = .queue) && (p.kind == .write || p.kind == .accum) then touchRead p.localAddr p.len d else d

/-- A packet leaves: on the port its key chooses, or turned round at the link die when it reaches this device itself;
where no port reaches its device it is lost at the source router (R315, R332, R333). A resend that R349 allows no longer is not
sent. -/
def sendPacket (id i : Nat) (d : Dev) : Dev :=
  match findOp d id with
  | none => d
  | some op =>
    match op.pkts[i]? with
    | none => d
    | some p =>
      let dev := gDev p.dst
      let pkt := buildPacket d op p
      let sent := fun (port : Nat) (p : PktRec) => { p with
        st := PktSt.flying, port, lastSent := d.tick, busyAt := none,
        firstSent := if p.resent then p.firstSent else d.tick }
      let read := readSource op p d
      let mark := if numbered op ∧ p.resent then
          { read with tw := { read.tw with marks := (op.slot, op.seq, d.tick + tLifeUs d) :: read.tw.marks } }
        else read
      if p.resent && oncePacket op p && !mayResend d p then loseOutcome id i op d
      else if dev = devNo d then
        let d1 := addOutstanding dev (setOp id (modPkt i (sent 0) op) mark)
        let r := takeRequest pkt none d1
        takeResponse r.1 r.2
      else match choosePort d op.slot dev (gLocal p.dst) p.attempt with
        | some port => enqueueReq port pkt (addOutstanding dev (setOp id (modPkt i (sent port) op) mark))
        | none =>
          let d1 := noteUnreachable dev read
          endAttempt id i true (setOp id (modPkt i (fun p => { p with
            firstSent := if p.resent then p.firstSent else d.tick }) op) d1)

/-! ## Completion (R118, R320-R322, R355, R636) -/

/-- A write of a record or of a returned value that is not retried and whose failure is counted (R636). -/
def putRecord (a : Nat) (bs : Bytes) (st : Status) (inst : Nat) (d : Dev) : Dev :=
  let r := writeMem a bs d
  if r.1 = ST.ok then r.2
  else raise (cdPort (inst / 512)) 0x2423 inst st.toNat [] (inc OD.recordWriteFailures d)

/-- The completion record of R322. -/
def fabRecord (op : FabOp) : Bytes :=
  leBytes 8 (op.status.toNat + fdOp op.desc * 2 ^ 16 + (if op.multi then 2 ^ 20 else 0) + op.seq * 2 ^ 32) ++
  leBytes 8 op.bytes

/-- Core of a slot (R304). -/
def slotCore (slot : Nat) : Nat := if slot < 8192 then slot / 4 else slot - 8192

/-- Whether every packet has been answered. -/
def allAcked (op : FabOp) : Bool := op.pkts.all (fun p => decide (p.st = .acked))

/-- Whether an operation's outcome is decided (R321 1). -/
def decided (op : FabOp) : Bool := op.begun && (op.fixed || allAcked op)

/-- What is remembered of an operation that ends: answers may still come, and packets on their way keep their credits. -/
def endedOp (id : Nat) (op : FabOp) (tick : Nat) : Ended :=
  { id, slot := op.slot, seq := op.seq, ctx := op.desc.ctx, epoch := op.epoch, at_ := tick,
    flying := op.pkts.zipIdx.filterMap (fun p => if p.1.st = .flying then some (p.2, p.1.dst, p.1.lastSent) else none) }

/-- Whether an answer of an ended operation may still come: a packet is on its way, or a copy sent before the end may still have
been answered. -/
def stillTold (d : Dev) (e : Ended) : Bool := !e.flying.isEmpty || decide (d.tick < e.at_ + 2 * tLifeUs d)

/-- An operation leaves the list of outstanding ones. -/
def removeOp (id : Nat) (op : FabOp) (d : Dev) : Dev :=
  { d with tw := { d.tw with
      ops := mdel d.tw.ops id,
      tags := endedOp id op d.tick :: d.tw.tags.filter (stillTold d) } }

/-- The step sequencer's item that posted an operation is done, a LOWRANK item one stage further; a failure is a cause of
abandonment (R439, R451). -/
def itemOpDone (id : Nat) (st : Status) (d : Dev) : Dev :=
  let mine := d.seq.items.any (fun i => i.2.op == some id)
  { d with seq := { d.seq with
      items := mmap (fun _ i => if i.op = some id then
        (if i.kind = 5 ∧ st = ST.ok then { i with op := none, value := i.value + 1 } else { i with st := .done }) else i) d.seq.items,
      cause := if mine && decide (st ≠ ST.ok) then Nat.max d.seq.cause 4 else d.seq.cause } }

/-! ## A RUN's own operations, and its end (R398, R405, R423, R424) -/

/-- A RUN that fails: its first failing status stands, and it issues nothing more. -/
def failRun (id : Nat) (st : Status) (d : Dev) : Dev :=
  let d := modOp id (fixStatus st) d
  match mfind d.runs id with
  | some r => { d with runs := mset d.runs id { r with backlog := [] } }
  | none => d

/-- Bytes of OUT that a RUN has written (R423). -/
def addWrote (id n : Nat) (d : Dev) : Dev :=
  match mfind d.runs id with
  | some r => { d with runs := mset d.runs id { r with wrote := r.wrote + n } }
  | none => d

/-- Bytes of an element on the wire and at the target. -/
def outSizes (o : AntlerOut) : Nat × Nat :=
  match o.code with
  | some c => (accSizes c).getD (1, 1)
  | none => (1, 1)

/-- Bytes that a piece reaches at its target. -/
def pieceBytes (o : AntlerOut) (n : Nat) : Nat := n / (outSizes o).1 * (outSizes o).2

/-- The packets of a write or put of a RUN; their bytes lie in the operation, from the offset given. -/
def outPackets (d : Dev) (t : List FttEntry) (ctx : Nat) (o : AntlerOut) : Nat → List (Nat × Bytes) → List PktRec
  | _, [] => []
  | off, (a, bs) :: ps =>
    let tr := fun a => (fttTranslate t ctx a).getD a
    let k := (outSizes o).1
    let t2 := (outSizes o).2
    let n := pieceBytes o bs.length
    (cutExtent (fun a => toMultiple (payloadOf d (gDev (tr a))) a) n a n).map
      (fun p => PktRec.new (if o.code.isSome then .accum else .write) (tr p.1) (off + (p.1 - a) / t2 * k) (p.2 / t2 * k))
    ++ outPackets d t ctx o (off + bs.length) ps

/-- A write or put to this device itself: applied and counted at once. A put lands in OUT. -/
def outLocal (id : Nat) (o : AntlerOut) (d : Dev) : Dev :=
  let r := o.pieces.foldl (fun (acc : Status × Dev) p =>
    let w := match o.code with
      | some c => accumulate c (gLocal p.1) p.2 acc.2
      | none => writeMem (gLocal p.1) p.2 acc.2
    (firstBad acc.1 w.1, w.2)) (ST.ok, d)
  let n := if o.code.isSome ∨ o.ordered then 0 else (o.pieces.map (fun p => p.2.length)).sum
  if r.1 = ST.ok then arrive o.cnt (addWrote id n r.2) else failRun id r.1 r.2

/-- The descriptor that a write or put of a RUN stands for. -/
def outDesc (x : FabDesc) (o : AntlerOut) : FabDesc :=
  { x with
    record := []
    words := [BitVec.ofNat 64 ((match o.code with
                | some c => 3 + c * 2 ^ 16
                | none => 4) + 2 ^ 24 + (if fdPrio x then 2 ^ 26 else 0) + o.cnt * 2 ^ 32),
              BitVec.ofNat 64 o.dst, 0, BitVec.ofNat 64 ((o.pieces.map (fun p => p.2.length)).sum), 0, 0, 0, 0] }

/-- A write or put of a RUN issued: checked at its link die and begun; a failed check fails the RUN. -/
def outIssue (id : Nat) (rop : FabOp) (o : AntlerOut) (d : Dev) : Dev :=
  if gDev o.dst = devNo d then outLocal id o d
  else
    let x := outDesc rop.desc o
    let v := fttView d
    let t : List FttEntry := v.1
    let d : Dev := v.2
    let right := fun (e : FttEntry) => if o.code.isSome then e.at_ else e.wr
    let deny := match fttDenied t x.ctx (fun e => e.cnt) o.dst 1 with
      | some a => some a
      | none => o.pieces.findSome? (fun (p : Nat × Bytes) => fttDenied t x.ctx right p.1 (pieceBytes o p.2.length))
    let pk := outPackets d t x.ctx o 0 o.pieces
    match deny with
    | some a => failRun id ST.access (recordDenial x.ctx a d)
    | none =>
      if pk.any (fun p => peerBreaks d x p.dst true) then
        failRun id ST.peerLimit (recordPeerLimit d)
      else
        let seq := mget 0 d.tw.seqs rop.slot
        let mine := (d.tw.ops.filter (fun (e : Nat × FabOp) => decide (e.2.use_ = OpUse.antler id))).map (fun e => e.1)
        let op : FabOp :=
          { desc := x, use_ := .antler id, slot := rop.slot, epoch := rop.epoch, seq, sequenced := opSequenced x false,
            pkts := pk, begun := true, status := ST.ok, fixed := false, bytes := 0, result := 0,
            data := o.pieces.flatMap (fun (p : Nat × Bytes) => p.2), multi := false, counted := false,
            after := if o.ordered then mine else [] }
        { d with tw := { d.tw with
            ops := mset d.tw.ops d.tw.nextOp op, nextOp := d.tw.nextOp + 1,
            seqs := mput 0 d.tw.seqs rop.slot ((seq + 1) % 2 ^ 32) } }

/-- What a RUN still has to issue leaves while places are free (R398). -/
def drainBacklog (id : Nat) : Nat → Dev → Dev
  | 0, d => d
  | n + 1, d =>
    match findOp d id, mfind d.runs id with
    | some rop, some r =>
      (match r.backlog with
       | [] => d
       | o :: os =>
         if rop.fixed ∨ rd d OD.outstandingPerQueue ≤ (slotOps d rop.slot).length then d
         else drainBacklog id n (outIssue id rop o { d with runs := mset d.runs id { r with backlog := os } }))
    | _, _ => d

/-- A write or put of a RUN ends: a failure fails the RUN, otherwise what waits may be issued. -/
def endAntlerOp (id run : Nat) (op : FabOp) (d : Dev) : Dev :=
  let d := removeOp id op d
  if op.status = ST.ok then drainBacklog run 512 d else failRun run op.status d

/-- Whether a NaN and whether an infinity lies in the result that a reduction left in OUT. -/
def resultFlags (d : Dev) (x : FabDesc) (g : GroupRec) : Bool × Bool :=
  let r := x.record
  if 4 ≤ arKind r ∨ (arKind r = 3 ∧ g.rank ≠ arRoot r) then (false, false)
  else
    let o := if arOutBf16 r then 2 else 4
    let f := if arOutBf16 r then Fmt.bf16 else Fmt.fp32
    let m := readMem d (arOut r) (outBytes x r g.members.length g.rank)
    let vs := (List.range (m.2.length / o)).map (fun i => decode f (leNat ((m.2.drop (o * i)).take o)))
    (vs.any Val.isNan, vs.any Val.isInf)

/-- Words 12 to 14 of the Antler record. -/
def runWords (r : AntlerRun) (nan inf : Bool) (step : Nat) : Bytes :=
  let b := fun (x : Bool) (i : Nat) => if x then 2 ^ i else 0
  leBytes 8 ((r.trees.map (fun t => t.total.getD 0)).sum % 2 ^ 32 +
    Nat.min 255 (r.trees.map (fun t => t.passes)).sum * 2 ^ 32) ++
  leBytes 8 (b nan 0 + b inf 1 + b r.accOnly 2) ++ leBytes 8 step

/-- What the end of a RUN tells the open step: a failure or a non-finite result is a cause, and a RUN on the native wire
is remembered for its scale record, to which a failed one may have contributed too (R412, R424, R440). -/
def noteRun (x : FabDesc) (r : AntlerRun) (st : Status) (bad : Bool) (d : Dev) : Dev :=
  if !inStep d ∨ x.step ≠ rd d OD.stepNumber then d
  else
    let c := if st ≠ ST.ok then 4 else if bad then 3 else 0
    let native : Bool := match mfind d.seq.groups (arGroup x.record) with
      | some g => runWire g x.record == 0 && decide (arKind x.record < 4)
      | none => false
    let mine := if native ∧ !r.accOnly ∧ !r.trees.isEmpty
      then [(arScale x.record, arGroup x.record, r.trees.any (fun t => decide (0 < t.passes)))] else []
    { d with seq := { d.seq with cause := Nat.max d.seq.cause c, runs := d.seq.runs ++ mine } }

def Incoming.empty : Incoming := { head := [], digests := [], chunks := [], retries := [], segments := [], captured := [] }

/-- A RUN of an ALL_GATHER completes on a partner (R480): the first of its group in the step gives the source's segment of
OUT to the incoming slot. -/
def captureRide (x : FabDesc) (d : Dev) : Dev :=
  let g := arGroup x.record
  let partner := rd d OD.partnerDevice
  match mfind d.seq.groups g with
  | none => d
  | some gr =>
    let rank := gr.members.findIdx (fun m => m.dev == partner)
    let slot := d.ckpt.incoming.getD Incoming.empty
    if arKind x.record ≠ 5 ∨ partner = 0xFFFF ∨ rd d OD.tandemMode ≠ 0 ∨ !inStep d ∨ x.step ≠ rd d OD.stepNumber
        ∨ gr.members.length ≤ rank ∨ (mfind slot.segments g).isSome then d
    else
      let r := readMem d (arOut x.record + rank * fdLen x) (fdLen x)
      if r.1 = ST.ok then
        { d with ckpt := { d.ckpt with incoming := some { slot with segments := mset slot.segments g r.2 } } }
      else d

def AntlerRun.none : AntlerRun :=
  { first := 0, count := 0, agreed := 0, accOnly := false, trees := [], seen := 0, wrote := 0, backlog := [] }

/-- The additions of R423 and R424 at the end of a RUN: its record's words first, the counts, the event. -/
def closeRun (id : Nat) (op : FabOp) (d : Dev) : Dev :=
  let x := op.desc
  if !isRun x then d
  else
    let r := (mfind d.runs id).getD AntlerRun.none
    let fl := match mfind d.seq.groups (arGroup x.record) with
      | some g => if op.status = ST.ok ∧ !r.accOnly then resultFlags d x g else (false, false)
      | none => (false, false)
    let core := slotCore op.slot
    let d := putRecord (gLocal (fdDst x) + 96) (runWords r fl.1 fl.2 x.step) op.status core d
    let d := noteRun x r op.status (fl.1 || fl.2) { d with runs := mdel d.runs id }
    if op.status = ST.ok then
      inc OD.runsCompleted (if r.accOnly then inc OD.accumulateOnlyRuns d else captureRide x d)
    else raise (cdPort (core / 512)) 0x3402 core op.status.toNat [] (inc OD.runsFailed d)

/-- A RUN that fails counts what it had written to OUT in BYTES (R423). -/
def runBytes (d : Dev) (id : Nat) (op : FabOp) : FabOp :=
  if isRun op.desc ∧ op.status ≠ ST.ok then { op with bytes := ((mfind d.runs id).map (fun r => r.wrote)).getD 0 } else op

/-- The end of a queue's operation: returned value, record, SRC_CNT, counts (R321 3-5). -/
def endQueueOp (id : Nat) (op : FabOp) (d : Dev) : Dev :=
  let op := runBytes d id op
  let x := op.desc
  let core := slotCore op.slot
  let d := closeRun id op d
  let d := if fdOp x = 2 ∧ op.status = ST.ok ∧ fdResult x ≠ 0
    then putRecord (fdResult x) (leBytes 8 op.result) op.status core d else d
  let d := if fdRecord x ≠ 0 then putRecord (fdRecord x) (fabRecord op) op.status core d else d
  let d := if fdSrcCntEn x then arrive (fdSrcCnt x) d else d
  let d := inc OD.fabricOpsCompleted d
  let d := if op.status = ST.ok then d else inc OD.fabricOpsFailed d
  let fq := queueOf d op.slot
  let d := if fdFlag x then
      let old := fun (f : Nat × Nat × Status) => f.1 == x.ctx && decide (f.2.1 < id)
      setQueue op.slot { fq with fails := fq.fails.filter (fun f => !old f),
                                 lastFlag := mdel fq.lastFlag (x.ctx * 2 ^ 32 + id) } d
    else if op.status ≠ ST.ok then setQueue op.slot { fq with fails := fq.fails ++ [(x.ctx, id, op.status)] } d
    else d
  itemOpDone id op.status (removeOp id op d)

/-- The accesses of a group that wait for an operation, in the order of their lanes. -/
def awaitsOf (d : Dev) (w : Where) (id : Nat) : List Await :=
  match findGroup d w with
  | some (_, g) => g.awaits.filter (fun a => a.op == id)
  | none => []

/-- Accesses and values: each fills its registers, and is awaited no longer. -/
def returnAwaits (w : Where) (vs : List (Await × Nat)) (d : Dev) : Dev :=
  vs.foldl (fun d v => modLanes w [v.1.lane] (fun _ l => l.setWide v.1.reg v.1.regs v.2)
    (modGroup w (fun g => { g with awaits := g.awaits.filter (fun a => a != v.1) }) d)) d

/-- An access that fails faults its group at its own instruction (R96, R102). -/
def awaitFault (w : Where) (st : Status) (as : List Await) (d : Dev) : Dev :=
  match as with
  | [] => d
  | a :: _ => groupFault w st a.pc (as.map (fun a => a.lane)) d

/-- The values that the lanes of a merged atomic receive, from the value the location held before (R92). -/
def atomReturns (op : FabOp) (as : List Await) : List (Await × Nat) :=
  let args := argsOf (fdAop op.desc) (fdAtype op.desc) (word op.desc.words 2) (word op.desc.words 3) op.data
  as.zip ((atomFold (fdAop op.desc) (fdAtype op.desc) op.result args).1.map (fun v => v.2))

/-- Whether a fence waits for an operation. -/
def fenceMeets (id : Nat) (fw : FenceWait) : Bool := fw.ops.contains id

/-- A remote store that failed: each fence that waits for it takes its status; where none does, its group keeps the first such
error for its next point of delivery (R118; DEDUCED, log entry 110). -/
def storeFailed (id : Nat) (w : Where) (st : Status) (d : Dev) : Dev :=
  let met := d.blocks.any (fun b => b.groups.any (fun g => g.fences.any (fenceMeets id)))
  if met then
    let hit := fun (fw : FenceWait) => if fenceMeets id fw then { fw with status := firstBad fw.status st } else fw
    { d with blocks := d.blocks.map (fun b => { b with groups := b.groups.map (fun g => { g with fences := g.fences.map hit }) }) }
  else modGroup w (fun g => { g with storeError := some (g.storeError.getD st) }) d

/-- A group's remote store or atomic that has been acknowledged. -/
def dropPending (w : Where) (id : Nat) (d : Dev) : Dev :=
  modGroup w (fun g => { g with stores := g.stores.filter (fun p => p.op != id) }) d

/-- The end of a thread's remote access (R96, R118, R355). -/
def endThreadOp (id : Nat) (op : FabOp) (d : Dev) : Dev :=
  let d := removeOp id op d
  match op.use_ with
  | .loadLane w =>
    if op.status ≠ ST.ok then awaitFault w op.status (awaitsOf d w id) d
    else returnAwaits w ((awaitsOf d w id).map (fun a => (a, leNat op.data))) d
  | .storeLane w _ =>
    let d := dropPending w id d
    if op.status = ST.ok then d else storeFailed id w op.status d
  | .atomLane w =>
    let d := dropPending w id d
    if op.status ≠ ST.ok then awaitFault w op.status (awaitsOf d w id) d
    else
      let d := match findBlock d w.grid w.block with
        | some b => if 0 < fdDstBuf op.desc then dropAllBuffered b.core d else d
        | none => d
      returnAwaits w (atomReturns op (awaitsOf d w id)) d
  | _ => d

/-- A host write through the bridge ends (R390). -/
def endHostWrite (id edge : Nat) (op : FabOp) (d : Dev) : Dev :=
  let d := removeOp id op d
  if op.status = ST.ok then d
  else raise (ldPort edge) 0x3121 edge op.status.toNat [] (inc OD.hostWriteFailures d)

/-- The destination counter: local to this device, or a COUNT packet to the device of the first destination byte,
sent after the last acknowledgement (R320, R321 2). -/
def countTarget (op : FabOp) : Option Nat :=
  (op.pkts.head?).map (fun p => gAddr (gDev p.dst) (counterBase + 8 * fdDstCnt op.desc))

/-- Whether the destination counter has still to be raised by a packet of its own. -/
def needsCount (d : Dev) (op : FabOp) : Bool :=
  countsAway d op.desc && !op.counted &&
  !(op.pkts.length == 1 && op.sequenced && op.pkts.all (fun p => decide (p.kind ≠ .count)))

/-- FTT target of a counter when no byte moves: the page of DST (R323). -/
def zeroTarget (d : Dev) (op : FabOp) : Nat :=
  gAddr (gDev ((fttTranslate d.tw.ftt0 op.desc.ctx (fdDst op.desc)).getD (fdDst op.desc)))
    (counterBase + 8 * fdDstCnt op.desc)

/-- One operation completes at its source in the order of R321, once its outcome is decided. -/
def finishOp (id : Nat) (d : Dev) : Dev :=
  match findOp d id with
  | none => d
  | some op =>
    if !decided op then d
    else match op.use_ with
      | .queue =>
        if op.status = ST.ok ∧ needsCount d op then
          setOp id { op with pkts := op.pkts ++ [PktRec.new .count ((countTarget op).getD (zeroTarget d op)) 0 0] } d
        else
          let d := if op.status = ST.ok ∧ fdDstCntEn op.desc ∧ !countsAway d op.desc
            then arrive (fdDstCnt op.desc) d else d
          endQueueOp id op d
      | .antler run =>
        if op.status = ST.ok ∧ needsCount d op then
          setOp id { op with pkts := op.pkts ++ [PktRec.new .count ((countTarget op).getD (zeroTarget d op)) 0 0] } d
        else endAntlerOp id run op d
      | .hostRead _ => d
      | .hostWrite e => endHostWrite id e op d
      | _ => endThreadOp id op d

/-! ## Beginning an operation's own effect -/

/-- A local COPY (R314), line by line of the source. -/
def copyLocal (src dst n : Nat) (d : Dev) : Status × Dev :=
  writePayload dst (bytesAt d src n) (poisonBytes d src n) (touchRead src n d)

/-- An issued operation begins: a local copy is applied at once; the packets of any other may leave. -/
def beginOp (id : Nat) (op : FabOp) (d : Dev) : Dev :=
  if op.fixed ∨ leaves d op.desc then setOp id { op with begun := true } d
  else
    let r := copyLocal (gLocal (fdSrc op.desc)) (gLocal (fdDst op.desc)) (fdLen op.desc) d
    setOp id { op with begun := true, fixed := true, status := r.1, bytes := if r.1 = ST.ok then dstExtent op.desc else 0 } r.2

/-- A flagged store is held until every earlier writing operation of its queue has ended; a covered failure fixes its
status and it is not applied (R129, R130, R318). -/
def coveredFailure (d : Dev) (id : Nat) (op : FabOp) : Option Status :=
  let fq := queueOf d op.slot
  let low := (fq.lastFlag.filter (fun e => e.1 / 2 ^ 32 == op.desc.ctx && e.1 % 2 ^ 32 == id)).head?
  let base := (low.map (fun e => e.2)).getD 0
  ((fq.fails.filter (fun f => f.1 == op.desc.ctx && decide (base ≤ f.2.1) && decide (f.2.1 < id))).foldl
    (fun (m : Option (Nat × Status)) f => match m with
      | some k => if f.2.1 < k.1 then some (f.2.1, f.2.2) else m
      | none => some (f.2.1, f.2.2)) none).map (fun k => k.2)

end Sys2Proof.Machine
end

