-- ==== Sys2Proof/Machine/Fec.lean ====
section
/-!
DEFINITION. The coding of a pair on the lanes of an optical port: scrambler (R367), RS(544,514) and its interleave (R367, R368),
lane markers (R368), the inner code (R369), PAM4 levels with Gray mapping and precoding (R366, R367). What IEEE 802.3 fixes and
the spec only names (the field polynomial, the generator's roots, the order of bits in a symbol and of bits in a level, the
precoder) is PRESUMED from that standard; the columns of the inner code are a DESIGN CHOICE (log entry 121).
-/

namespace Sys2Proof.Machine.Fec

/-! ## Scrambler 1 + x^39 + x^58

Bits stand in the order of their transmission, the first in bit 0. A state is the 58 bits before, the latest in bit 57. -/

/-- The state after a run of bits of a length. -/
def scrState (prev bits len : Nat) : Nat := (prev + bits * 2 ^ 58) >>> len % 2 ^ 58

/-- Bits scrambled, at most 39 at a time: each is the input, the bit 39 before and the bit 58 before. -/
def scramble : Nat → Nat → Nat → Nat → Nat
  | 0, _, _, _ => 0
  | fuel + 1, prev, bits, len =>
    let k := Nat.min len 39
    let s := Nat.xor (Nat.xor (bits % 2 ^ k) ((prev >>> 19) % 2 ^ k)) (prev % 2 ^ k)
    if len ≤ 39 then s else s + 2 ^ k * scramble fuel (scrState prev s k) (bits >>> k) (len - k)

/-- Scrambled bits restored. -/
def descramble (prev bits len : Nat) : Nat :=
  let w := prev + bits * 2 ^ 58
  Nat.xor (Nat.xor bits ((w >>> 19) % 2 ^ len)) (w % 2 ^ len)

/-! ## GF(2^10), x^10 + x^3 + 1 -/

/-- Times the primitive element. -/
def gfDouble (a : Nat) : Nat := if a < 512 then 2 * a else Nat.xor (2 * a) 0x409

def gfMulFrom : Nat → Nat → Nat → Nat → Nat
  | 0, _, _, acc => acc
  | n + 1, a, b, acc => gfMulFrom n (gfDouble a) (b / 2) (if b % 2 = 1 then Nat.xor acc a else acc)

def gfMul (a b : Nat) : Nat := if a = 0 ∨ b = 0 then 0 else gfMulFrom 10 a b 0

/-- A power of the primitive element. -/
def gfExp : Nat → Nat
  | 0 => 1
  | n + 1 => gfDouble (gfExp n)

/-- The inverse: the 1,022nd power, as the product of nine squares. -/
def gfInv (a : Nat) : Nat :=
  ((List.range 9).foldl (fun (s : Nat × Nat) _ => let q := gfMul s.1 s.1; (q, gfMul s.2 q)) (a, 1)).2

/-- The value at a point of a polynomial whose coefficients stand from the lowest. -/
def polyAt (p : List Nat) (x : Nat) : Nat := p.foldr (fun c v => Nat.xor c (gfMul v x)) 0

/-! ## RS(544,514): symbols in the order of transmission, the highest power first -/

/-- Coefficients of the generator below its leading one, from the highest; its roots are the powers 0 to 29. -/
def generator : List Nat :=
  ((List.range 30).foldl (fun p j => List.zipWith Nat.xor (p ++ [0]) (0 :: p.map (gfMul (gfExp j)))) [1]).drop 1

/-- One symbol more divided by the generator. -/
def divStep (r : List Nat) (m : Nat) : List Nat :=
  let f := Nat.xor m (r.headD 0)
  let sh := r.drop 1 ++ [0]
  if f = 0 then sh else List.zipWith Nat.xor sh (generator.map (gfMul f))

/-- The 30 parity symbols of 514 message symbols. -/
def parity (m : List Nat) : List Nat := m.foldl divStep (List.replicate 30 0)

def encodeWord (m : List Nat) : List Nat := m ++ parity m

/-- What a received word leaves when divided by the generator; zeros for a codeword. -/
def remainder (w : List Nat) : List Nat := List.zipWith Nat.xor (parity (w.take 514)) (w.drop 514)

/-- The error locator of 30 syndromes, from its lowest coefficient, and its degree (Berlekamp and Massey). -/
def locator (s : List Nat) : List Nat × Nat :=
  let start : List Nat × List Nat × Nat × Nat × Nat := ([1], [1], 0, 1, 1)
  let r := (List.range 30).foldl (fun (x : List Nat × List Nat × Nat × Nat × Nat) n =>
    let (c, b, l, m, last) := x
    let dis := (List.range (l + 1)).foldl (fun v i => Nat.xor v (gfMul (c.getD i 0) (s.getD (n - i) 0))) 0
    if dis = 0 then (c, b, l, m + 1, last)
    else
      let k := gfMul dis (gfInv last)
      let add := List.replicate m 0 ++ b.map (gfMul k)
      let n' := Nat.max c.length add.length
      let c' := (List.range n').map (fun i => Nat.xor (c.getD i 0) (add.getD i 0))
      if 2 * l ≤ n then (c', c, n + 1 - l, 1, dis) else (c', b, l, m + 1, last)) start
  (r.1, r.2.2.1)

/-- A received word corrected: the codeword within 15 symbols of it, and the positions corrected; none where there is no such
codeword. Whatever the locator gives, only a codeword is answered. -/
def decodeWord (w : List Nat) : Option (List Nat × List Nat) :=
  let rem := remainder w
  if rem.all (· = 0) then some (w, [])
  else
    let s := (List.range 30).map (fun j => polyAt rem.reverse (gfExp j))
    let (loc, deg) := locator s
    let omega := (List.range 30).map (fun n => (List.range (n + 1)).foldl (fun v i =>
      Nat.xor v (gfMul (loc.getD i 0) (s.getD (n - i) 0))) 0)
    let slope := loc.zipIdx.map (fun c => if c.2 % 2 = 1 then c.1 else 0)
    let fix := (List.range 544).filterMap (fun q =>
      let e := 543 - q
      let inv := gfExp ((1023 - e) % 1023)
      if polyAt loc inv = 0 then
        -- the derivative at the point is the sum of the odd terms over the point
        let dl := gfMul (polyAt slope inv) (gfExp e)
        some (q, gfMul (gfExp e) (gfMul (polyAt omega inv) (gfInv dl)))
      else none)
    let w' := w.zipIdx.map (fun c => Nat.xor c.1 (((fix.find? (fun f => f.1 == c.2)).map (fun f => f.2)).getD 0))
    if fix.length = deg ∧ deg ≤ 15 ∧ (remainder w').all (· = 0) then some (w', fix.map (fun f => f.1)) else none

/-! ## The pair and its lanes (R368) -/

/-- Bits of a pair's message, and of a lane's part of a pair. -/
abbrev messageBits : Nat := 10280
abbrev laneBits : Nat := 2720

/-- Symbols packed, the first lowest. -/
def pack (s : List Nat) : Nat := s.foldr (fun x v => x + 1024 * v) 0

/-- Symbol i of packed symbols. -/
def symbol (v i : Nat) : Nat := (v >>> (10 * i)) % 1024

/-- Message symbols of codeword c of a pair: every second symbol of the stream. -/
def messageOf (bits c : Nat) : List Nat := (List.range 514).map (fun i => symbol bits (2 * i + c))

/-- The bits of the four logical lanes: pair symbol i on lane ⌊i / 2⌋ mod 4. -/
def toLanes (a b : List Nat) : List Nat :=
  (List.range 4).map (fun l => pack ((List.range 136).flatMap (fun m => [a.getD (4 * m + l) 0, b.getD (4 * m + l) 0])))

/-- Codeword c as the lanes carry it. -/
def fromLanes (lanes : List Nat) (c : Nat) : List Nat :=
  (List.range 544).map (fun q => symbol (lanes.getD (q % 4) 0) (2 * (q / 4) + c))

/-- A scrambled message on the four logical lanes. -/
def encodePair (bits : Nat) : List Nat := toLanes (encodeWord (messageOf bits 0)) (encodeWord (messageOf bits 1))

/-- The message of two words. -/
def joinMessage (a b : List Nat) : Nat := pack ((List.zip (a.take 514) (b.take 514)).flatMap (fun p => [p.1, p.2]))

/-- The scrambled message of a received pair and the symbols corrected on each logical lane; none where a codeword is
uncorrectable. -/
def decodePair (lanes : List Nat) : Option (Nat × List Nat) :=
  match decodeWord (fromLanes lanes 0), decodeWord (fromLanes lanes 1) with
  | some a, some b =>
    let at_ := a.2 ++ b.2
    some (joinMessage a.1 b.1, (List.range 4).map (fun l => (at_.filter (fun q => q % 4 == l)).length))
  | _, _ => none

/-- The message of a received pair as it came, uncorrected. -/
def rawMessage (lanes : List Nat) : Nat := joinMessage (fromLanes lanes 0) (fromLanes lanes 1)

/-! ## The inner code (350,340) (R369) -/

/-- Check column of each of the 340 data bits: the numbers from 3 that are no powers of two. -/
def columns : List Nat :=
  ((List.range 512).filter (fun n => decide (2 < n) && !([4, 8, 16, 32, 64, 128, 256].contains n))).take 340

def parityOf (n len : Nat) : Nat := ((List.range len).filter (fun i => n.testBit i)).length % 2

/-- The nine checks of 340 data bits. -/
def checks (data : Nat) : Nat := columns.zipIdx.foldl (fun v c => if data.testBit c.2 then Nat.xor v c.1 else v) 0

/-- A block: data, checks, and the bit that makes the number of ones even. -/
def innerBlock (data : Nat) : Nat :=
  let x := data + 2 ^ 340 * checks data
  x + 2 ^ 349 * parityOf x 349

/-- A block's data: one wrong bit put right, a double error passed on. -/
def innerData (block : Nat) : Nat :=
  let data := block % 2 ^ 340
  let syn := Nat.xor (checks data) (block >>> 340 % 2 ^ 9)
  if parityOf block 350 = 0 ∨ syn = 0 then data
  else match columns.findIdx? (fun c => c == syn) with
    | some i => Nat.xor data (2 ^ i)
    | none => data

/-- A lane's part of a pair in eight blocks, and back. -/
def innerEncode (bits : Nat) : Nat :=
  ((List.range 8).map (fun i => innerBlock (bits >>> (340 * i) % 2 ^ 340))).foldr (fun x v => x + 2 ^ 350 * v) 0
def innerDecode (bits : Nat) : Nat :=
  ((List.range 8).map (fun i => innerData (bits >>> (350 * i) % 2 ^ 350))).foldr (fun x v => x + 2 ^ 340 * v) 0

/-- Bits of a lane's part of a pair with the inner code on or off. -/
def codedBits (inner : Bool) : Nat := if inner then 2800 else laneBits
def codeLane (inner : Bool) (bits : Nat) : Nat := if inner then innerEncode bits else bits
def uncodeLane (inner : Bool) (bits : Nat) : Nat := if inner then innerDecode bits else bits % 2 ^ laneBits

/-! ## Markers (R368) -/

/-- The 100 bits of a lane marker; the spare's lane number is 7. -/
def marker (port lane pair : Nat) : Nat := 0x3C5A96E1 + port % 32 * 2 ^ 32 + lane % 8 * 2 ^ 37 + pair % 2 ^ 16 * 2 ^ 40

/-- Whether a marker stands before a pair, by its count. -/
def marked (pair : Nat) : Bool := pair % 8192 == 0

/-- Bits that stand before a pair on a lane. -/
def markerBits (pair : Nat) : Nat := if marked pair then 100 else 0

/-! ## Levels

A lane's levels are the digits to base 4 of a number, the first lowest. Of the two bits of a level the first is the upper one of
the Gray code: 00, 01, 11, 10 are the levels 0 to 3. -/

/-- Ones in the even bits below 2n. -/
def evenMask (n : Nat) : Nat := (4 ^ n - 1) / 3

def toLevels (bits n : Nat) : Nat :=
  let first := Nat.land bits (evenMask n)
  let second := Nat.land (bits >>> 1) (evenMask n)
  2 * first + Nat.xor first second

def fromLevels (levels n : Nat) : Nat :=
  let first := Nat.land (levels >>> 1) (evenMask n)
  let low := Nat.land levels (evenMask n)
  first + 2 * Nat.xor first low

/-- 1/(1+D) modulo 4: each level sent is the level less the one sent before. -/
def precode : Nat → Nat → Nat → Nat
  | 0, _, _ => 0
  | n + 1, last, levels =>
    let s := (levels + 4 - last) % 4
    s + 4 * precode n s (levels / 4)

/-- The precoder undone: each level received plus the one before, modulo 4. -/
def unprecode (n last levels : Nat) : Nat :=
  let before := (levels * 4 + last) % 4 ^ n
  let low := evenMask n
  let a := Nat.land levels low
  let b := Nat.land before low
  let hi := Nat.xor (Nat.xor (Nat.land (levels >>> 1) low) (Nat.land (before >>> 1) low)) (Nat.land a b)
  2 * hi + Nat.xor a b

/-- The last of n levels. -/
def lastLevel (n levels : Nat) : Nat := if n = 0 then 0 else levels >>> (2 * (n - 1)) % 4

end Sys2Proof.Machine.Fec
end

