-- ==== Sys2Proof/Machine/Flits.lean ====
section
/-!
DEFINITION. The byte stream of a port: headers and items (R372-R375), flits and their CRC (R371), credits (R377), what a
port sends next and what it takes from a flit (R378), and the lanes that carry it (R365-R369, R380).
-/

namespace Sys2Proof.Machine

/-! ## Headers -/

def opkCode : PktKind → Nat
  | .store => 1 | .atomic => 2 | .accum => 3 | .write => 4 | .read => 5 | .count => 6

def opkOf : Nat → Option PktKind
  | 1 => some .store | 2 => some .atomic | 3 => some .accum | 4 => some .write | 5 => some .read | 6 => some .count
  | _ => none

/-- Whether LEN bytes of payload follow the header: of a READ, LEN is what it asks for (R372, R373). -/
def carries (k : PktKind) : Bool := k != .read

/-- The FULL header of R373; the template slot is the low byte of the source slot (log entry 16). -/
def fullHeader (p : Packet) : Bytes :=
  let b := fun (x : Bool) (i : Nat) => if x then 2 ^ i else 0
  leBytes 8 (1 + p.slot % 256 * 2 ^ 2 + opkCode p.opk * 2 ^ 10 + b p.retx 14 + b p.prio 15 + b p.cntEn 16 +
    p.len % 512 * 2 ^ 17 + p.entropy % 2 ^ 16 * 2 ^ 26 + p.ctx % 64 * 2 ^ 42 + p.srcDev % 2 ^ 15 * 2 ^ 48) ++
  leBytes 8 p.dst ++
  leBytes 8 (p.slot % 2 ^ 14 + p.seq % 2 ^ 32 * 2 ^ 14 + p.epoch % 2 ^ 16 * 2 ^ 46) ++
  leBytes 8 (p.relmark % 2 ^ 32 + p.cnt % 2 ^ 16 * 2 ^ 32 + p.code % 256 * 2 ^ 48) ++
  leBytes 8 p.operand.toNat ++ leBytes 8 p.compare.toNat

/-- The packet that a FULL header and its payload give; none for an undefined OPK. -/
def packetOf (h : Bytes) (payload : Bytes) : Option Packet :=
  let w := fun i => leNat ((h.drop (8 * i)).take 8)
  (opkOf (nfld (w 0) 13 10)).map (fun k =>
    { opk := k, retx := (w 0).testBit 14, prio := (w 0).testBit 15, cntEn := (w 0).testBit 16, len := nfld (w 0) 25 17,
      entropy := nfld (w 0) 41 26, ctx := nfld (w 0) 47 42, srcDev := nfld (w 0) 62 48, dst := w 1,
      slot := nfld (w 2) 13 0, seq := nfld (w 2) 45 14, epoch := nfld (w 2) 61 46, relmark := nfld (w 3) 31 0,
      cnt := nfld (w 3) 47 32, code := nfld (w 3) 55 48, operand := BitVec.ofNat 64 (w 4),
      compare := BitVec.ofNat 64 (w 5), payload, poison := [] })

/-- The RESP header of R375. -/
def respHeader (r : Resp) : Bytes :=
  let b := fun (x : Bool) (i : Nat) => if x then 2 ^ i else 0
  leBytes 8 (3 + r.slot % 2 ^ 14 * 2 ^ 2 + r.dstDev % 2 ^ 15 * 2 ^ 16 + b r.hot 31 + b r.busy 32 + b r.lost 33 +
    r.epoch % 2 ^ 16 * 2 ^ 34 + r.pbase % 2 ^ 14 * 2 ^ 50) ++
  leBytes 8 (r.seq % 2 ^ 32 + r.status.toNat * 2 ^ 32 + r.data.length % 512 * 2 ^ 48) ++
  leBytes 8 (r.mask % 2 ^ 32)

/-- The response that a RESP header and its data give. -/
def respFrom (h : Bytes) (data : Bytes) : Resp :=
  let w := fun i => leNat ((h.drop (8 * i)).take 8)
  { slot := nfld (w 0) 15 2, dstDev := nfld (w 0) 30 16, hot := (w 0).testBit 31, busy := (w 0).testBit 32,
    lost := (w 0).testBit 33, epoch := nfld (w 0) 49 34, pbase := nfld (w 0) 63 50, seq := nfld (w 1) 31 0,
    status := BitVec.ofNat 16 (nfld (w 1) 47 32), mask := nfld (w 2) 31 0, data, poison := [] }

/-- The bytes of an item; requests always leave as FULL items (log entry 16). -/
def itemBytes : Item → Bytes
  | .req p => fullHeader p ++ (if carries p.opk then p.payload else [])
  | .resp r => respHeader r ++ r.data

/-- Credits an item needs: one per 64 bytes. -/
def creditsFor (n : Nat) : Nat := (n + 63) / 64

/-! ## Flits (R371) -/

/-- One bit of CRC-16, polynomial 0x1021. -/
def crcBit (crc : Nat) (b : Bool) : Nat :=
  let top := crc.testBit 15 != b
  let sh := crc * 2 % 2 ^ 16
  if top then Nat.xor sh 0x1021 else sh

/-- One byte, most significant bit first. -/
def crcByte (crc : Nat) (b : Byte) : Nat := [7, 6, 5, 4, 3, 2, 1, 0].foldl (fun c i => crcBit c (bit b i)) crc

def crc16 (bs : Bytes) : Nat := bs.foldl crcByte 0xFFFF

/-- The header without its CRC. -/
def flitHead (kind seq ack cvc crd : Nat) : Nat :=
  crd % 4096 * 2 ^ 24 + cvc % 4 * 2 ^ 36 + ack % 4096 * 2 ^ 38 + seq % 4096 * 2 ^ 50 + kind % 4 * 2 ^ 62

/-- Body bytes of a flit. -/
abbrev bodySize : Nat := 1277

/-- A body filled with PAD to its size. -/
def fillBody (b : Bytes) : Bytes := b ++ List.replicate (bodySize - b.length) 0

/-- The header with the CRC over the 1,285 bytes. -/
def sealFlit (head : Nat) (body : Bytes) : W64 := BitVec.ofNat 64 (head + crc16 (leBytes 8 head ++ body))

/-- Whether a flit of 1,285 bytes carries the CRC of its bytes. -/
def flitGood (flit : Bytes) : Bool :=
  let h := leNat (flit.take 8)
  flit.length == 8 + bodySize && h % 2 ^ 16 == crc16 (leBytes 8 (h / 2 ^ 16 * 2 ^ 16) ++ flit.drop 8)

/-! ## Items taken from the stream (R372, R374) -/

/-- Items read from a stream: the items, the credits their channels get back, the templates, the bytes of an item that
is not complete yet. -/
structure Taken where
  items : List Item
  c0 : Nat
  c1 : Nat
  templates : Map Packet
  rest : Bytes
  deriving DecidableEq, Repr

/-- The packet that a CONT header stands for. -/
def contPacket (p : Nat) (t : Packet) (idx : Nat) (payload : Bytes) : Packet :=
  let dst := (t.dst + p * idx) % 2 ^ 64
  { t with dst, len := p, retx := false, payload,
           entropy := flowKey t.slot (gDev dst) (gLocal dst) 0 }

/-- The items at the front of a stream whose link's packet payload is p, at most n of them. An item of an undefined OPK,
and a CONT item of an empty template slot, are passed over (log entry 16). -/
def takeItems (p : Nat) : Nat → Taken → Taken
  | 0, t => t
  | n + 1, t =>
    match t.rest with
    | [] => t
    | b :: bs =>
      let add := fun (it : Option Item) => match it with | some i => t.items ++ [i] | none => t.items
      if fld b 1 0 = 0 then takeItems p n { t with rest := bs }
      else if fld b 1 0 = 1 then
        let w := leNat (t.rest.take 8)
        let len := if ((opkOf (nfld w 13 10)).map carries).getD true then nfld w 25 17 else 0
        if t.rest.length < 48 + len then t
        else
          let it := packetOf (t.rest.take 48) ((t.rest.drop 48).take len)
          takeItems p n { t with
            items := add (it.map Item.req), c0 := t.c0 + creditsFor (48 + len), rest := t.rest.drop (48 + len),
            templates := match it with | some q => mset t.templates (nfld w 9 2) q | none => t.templates }
      else if fld b 1 0 = 2 then
        if t.rest.length < 3 + p then t
        else
          let w := leNat (t.rest.take 3)
          let it := (mfind t.templates (nfld w 9 2)).map (fun q => contPacket p q (nfld w 23 10) ((t.rest.drop 3).take p))
          takeItems p n { t with items := add (it.map Item.req), c0 := t.c0 + creditsFor (3 + p), rest := t.rest.drop (3 + p) }
      else
        let len := nfld (leNat ((t.rest.drop 8).take 8)) 56 48
        if t.rest.length < 24 ∨ t.rest.length < 24 + len then t
        else
          takeItems p n { t with
            items := t.items ++ [.resp (respFrom (t.rest.take 24) ((t.rest.drop 24).take len))],
            c1 := t.c1 + creditsFor (24 + len), rest := t.rest.drop (24 + len) }

/-! ## Items put into a body (R377) -/

/-- The next item that has its credits: a response before a request (log entry 16). -/
def nextItem (x : Port) : Option (Item × Port) :=
  let second := match x.vc0 with
    | i :: l => if creditsFor (itemBytes i.item).length ≤ x.credit0
        then some (i.item, { x with vc0 := l, credit0 := x.credit0 - creditsFor (itemBytes i.item).length }) else none
    | [] => none
  match x.vc1 with
  | i :: l => if creditsFor (itemBytes i.item).length ≤ x.credit1
      then some (i.item, { x with vc1 := l, credit1 := x.credit1 - creditsFor (itemBytes i.item).length }) else second
  | [] => second

/-- A body filled from the rest of the item in hand and from the queues: at most n items. The body, the items that end
in it, and the port. -/
def fillFrom : Nat → Bytes → List Item → Port → Bytes × List Item × Port
  | 0, body, ended, x => (body, ended, x)
  | n + 1, body, ended, x =>
    let room := bodySize - body.length
    match x.tailItem with
    | some it =>
      let body' := body ++ x.tail.take room
      if x.tail.length ≤ room then fillFrom n body' (ended ++ [it]) { x with tail := [], tailItem := none }
      else (body', ended, { x with tail := x.tail.drop room })
    | none =>
      if room = 0 then (body, ended, x)
      else match nextItem x with
        | some (it, x') => fillFrom n body ended { x' with tail := itemBytes it, tailItem := some it }
        | none => (body, ended, x)

/-- ACK: the latest DATA SEQ received in order. -/
def ackOf (x : Port) : Nat := (x.rxNext + 4095) % 4096

/-- The credit return of the next flit: channel code, count, port. -/
def creditReturn (x : Port) : Nat × Nat × Port :=
  if 0 < x.return1 then (2, Nat.min x.return1 4095, { x with return1 := x.return1 - Nat.min x.return1 4095 })
  else if 0 < x.return0 then (1, Nat.min x.return0 4095, { x with return0 := x.return0 - Nat.min x.return0 4095 })
  else (0, 0, x)

/-- The body of a CONTROL flit; the bytes of LANE_MOVE after its code are the logical lane and the pair count in two
bytes (DESIGN CHOICE, log entry 16). -/
def controlBody : Control → Bytes
  | .nak seq => 0x01 :: leBytes 2 (seq % 4096)
  | .laneMove lane pair => 0x02 :: BitVec.ofNat 8 lane :: leBytes 2 (pair % 2 ^ 16)
  | .retrain => [0x03]

/-! ## Lanes (R365, R380) -/

/-- The field STATE of a port. -/
def portSt (d : Dev) (p : Nat) : Nat := nfld (portState d p) 2 0
def setPortSt (p st : Nat) (d : Dev) : Dev := wr (OD.portState + p) (portState d p / 8 * 8 + st) d

/-- Whether the inner code of a port is on (R369). -/
def portInner (d : Dev) (p : Nat) : Bool := (portState d p).testBit 7

/-- Physical lane of a logical lane. -/
def laneAt (d : Dev) (p i : Nat) : Nat := nfld (rd d (OD.laneMap + p)) (3 * i + 2) (3 * i)
/-- Logical lane that a physical lane carries. -/
def logicalOf (d : Dev) (p k : Nat) : Option Nat := (List.range 4).find? (fun i => laneAt d p i == k)
def laneFailed (d : Dev) (p k : Nat) : Bool := (rd d (OD.laneMap + p)).testBit (12 + k)

/-- Whether the spare carries a logical lane. -/
def spareUsed (d : Dev) (p : Nat) : Bool := (logicalOf d p 4).isSome

/-- Whether a lane can move to the spare: it is unused and good, and the peer has one. -/
def spareFree (d : Dev) (p : Nat) : Bool := !spareUsed d p && !laneFailed d p 4 && portGen d p != 1

/-- Whether a count of pairs has reached an agreed one, modulo 2^16. -/
def pairReached (count pair : Nat) : Bool := decide ((count + 2 ^ 16 - pair) % 2 ^ 16 < 2 ^ 15)

/-- Physical lane of a logical lane at a count of pairs: the spare once an agreed move is due. -/
def laneNow (d : Dev) (p : Nat) (x : Port) (count i : Nat) : Nat :=
  match x.moving with
  | some (j, pair) => if i = j ∧ pairReached count pair then 4 else laneAt d p i
  | none => laneAt d p i

/-- A logical lane carried on the spare: the map, EV_3101, its count, the port's state. -/
def moveLane (p i : Nat) (d : Dev) : Dev :=
  let m := rd d (OD.laneMap + p)
  let d := wr (OD.laneMap + p) (m - laneAt d p i * 2 ^ (3 * i) + 4 * 2 ^ (3 * i)) d
  let d := raise (ldPort (p / 16)) 0x3101 p i [] (inc OD.laneMoves (setPortSt p 3 d))
  setReady (fabricPortFn p) RS.degraded 2 d

/-- An agreed move is made once the pairs of both directions have reached its count; each direction has carried the lane on the
spare from that pair on. -/
def settleMove (p : Nat) (d : Dev) : Dev :=
  let x := portOf d p
  match x.moving with
  | none => d
  | some (i, pair) =>
    if pairReached x.txPairs pair && pairReached x.rxPairs pair then
      let d := setPort p { x with moving := none } d
      if spareFree d p then moveLane p i d else d
    else d

/-- The levels that a pair puts on a physical lane: the coded bits of the logical lane it carries, after a marker where one is due;
on the spare the marker and whatever else; none on a lane that has failed, nor on L4 toward a peer without a spare. -/
def driveLane (d : Dev) (p : Nat) (x : Port) (logical : List Nat) (k : Nat) : Option Nat :=
  let inner := portInner d p
  match (List.range 4).find? (fun i => laneNow d p x x.txPairs i == k) with
  | some i => if laneFailed d p k then none else some (levels i (Fec.codeLane inner (logical.getD i 0)))
  | none => if laneFailed d p k || portGen d p == 1 then none else some (levels 7 (Config.spareLane d.free))
where
  /-- Levels of a lane of a number, from its coded bits. -/
  levels (lane bits : Nat) : Nat :=
    let m := Fec.markerBits x.txPairs
    let n := (m + Fec.codedBits (portInner d p)) / 2
    let mark := if m = 0 then 0 else Fec.marker p lane x.txPairs
    let v := Fec.toLevels ((mark + 2 ^ m * bits) % 4 ^ n) n
    if x.precode then Fec.precode n (x.txLast.getD k 0) v else v

/-- A flit put on the lanes of a port: scrambled, coded as one pair, and laid on the lanes that carry it. -/
def putFlit (p kind seq : Nat) (body : Bytes) (x : Port) (d : Dev) : Dev :=
  let r := creditReturn x
  let b := fillBody body
  let h := sealFlit (flitHead kind seq (ackOf x) r.1 r.2.1) b
  let s := Fec.scramble 264 x.txScr (leNat (leBytes 8 h.toNat ++ b)) Fec.messageBits
  let lanes := (List.range 5).map (driveLane d p x (Fec.encodePair s))
  let n := (Fec.markerBits x.txPairs + Fec.codedBits (portInner d p)) / 2
  let f : SentFlit := { port := p, header := h, body := b, pair := x.txPairs, lanes }
  let y : Port := { r.2.2 with
    txScr := Fec.scrState x.txScr s Fec.messageBits, txPairs := (x.txPairs + 1) % 2 ^ 16,
    txLast := lanes.map (fun l => Fec.lastLevel n (l.getD 0)) }
  settleMove p (setPort p y (drew { d with sentFlits := d.sentFlits ++ [f] }))

/-- FLIT_TRANSMIT: a waiting CONTROL flit, else the next flit to send again, else a DATA flit of new items while fewer than
512 are unacknowledged, else an IDLE flit. -/
def flitTransmit (p : Nat) (d : Dev) : Dev :=
  if !portUp d p then d
  else
    let x := portOf d p
    match x.control with
    | c :: l => putFlit p 2 0 (controlBody c) { x with control := l } d
    | [] =>
      match x.resend with
      | k :: l => putFlit p 0 k.seq k.body { x with resend := l } (inc OD.flitsReplayed d)
      | [] =>
        let f := fillFrom (2 * (x.vc0.length + x.vc1.length) + 3) [] [] x
        if x.kept.length < 512 ∧ f.1 ≠ [] then
          let y := f.2.2
          let k : KeptFlit := { seq := x.txSeq, body := fillBody f.1, sentAt := d.tick, items := f.2.1 }
          putFlit p 0 x.txSeq f.1 { y with
            txSeq := (x.txSeq + 1) % 4096, kept := x.kept ++ [k],
            ackAt := if x.kept.isEmpty then d.tick else x.ackAt } d
        else putFlit p 1 0 [] x d

def execFlitTransmit (port : Nat) (s : State) : Out := onDev (flitTransmit port) s

/-! ## Receiving -/

/-- A NAK asked for: one per missing SEQ, the next one 2 µs later. -/
def askNak (p : Nat) (d : Dev) : Dev :=
  let x := portOf d p
  let free := match x.nakAt with
    | some t => decide (t + 2 ≤ d.tick)
    | none => true
  if free then setPort p { x with control := x.control ++ [.nak x.rxNext], nakAt := some d.tick } d else d

/-- A NAK received, or ACK overdue: every unacknowledged flit is sent again, in order. -/
def resendAll (p : Nat) (d : Dev) : Dev :=
  let x := portOf d p
  setPort p { x with resend := x.kept, ackAt := d.tick } d

/-- Flits up to an acknowledged SEQ leave the replay buffer. -/
def takeAck (tick ack : Nat) (x : Port) : Port :=
  match x.kept.findIdx? (fun k => k.seq == ack) with
  | some i =>
    let left := x.kept.drop (i + 1)
    { x with kept := left, resend := x.resend.filter (fun k => left.any (fun l => l.seq == k.seq)), ackAt := tick }
  | none => x

/-- Credits returned. -/
def takeCredits (cvc crd : Nat) (x : Port) : Port :=
  if cvc = 1 then { x with credit0 := x.credit0 + crd } else if cvc = 2 then { x with credit1 := x.credit1 + crd } else x

/-- A DATA flit that is the next in order: its body joins the stream. -/
def takeData (p payload : Nat) (body : Bytes) (d : Dev) : Dev :=
  let x := portOf d p
  let t := takeItems payload (x.rx.length + body.length)
    { items := [], c0 := 0, c1 := 0, templates := x.templates, rest := x.rx ++ body }
  setPort p { x with
    rxNext := (x.rxNext + 1) % 4096, nakAt := none, templates := t.templates, rx := t.rest,
    arrived := x.arrived ++ t.items, return0 := x.return0 + t.c0, return1 := x.return1 + t.c1 } d

/-- The window of 1 ms over which the symbols corrected in each logical lane are counted, and the pairs (R370). -/
def countCorrected (p : Nat) (corrected : List Nat) (d : Dev) : Dev :=
  let x := portOf d p
  let fresh := decide (x.windowAt + 1000 ≤ d.tick)
  let start := if fresh then [] else x.laneErrs
  let errs := corrected.zipIdx.foldl (fun (m : Map Nat) c => mput 0 m c.2 (mget 0 m c.2 + c.1)) start
  setPort p { x with laneErrs := errs, windowPairs := (if fresh then 0 else x.windowPairs) + 1,
                     windowAt := if fresh then d.tick else x.windowAt } d

/-- The pre-FEC error ratio of a logical lane over the window: corrected symbols to the bits that the lane has carried (DESIGN
CHOICE, log entry 121). -/
def laneRatio (x : Port) (i : Nat) : ℚ :=
  let errs : Nat := mget 0 x.laneErrs i
  mkRat errs (x.windowPairs * Fec.laneBits)

/-- The packet that the next arrival of a request or response takes from the ports' received items. -/
def takeArrived (it : Item) (d : Dev) : Dev :=
  match (List.range 32).find? (fun p => (portOf d p).arrived.contains it) with
  | some p => setPort p { portOf d p with arrived := (portOf d p).arrived.erase it } d
  | none => d

end Sys2Proof.Machine
end

