-- ==== Sys2Proof/Machine/Requests.lean ====
section
/-!
DEFINITION. Dictionary requests, the shared part: the rights of paths (R10, R551), the owner of an object (R564, R568),
refusal out of state (R555), replies (R545, R552, R553), and command objects (R554).
-/

namespace Sys2Proof.Machine

/-! ## Paths -/

/-- Session ID of a path, 0 where it has none. -/
def pathSession : Path → Nat
  | .field n => n
  | .mailbox n => n
  | _ => 0

/-- Whether a session is open. -/
def sessionOpen (d : Dev) (n : Nat) : Bool := n != 0 && (mfind d.hv.sessions n).isSome

/-- Whether a path is authenticated. -/
def authed (d : Dev) : Path → Bool
  | .field n => sessionOpen d n
  | .mailbox n => sessionOpen d n
  | .slot n => decide (n < 4)
  | .service => false

/-- Whether a path may write an object of an access code. -/
def mayWrite (d : Dev) (p : Path) (a : Access) : Bool :=
  match a with
  | .const => false
  | .ro => false
  | .rws => authed d p
  | _ => authed d p || (match p with | .slot _ => true | _ => false)

/-- Whether a path may read an object. -/
def mayRead (d : Dev) (p : Path) (index : Nat) (a : Access) : Bool :=
  let named := (decide (0x1000 ≤ index) && decide (index ≤ 0x10FF)) || (decide (0x2000 ≤ index) && decide (index ≤ 0x20FF))
  a != .wo && (authed d p || named || (match p with | .slot _ => true | _ => false))

/-- Who holds the snapshot and stage of a path. -/
def clientOf : Path → Client
  | .slot n => .slot n
  | p => .session (pathSession p)

/-- Whether the management cores run: not before a start, during a Hivan restart, or once they have failed. -/
def coresRun (d : Dev) : Bool := d.hv.running && !d.hv.restarting && readyState d OD.readyManagement != RS.failed

/-- Whether Hivan answers at all: it runs, and the management function has not failed (R568). On the service interface the
security root answers, while its pin is tied (R617); the field network is up only with a node ID (R543). -/
def answers (d : Dev) (p : Path) : Bool :=
  match p with
  | .service => (d.hv.running || d.hv.stoppedFailed) && d.pow.svcEn
  | .field _ => coresRun d && rd d OD.plcaNodeId != 0
  | _ => coresRun d

/-- Whether a frame names a session that is not open (R550). -/
def unknownSession (d : Dev) (p : Path) : Bool := pathSession p != 0 && !sessionOpen d (pathSession p)

/-! ## Owners (R564) -/

/-- The functions that own an object; it is usable while any of them works (log entry 11). -/
def ownersOf (key : Nat) : List FunctionKey :=
  let i := key / 256
  let n := key % 256
  if i < 0x2120 then [OD.readyManagement]
  else if i < 0x2300 then [OD.readyPower]
  else if i < 0x2800 then computeFns
  else if i = 0x2820 ∨ i = 0x2821 then [edgeFn 0, edgeFn 1]
  else if i = 0x2800 ∨ (0x2808 ≤ i ∧ i < 0x2900) then [OD.readyMemory]
  else if i < 0x2900 then [OD.readyHbm]
  else if i < 0x3100 then linkDies
  else if i = 0x3101 ∨ i = 0x3102 then [fabricPortFn (n - 1)]
  else if i = 0x3110 ∨ i = 0x3111 then
    (if n ≤ 16 then [engineFn ((n - 1) / 2)] else linkDies)
  else if i = 0x3120 ∧ n ≤ 2 then [edgeFn (n - 1)]
  else if i = 0x3120 then [edgeFn (n - 3)]
  else if i < 0x3500 then linkDies
  else if i = 0x3602 then [serviceFn 2]
  else if i = 0x3603 then [serviceFn 3]
  else if i = 0x3604 then [serviceFn 1]
  else if i < 0x3620 then [serviceFn 0]
  else if i < 0x3700 then [serviceFn 4]
  else if 0x6000 ≤ i ∧ i < 0x6100 then [OD.readySecurity]
  else [OD.readyManagement]

/-- The state of an object's owner: the best of its functions, the first one's where none works. -/
def ownerState (d : Dev) (key : Nat) : Nat :=
  match (ownersOf key).find? (works d) with
  | some f => readyState d f
  | none => match (ownersOf key).find? (fun f => readyState d f == RS.init) with
    | some _ => RS.init
    | none => readyState d ((ownersOf key).headD OD.readyManagement)

/-- Command objects that a starting owner refuses (R631). -/
def refusedInInit : List Nat := [OD.contextCommand, OD.fttCommand, OD.fttBulkInsert, OD.localRegionCommand, OD.stepCommand,
  OD.groupCommand, OD.checkpointCommand, OD.faultCommand]

/-- What the owner's state answers to a write (R568, R631). A counter is restarted whatever its owner's state. -/
def ownerStatus (d : Dev) (key : Nat) (counter : Bool) : Status :=
  let st := ownerState d key
  if counter || st == RS.ready || st == RS.degraded then ST.ok
  else if st = RS.init then (if refusedInInit.contains key then ST.state else ST.ok)
  else if st = RS.fenced then ST.fenced else ST.state

/-! ## Refusal out of state (R555) -/

/-- Detail words of a refusal. -/
def refusalPath (p : Path) : Nat :=
  match p with
  | .field n => n * 2 ^ 32
  | .mailbox n => 1 + n * 2 ^ 32
  | .slot n => 2 + n * 2 ^ 8
  | .service => 3

/-- A refusal counted and logged as EV_1104; INST 1 stands for a repetition within 1 s by the same session, which only
raises REPEAT of the entry. -/
def noteRefusal (p : Path) (key unitState : Nat) (d : Dev) : Dev :=
  let who := clientOf p
  let again := d.ev.refusals.any (fun r => decide (r.1 = who) && r.2.1 == key && decide (d.tick ≤ r.2.2.1 + 1000000))
  let d := inc OD.stateRefusals d
  let kept := d.ev.refusals.filter (fun r => !(decide (r.1 = who) && r.2.1 == key))
  raise hivanPort 0x1104 (if again then 1 else 0) key
    [refusalPath p, unitState % 256 + ownerState d key % 8 * 2 ^ 8]
    { d with ev := { d.ev with refusals := kept ++ [(who, key, d.tick, 0)] } }

/-! ## Replies (R545) -/

/-- The payload of a reply. -/
def replyBytes (st : Status) (size offset : Nat) (data : Bytes) : Bytes :=
  leBytes 8 (st.toNat + size * 2 ^ 32) ++ leBytes 8 (offset + data.length * 2 ^ 32) ++ data

/-- A session's request is done: its SEQ, its kept reply, and the time of its latest frame (R547, R550). -/
def sessionDone (n : Nat) (payload : Bytes) (d : Dev) : Dev :=
  match mfind d.hv.sessions n with
  | some s =>
    let s' : Session := { s with lastSeq := (s.lastSeq + 1) % 2 ^ 32, lastReply := payload, lastFrame := d.tick, tagFails := 0 }
    { d with hv := { d.hv with sessions := mset d.hv.sessions n s' } }
  | none => d

/-! ## Frames (R544, R550, R553) -/

/-- The 16-byte header of a frame. -/
def frameHeader (f : Frame) : Bytes :=
  leBytes 8 (f.version + f.type * 2 ^ 8 + f.fragLast * 2 ^ 16 + f.fragIdx * 2 ^ 20 + (if f.tagged then 2 ^ 24 else 0) +
    f.session * 2 ^ 32) ++ leBytes 8 (f.seq + f.payload.length * 2 ^ 32)

/-- A frame as it stands in a buffer. -/
def frameBytes (f : Frame) : Bytes := frameHeader f ++ f.payload ++ f.tag

/-- The tag of a frame under a key (R550). -/
def frameTag (key : Bytes) (f : Frame) : Bytes :=
  Config.kmac256 key (frameHeader f ++ f.payload) 256 (ascii "HDP1 frame")

/-- Fragment i of n of a message, tagged where a key is given. -/
def fragment (key : Option Bytes) (session type seq n i : Nat) (payload : Bytes) : Frame :=
  let f : Frame := { version := 1, type, fragLast := n - 1, fragIdx := i, tagged := key.isSome, reserved := false,
                     session, seq, payload, tag := [] }
  match key with
  | some k => { f with tag := frameTag k f }
  | none => f

/-- A message sent on the field network, cut into fragments of 1,184 bytes. -/
def sendMessage (key : Option Bytes) (session type seq : Nat) (payload : Bytes) (d : Dev) : Dev :=
  let n := Nat.max 1 ((payload.length + 1183) / 1184)
  times n (fun i d => send (.frame (fragment key session type seq n i ((payload.drop (1184 * i)).take 1184))) d) d

/-- The key that tags frames toward a session. -/
def outKey (d : Dev) (n : Nat) : Option Bytes := (mfind d.hv.sessions n).map (fun s => s.keyOut)

/-- The frame that a mailbox shows its host, with MSI-X vector 0 (R553). -/
def mailboxReply (f : Frame) (d : Dev) : Dev :=
  send (.msix 0) { d with hv := { d.hv with mailReply := frameBytes f, mailDone := true, mailFrame := none } }

/-- SEQ of the frame in the mailbox. -/
def mailSeq (d : Dev) : Nat := (d.hv.mailFrame.map (fun f => f.seq)).getD 0

/-- REFUSE with a status, untagged (R549, R550). -/
def refuse (mailbox : Bool) (session : Nat) (st : Status) (d : Dev) : Dev :=
  let p := leBytes 2 st.toNat
  if mailbox then mailboxReply (fragment none session 0x3F (mailSeq d) 1 0 p) d else sendMessage none session 0x3F 0 p d

/-- A frame that names no open session. -/
def refuseSession (p : Path) (d : Dev) : Dev :=
  refuse (match p with | .mailbox _ => true | _ => false) (pathSession p) ST.noSession d

/-- A reply leaves on the path its request came by: a message, the mailbox with MSI-X vector 0, or the slot's reply words
followed by DONE. -/
def reply (p : Path) (st : Status) (payload : Bytes) (d : Dev) : Dev :=
  let d := sessionDone (pathSession p) payload { d with hv := { d.hv with reply := payload, replyStatus := st } }
  let n := pathSession p
  let seq := (mfind d.hv.sessions n).map (fun s => s.lastSeq)
  match p with
  | .slot n =>
    let x := slotAt d n
    setSlot n { x with reply := payload, done := x.doorbell, pending := false } d
  | .mailbox _ => mailboxReply (fragment (outKey d n) n 0x11 (seq.getD (mailSeq d)) 1 0 payload) d
  | .field _ => sendMessage (outKey d n) n 0x11 (seq.getD 0) payload d
  | .service => send (.frame (fragment none 0 0x11 0 1 0 payload)) d

/-- The reply to a write. -/
def answer (p : Path) (st : Status) (size : Nat) (d : Dev) : Dev := reply p st (replyBytes st size 0 []) d

/-- Requests other than the continuing read or write of one object discard the session's snapshot and stage (R548). -/
def dropHeld (p : Path) (d : Dev) : Dev :=
  let who := clientOf p
  { d with hv := { d.hv with stages := d.hv.stages.filter (fun s => decide (s.client ≠ who)),
                             snaps := d.hv.snaps.filter (fun s => decide (s.client ≠ who)) } }

/-! ## Command objects (R554) -/

/-- STATUS, bits [31:16] of a command object's word 0. -/
def commandStatus (d : Dev) (key : Nat) : Nat := nfld (rd d key) 31 16

def setCommandStatus (key : Nat) (st : Status) (d : Dev) : Dev :=
  wr key (rd d key - commandStatus d key * 2 ^ 16 + st.toNat * 2 ^ 16) d

/-- Whether a command of an object has been accepted and has not completed. -/
def commandPending (d : Dev) (key : Nat) : Bool := commandStatus d key == ST.pending.toNat

/-- Whether a recovery session is refused an RWS write: every one but the tamper command's, while LOCKED (R591). -/
def lockedOut (d : Dev) (key : Nat) (acc : Access) (p : Path) : Bool :=
  acc == .rws && rd d OD.tamperState == 2 && key != OD.tamperCommand &&
  (match p with | .slot _ => false | .service => false | _ => true)

/-- The installation objects (R575). -/
def installationKeys : List Nat :=
  [OD.staticAddress, OD.plcaBurst, OD.plcaTransmitTimer, OD.inputSlewLimit, OD.cxlPlacement, OD.deviceNumber,
   OD.topologyClass, OD.memorySpaceDevices, OD.switchStageTime, OD.switchStageTime + 1, OD.switchStageTime + 2,
   OD.fibreMax, OD.portEnable, OD.edgeRole, OD.edgeRole + 1, OD.hostContext, OD.hostGroupTable, OD.powerFeedId,
   OD.spareTable, OD.tamperPolicy]

/-- An installation object's accepted value enters both copies of the installation record, sealed by the root; without a
sealing key no record can be sealed. -/
def keepInstalled (key : Nat) (d : Dev) : Dev :=
  if !installationKeys.contains key || d.sec.sealKey.isNone then d
  else
    let d := { d with sec := { d.sec with installSealed := true } }
    match rdBytes d key with
    | some b => { d with installedBytes := mset d.installedBytes key b }
    | none => { d with installed := mset d.installed key (rd d key) }

/-- What a write does once its rights and encoding are known to be good: the status it is refused with, or the device
after it. -/
abbrev WriteOp := Dev → Status × Dev

/-- A write of an object on a path. The order is that of R546: rights, encoding (`bad`), then the owner's state and what
the object itself asks (`op`). A refusal changes nothing but what R555 counts and logs. -/
def runWrite (key size : Nat) (acc : Access) (counter : Bool) (p : Path) (bad : Status) (unitState : Dev → Nat)
    (op : WriteOp) (d : Dev) : Dev :=
  if !answers d p then d
  else if unknownSession d p then refuseSession p d
  else
    let d := dropHeld p d
    if !mayWrite d p acc then answer p ST.access size d
    else if bad ≠ ST.ok then answer p bad size d
    else
      let r := op d
      let locked := lockedOut d key acc p
      let st := if r.1 = ST.invalid ∨ r.1 = ST.length then r.1
        else if locked then ST.state
        else if ownerStatus d key counter ≠ ST.ok then ownerStatus d key counter
        else r.1
      if st = ST.ok then answer p ST.ok size (keepInstalled key r.2)
      else
        let d' := if st = r.1 ∧ !locked then r.2 else d
        let unit := if locked then rd d OD.tamperState else unitState d
        answer p st size (if st = ST.state then noteRefusal p key unit d' else d')

/-- A command object holds the words last accepted (R567), with the present STATUS in word 0; the words after word 0 of a
RECORD are kept as bytes. -/
def putCommand (key : Nat) (ws : List Nat) (d : Dev) : Dev :=
  let w := ws.headD 0
  let d := wr key (commandStatus d key * 2 ^ 16 + w % 2 ^ 16 + w / 2 ^ 32 % 2 ^ 32 * 2 ^ 32) d
  if ws.length ≤ 1 then delBytes key d else wrBytes key (ws.tail.flatMap (leBytes 8)) d

/-- A command accepted: the object holds its words, and a command that does not complete at once reads ST_PENDING. A
command while another of the object is pending is refused (R554, R555). -/
def commandOp (key : Nat) (ws : List Nat) (op : WriteOp) : WriteOp := fun d =>
  let r := op d
  if r.1 = ST.invalid ∨ r.1 = ST.length then r
  else if commandPending d key then (ST.state, d)
  else if r.1 = ST.ok then (ST.ok, putCommand key ws r.2)
  else r

/-- A command object written on a path. -/
def runCommand (key size : Nat) (acc : Access) (p : Path) (ws : List Nat) (reserved : Bool) (unitState : Dev → Nat)
    (op : WriteOp) : Dev → Dev :=
  runWrite key size acc false p (if reserved then ST.invalid else ST.ok) unitState (commandOp key ws op)

/-- The same as a step's outcome. -/
def execCommand (key size : Nat) (acc : Access) (p : Path) (ws : List Nat) (reserved : Bool) (unitState : Dev → Nat)
    (op : WriteOp) (s : State) : Out :=
  onDev (runCommand key size acc p ws reserved unitState op) s

/-- No unit's state code expresses the refusal (R555). -/
def noUnit (_ : Dev) : Nat := 0xFF

/-- Whether a value lies in a scalar object's range; an F32 value is finite and compared as a number (R566). -/
def inRange (o : ObjDef) (v : Nat) : Bool :=
  if o.counter then v == 0
  else match o.type with
    | .f32 => (match ratOf (BitVec.ofNat 32 v) with
      | some x => decide (ratBits o.vmin ≤ x) && decide (x ≤ ratBits o.vmax) && decide (v < 2 ^ 32)
      | none => false)
    | _ => decide (o.vmin ≤ v) && decide (v ≤ o.vmax)

/-- A write of a scalar object's row: the access code and size of its type, its range, and its effect. -/
def runScalar (key : Nat) (p : Path) (v : Nat) (valueOk : Bool) (unitState : Dev → Nat) (op : WriteOp) (d : Dev) : Dev :=
  match objDef key with
  | none => d
  | some o =>
    let ok := valueOk && inRange o v
    runWrite key o.type.bytes o.access o.counter p (if ok then ST.ok else ST.invalid) unitState op d

end Sys2Proof.Machine
end

