-- ==== Sys2Proof/Machine/Fabric.lean ====
section
/-!
DEFINITION. The commands of fabric operations: issue, the operations themselves, packets sent and arriving,
timers, and completion (R303-R321, R328-R360).
-/

namespace Sys2Proof.Machine

/-! ## Bus answers -/

/-- What the latest access from a bus, a host or a processor answered. -/
def busAnswer (st : Status) (v : Nat) (d : Dev) : Dev := { d with hv := { d.hv with bus := v, busStatus := st } }


/-! ## Issue (R303, R304, R338) -/

/-- The key under which a queue keeps where the next flagged store of a context begins to cover (R318). -/
def flagKey (c : Nat) : Nat := c * 2 ^ 32 + (2 ^ 32 - 1)

/-- A flagged store issued: it covers what was posted since the flagged store before it. -/
def noteFlag (q id : Nat) (x : FabDesc) (d : Dev) : Dev :=
  if fdFlag x then
    let fq := queueOf d q
    let base := mget 0 fq.lastFlag (flagKey x.ctx)
    setQueue q { fq with lastFlag := mset (mset fq.lastFlag (x.ctx * 2 ^ 32 + id) base) (flagKey x.ctx) (id + 1) } d
  else d

/-- The item of the step sequencer whose descriptor is issued knows its operation. -/
def noteItem (id : Nat) (x : FabDesc) (d : Dev) : Dev :=
  match x.origin with
  | .item n => { d with seq := { d.seq with items := mmap (fun k i => if k = n then { i with op := some id } else i) d.seq.items } }
  | _ => d

/-- Whether a RUN of the queue is outstanding: it runs alone (R398). -/
def runHolds (d : Dev) (slot : Nat) : Bool := (slotOps d slot).any (fun o => decide (o.2.use_ = .queue) && isRun o.2.desc)

/-- A RUN issued: its wait limit begins to run (R424). -/
def noteRunIssued (id : Nat) (x : FabDesc) (d : Dev) : Dev :=
  if isRun x then
    { d with runs := mset d.runs id { AntlerRun.none with
        first := arCnt x.record, count := 2 * arChunks x.record + 3, seen := d.tick } }
  else d

/-- FABRIC_OP_ISSUE: the next accepted descriptor of a queue, while an outstanding place is free. -/
def fabricIssue (core queue : Nat) (d : Dev) : Dev :=
  let q := 4 * core + queue
  let fq := queueOf d q
  match fq.accepted with
  | [] => d
  | x :: rest =>
    if rd d OD.outstandingPerQueue ≤ (slotOps d q).length ∨ creditHeld d q d.tw.nextOp ∨ runHolds d q ∨ engineInReset d (0x5000 + core)
        ∨ useAny d linkDies ≠ ST.ok then d
    else
      let r := newOp x .queue q false (setQueue q { fq with accepted := rest } d)
      noteRunIssued r.1 x (noteItem r.1 x (noteFlag q r.1 x r.2))

def execFabricOpIssue (core queue : Nat) (s : State) : Out := onDev (fabricIssue core queue) s

/-! ## The operations (R311-R316) -/

/-- An issued operation of a kind begins. -/
def beginKind (id : Nat) (kind : FabOp → Bool) (go : FabOp → Dev → Dev) (d : Dev) : Dev :=
  match findOp d id with
  | none => d
  | some op => if !op.begun && decide (op.use_ = .queue) && kind op then go op d else d

def execStore (op : Nat) (s : State) : Out :=
  onDev (beginKind op (fun o => fdOp o.desc == 1 && !fdFlag o.desc) (fun o d => beginOp op o d)) s

/-- Whether an operation writes: every kind but a RUN's own bookkeeping (R129). -/
def earlierWrites (d : Dev) (slot id : Nat) : Bool := (slotOps d slot).any (fun o => decide (o.1 < id))

/-- FLAGGED_STORE: it waits for every earlier writing operation of its queue; a failure it covers is its own status and
it is not applied (R129, R130). -/
def execFlaggedStore (op : Nat) (s : State) : Out :=
  onDev (beginKind op (fun o => fdOp o.desc == 1 && fdFlag o.desc) (fun o d =>
    if earlierWrites d o.slot op then d
    else match coveredFailure d op o with
      | some st => setOp op { o with begun := true, status := st, fixed := true } d
      | none => beginOp op o d)) s

def execAtomic (op : Nat) (s : State) : Out :=
  onDev (beginKind op (fun o => fdOp o.desc == 2) (fun o d => beginOp op o d)) s

/-- ACCUM of an element code; RUN has a command of its own. -/
def execAccum (op : Nat) (s : State) : Out :=
  onDev (beginKind op (fun o => fdOp o.desc == 3 && !isRun o.desc) (fun o d => beginOp op o d)) s

def execCopy (op : Nat) (s : State) : Out :=
  onDev (beginKind op (fun o => fdOp o.desc == 4) (fun o d => beginOp op o d)) s

/-! ## Packets -/

/-- PACKET_SEND (R332, R338, R342). -/
def execPacketSend (op pkt : Nat) (s : State) : Out :=
  onDev (fun d => match findOp d op with
    | none => d
    | some o => match o.pkts[pkt]? with
      | none => d
      | some p => if maySend d op o p then sendPacket op pkt d else d) s

/-- A request applied and answered. -/
def serveAndAnswer (p : Packet) (waiting : Option Nat) (d : Dev) : Dev :=
  let r := takeRequest p waiting d
  queueResp r.1 (gLocal p.dst) r.2

/-- The packets of a P1 source that are held and come next in its order (R360). -/
def serveHeld (src : Nat) : Nat → Dev → Dev
  | 0, d => d
  | n + 1, d =>
    let next := mget 0 d.tw.p1Next src
    match d.tw.p1Held.find? (fun h => h.1.srcDev == src && h.1.seq == next) with
    | none => d
    | some h =>
      let d := { d with tw := { d.tw with
        p1Held := d.tw.p1Held.filter (fun k => k != h), p1Next := mput 0 d.tw.p1Next src ((next + 1) % 2 ^ 32) } }
      serveHeld src n (serveAndAnswer h.1 none d)

/-- How far a sequence number lies ahead of the one expected, modulo 2^32 (R304, R323). -/
def seqAhead (next seq : Nat) : Nat := (seq + 2 ^ 32 - next) % 2 ^ 32

/-- A packet of a P1 source: applied in its source's order, held while it is early. -/
def arriveP1 (p : Packet) (waiting : Nat) (d : Dev) : Dev :=
  let next := mget 0 d.tw.p1Next p.srcDev
  if 0 < seqAhead next p.seq ∧ seqAhead next p.seq < 2 ^ 31 then { d with tw := { d.tw with p1Held := d.tw.p1Held ++ [(p, d.tick)] } }
  else
    let d := serveAndAnswer p (some waiting) d
    let d := if p.seq = next then { d with tw := { d.tw with p1Next := mput 0 d.tw.p1Next p.srcDev ((next + 1) % 2 ^ 32) } } else d
    serveHeld p.srcDev d.tw.p1Held.length d

/-- REQUEST_ARRIVAL: a request for this device, with the number of operations that wait on its line. -/
def requestArrival (p : Packet) (waiting : Nat) (d : Dev) : Dev :=
  if gDev p.dst ≠ devNo d then d
  else if peerGen d p.srcDev = 1 then arriveP1 p waiting d else serveAndAnswer p (some waiting) d

def execRequestArrival (p : Packet) (waiting : Nat) (s : State) : Out :=
  onDev (fun d => requestArrival p waiting (takeArrived (.req p) d)) s

/-- RESPONSE_ARRIVAL. -/
def execResponseArrival (r : Resp) (s : State) : Out :=
  onDev (fun d =>
    let d := takeArrived (.resp r) d
    if r.dstDev = devNo d then takeResponse r d else d) s

/-- FABRIC_OP_COMPLETE: an operation whose outcome is decided completes at its source (R321). A RUN completes by
RUN_COMPLETE, a host read by HOST_READ_COMPLETE. -/
def execFabricOpComplete (op : Nat) (s : State) : Out :=
  onDev (fun d => match findOp d op with
    | none => d
    | some o => if isRun o.desc && decide (o.use_ = .queue) && !o.fixed then d else finishOp op d) s

/-! ## Planes, hot lines, windows and timers -/

/-- PLANE_PORT_CHANGE: the plane mask of a device (R330). -/
def execPlanePortChange (plane dev : Nat) (up : Bool) (s : State) : Out :=
  onDev (fun d =>
    if 32 ≤ plane then d
    else
      let m := mget 0 d.tw.planes dev
      let cleared := if m.testBit plane then m - 2 ^ plane else m
      let m' := if up then cleared + 2 ^ plane else cleared
      noteReachable (noteUnreachable dev { d with tw := { d.tw with planes := mput 0 d.tw.planes dev m' } })) s

/-- HOT_HOLD_EXPIRY (R342). -/
def execHotHoldExpiry (dev line : Nat) (s : State) : Out :=
  onDev (fun d => { d with tw := { d.tw with hot := d.tw.hot.filter (fun h =>
    !(h.dev == dev && h.line == line && decide (h.seen + rd d OD.hotHold ≤ d.tick))) } }) s

/-- REPLAY_ENTRY_EXPIRY: the retention of an entry has passed (R348). -/
def execReplayEntryExpiry (src slot seq : Nat) (s : State) : Out :=
  onDev (fun d => { d with tw := { d.tw with replay := d.tw.replay.filter (fun e =>
    !(e.src == src && e.slot == slot && e.seq == seq && decide (e.at_ + rd d OD.replayRetention ≤ d.tick))) } }) s

/-- BUSY_RESEND: 10 µs after a refusal the packet may be sent again, where R349 allows it; that resend is counted, but not against
the retry limit (R347, R354). -/
def busyResend (id i : Nat) (d : Dev) : Dev :=
  match findOp d id with
  | none => d
  | some op => match op.pkts[i]? with
    | none => d
    | some p => match p.busyAt with
      | none => d
      | some t =>
        if d.tick < t + 10 then d
        else if op.fixed then d
        else if mayResend d p then
          inc OD.endToEndResends
            (setOp id (modPkt i (fun p => { p with busyAt := none, attempt := p.attempt + 1, resent := true }) op) d)
        else loseOutcome id i op d

def execBusyResend (op pkt : Nat) (s : State) : Out := onDev (busyResend op pkt) s

/-- A flying packet whose attempt ends. -/
def endFlying (id i : Nat) (lost : Bool) (due : Dev → PktRec → Bool) (d : Dev) : Dev :=
  match findOp d id with
  | none => d
  | some op => match op.pkts[i]? with
    | none => d
    | some p => if p.st = .flying ∧ due d p then endAttempt id i lost d else d

/-- TX_TIMEOUT: T_tx since the packet's latest send (R353, R354); a packet of an ended operation gives its credit back. -/
def txTimeout (op pkt : Nat) (d : Dev) : Dev :=
  let due := fun (sent : Nat) => decide (sent + rd d OD.txTimeout ≤ d.tick)
  match d.tw.tags.find? (fun t => t.id == op) with
  | some t => landed t (fun p => p.1 == pkt && due p.2.2) d
  | none => endFlying op pkt false (fun _ p => due p.lastSent) d

def execTxTimeout (op pkt : Nat) (s : State) : Out := onDev (txTimeout op pkt) s

/-- LOST_COMPLETION: a router or switch on the way gave the packet up (R354). -/
def lostCompletion (op pkt : Nat) (d : Dev) : Dev :=
  endFlying op pkt true (fun _ _ => true) (lostLate (fun t => t.id == op) (fun p => p.1 == pkt) d)

def execLostCompletion (op pkt : Nat) (s : State) : Out := onDev (lostCompletion op pkt) s

/-! ## Items given up by a router (R344, R352, R379) -/

/-- The packet of an outstanding operation that a request in a port's queue or buffer is. -/
def pktOf (d : Dev) (q : Packet) : Option (Nat × Nat) :=
  match d.tw.ops.find? (fun o => o.2.slot == q.slot && o.2.seq == q.seq && o.2.epoch == q.epoch) with
  | some o => (o.2.pkts.findIdx? (fun k => k.dst == q.dst)).map (fun i => (o.1, i))
  | none => none

/-- The lost completion of an item that a router of this device gives up: a request of this device ends its attempt; a response
goes to its requester as ST_POISON with reason LOST. -/
def loseItem (p : Nat) (d : Dev) : Item → Dev
  | .req q =>
    match pktOf d q with
    | some (id, i) => endFlying id i true (fun _ k => k.port == p) d
    | none => lostLate (fun t => t.slot == q.slot && t.seq == q.seq && t.epoch == q.epoch) (fun k => k.2.1 == q.dst) d
  | .resp r => queueResp { r with lost := true, status := ST.poison, data := [], poison := [] } 0 d

/-- PACKET_AGE_DISCARD: an item that has waited in a port's request or response queue longer than 60 µs is discarded, with a lost
completion (R344). -/
def packetAge (p vc i : Nat) (d : Dev) : Dev :=
  let x := portOf d p
  match (if vc = 0 then x.vc0 else x.vc1)[i]? with
  | none => d
  | some q =>
    if q.since + 60 < d.tick then
      loseItem p (setPort p (if vc = 0 then { x with vc0 := x.vc0.eraseIdx i } else { x with vc1 := x.vc1.eraseIdx i }) d) q.item
    else d

def execPacketAgeDiscard (port : Nat) (place : Nat × Nat) (s : State) : Out := onDev (packetAge port place.1 place.2) s

/-- P1_ORDER_HOLD_EXPIRY: the earliest packet of a P1 source held beyond t_hold is released, and the order goes on from
it (R360). -/
def p1Expiry (src : Nat) (d : Dev) : Dev :=
  let due := d.tw.p1Held.filter (fun h => h.1.srcDev == src && decide (h.2 + 60 < d.tick))
  match due with
  | [] => d
  | h :: hs =>
    let ahead := seqAhead (mget 0 d.tw.p1Next src)
    let first := hs.foldl (fun m k => if ahead k.1.seq < ahead m.1.seq then k else m) h
    let d := { d with tw := { d.tw with
      p1Held := d.tw.p1Held.filter (fun k => k != first), p1Next := mput 0 d.tw.p1Next src ((first.1.seq + 1) % 2 ^ 32) } }
    let d := serveAndAnswer first.1 none d
    serveHeld src d.tw.p1Held.length d

def execP1OrderHoldExpiry (src : Nat) (s : State) : Out := onDev (p1Expiry src) s

end Sys2Proof.Machine
end

