-- ==== Sys2Proof/Machine/Grids.lean ====
section
/-!
DEFINITION. Grids and blocks: the launch descriptor (R66-R68), the start of blocks (R69, R70), the end of a grid, and the
illegal instruction (R76, R102).
-/

namespace Sys2Proof.Machine

/-! ## The launch descriptor (R66) -/

def ldEntry (ws : List W64) : Nat := fld (word ws 0) 48 0
def ldBlocks (ws : List W64) : Nat := fld (word ws 1) 31 0
def ldGroups (ws : List W64) : Nat := fld (word ws 1) 37 32
def ldRegs (ws : List W64) : Nat := fld (word ws 1) 42 38
def ldSlm (ws : List W64) : Nat := fld (word ws 1) 51 43
def ldArgs (ws : List W64) : Nat := fld (word ws 2) 48 0
def ldCtx (ws : List W64) : Nat := fld (word ws 2) 54 49
def ldDone (ws : List W64) : Nat := fld (word ws 3) 15 0
def ldFirst (ws : List W64) : Nat := fld (word ws 3) 26 16
def ldLast (ws : List W64) : Nat := fld (word ws 3) 37 27

/-- Blocks of one shape that fit one core (R68). -/
def residentMax (groups regs8 slm : Nat) : Nat :=
  let m := Nat.min 16 (Nat.min (48 / groups) (3072 / (8 * regs8 * groups)))
  if slm = 0 then m else Nat.min m (256 / slm)

/-- The cases of R67. -/
def launchBad (ws : List W64) : Bool :=
  fld (word ws 0) 63 49 != 0 || fld (word ws 1) 63 52 != 0 || fld (word ws 2) 63 55 != 0 ||
  fld (word ws 3) 63 38 != 0 ||
  ldEntry ws % 8 != 0 || ldGroups ws == 0 || decide (32 < ldGroups ws) || ldRegs ws == 0 ||
  decide (256 < ldSlm ws) || decide (ldLast ws < ldFirst ws) ||
  residentMax (ldGroups ws) (ldRegs ws) (ldSlm ws) == 0

/-- The compute dies of a launch's core range. -/
def launchDies (ws : List W64) : List FunctionKey :=
  (List.range (ldLast ws / 512 + 1 - ldFirst ws / 512)).map (fun i => OD.readyCompute + ldFirst ws / 512 + i)

/-- The status of a launch: R67, then R293, then the functions it needs (R630, R632). -/
def launchStatus (d : Dev) (ws : List W64) : Status :=
  if launchBad ws then ST.invalid
  else if ctxRefusal d (ldCtx ws) ≠ ST.ok then ctxRefusal d (ldCtx ws)
  else firstBad (useAny d (launchDies ws)) (useAll d [OD.readyHbm, OD.readyMemory])

/-- A new grid of a launch descriptor. -/
def newGrid (ws : List W64) (step mb : Nat) (item layer : Option Nat) : Grid :=
  { entry := ldEntry ws, blocks := ldBlocks ws, blockGroups := ldGroups ws, regs := ldRegs ws, slmKib := ldSlm ws,
    args := ldArgs ws, ctx := ldCtx ws, doneCounter := ldDone ws, firstCore := ldFirst ws, lastCore := ldLast ws,
    step, mb, next := 0, ended := 0, fault := none, ovf := false, nan := false, inf := false, mismatch := false,
    complete := false, item, layer }

/-- A launch: its status, and the device with the grid accepted. A descriptor that cannot be read is not accepted
(ST_ACCESS or ST_POISON). A grid of no blocks only raises its counter (R67). -/
def launchGrid (addr step mb : Nat) (item layer : Option Nat) (d : Dev) : Status × Option Nat × Dev :=
  let r := readMem d addr 32
  if r.1 ≠ ST.ok then (r.1, none, d)
  else
    let ws := wordsOf 4 r.2
    let st := launchStatus d ws
    if st ≠ ST.ok then (st, none, d)
    else if ldBlocks ws = 0 then (ST.ok, none, arrive (ldDone ws) d)
    else (ST.ok, some d.nextGrid,
      { d with grids := mset d.grids d.nextGrid (newGrid ws step mb item layer), nextGrid := d.nextGrid + 1 })

/-! ## Blocks (R69, R70) -/

/-- Groups, register units and SLM in use on a core. -/
def coreBlocks (d : Dev) (core : Nat) : List Block := d.blocks.filter (fun b => b.core == core)

/-- Whether a core has room for a block of a grid. -/
def hasRoom (d : Dev) (core : Nat) (g : Grid) : Bool :=
  let bs := coreBlocks d core
  let shape := fun (b : Block) => (gridOf d b.grid).getD g
  decide (bs.length < 16) &&
  decide ((bs.map (fun b => (shape b).blockGroups)).sum + g.blockGroups ≤ 48) &&
  decide ((bs.map (fun b => 8 * (shape b).regs * (shape b).blockGroups)).sum + 8 * g.regs * g.blockGroups ≤ 3072) &&
  decide ((bs.map (fun b => (shape b).slmKib)).sum + g.slmKib ≤ 256)

/-- A block as it starts: registers zero, predicates false, counters and shared local memory zero. -/
def Block.fresh (grid no core : Nat) (g : Grid) : Block :=
  let lanes := List.replicate 32 (Lane.fresh (8 * g.regs) g.entry)
  { grid, no, core,
    groups := List.replicate g.blockGroups { lanes, issues := 0, issuedAt := 0, stores := [], awaits := [], storeError := none, fences := [] },
    cc := List.replicate 16 0, slm := [] }

/-- Whether the next block of a grid may start on a core: one in range with room, of a compute die that works, whose
cluster is neither marked failed nor being moved (R69, R514, R632). -/
def mayStart (d : Dev) (core : Nat) (g : Grid) : Bool :=
  g.fault.isNone && !g.complete && decide (g.next < g.blocks) && decide (g.firstCore ≤ core) &&
  decide (core ≤ g.lastCore) && hasRoom d core g && works d (computeFn core) && !coreFenced d core

def blockStart (grid core : Nat) (d : Dev) : Dev :=
  match gridOf d grid with
  | none => d
  | some g =>
    if mayStart d core g then
      modGrid grid (fun g => { g with next := g.next + 1 })
        { d with blocks := d.blocks ++ [Block.fresh grid g.next core g] }
    else d

/-- BLOCK_START: the next block of the grid starts on a core of its range that has room. -/
def execBlockStart (grid core : Nat) (s : State) : Out := onDev (blockStart grid core) s

/-! ## The end of a grid (R69, R102) -/

/-- The sequencer's LAUNCH item of a grid is done; a faulted grid is a cause of abandonment (R439, R451). -/
def itemGridDone (grid : Nat) (bad : Bool) (d : Dev) : Dev :=
  let mine := d.seq.items.any (fun i => i.2.grid == some grid)
  { d with seq := { d.seq with
      items := mmap (fun _ i => if i.grid = some grid then { i with st := .done } else i) d.seq.items,
      cause := if mine && bad then Nat.max d.seq.cause 4 else d.seq.cause } }

/-- Whether every block that will run has ended. -/
def gridEnded (g : Grid) : Bool :=
  !g.complete && g.ended == g.next && (g.fault.isSome || g.next == g.blocks)

def gridComplete (grid : Nat) (d : Dev) : Dev :=
  match gridOf d grid with
  | none => d
  | some g =>
    if gridEnded g then
      itemGridDone grid g.fault.isSome (arrive g.doneCounter (modGrid grid (fun g => { g with complete := true }) d))
    else d

/-- GRID_COMPLETE: once every started block has ended, DONE_COUNTER is raised by one. -/
def execGridComplete (grid : Nat) (s : State) : Out := onDev (gridComplete grid) s

/-! ## The illegal instruction -/

/-- ILLEGAL_INSTRUCTION: a word whose class, operation, modifiers or register fields the manual does not define faults its
group with ST_INVALID at the selected program counter. A word that is legal there is not this command: nothing
happens. -/
def illegalInstruction (w : Where) (i : W64) (d : Dev) : Dev :=
  match issueOf d w (fieldsOf i) with
  | none => d
  | some s =>
    let fs := fetchStatus d s.grid.ctx s.pc
    if fs ≠ ST.ok then groupFault w fs s.pc s.lanes d
    else if ctxRefusal d s.grid.ctx = ST.fenced then groupFault w ST.fenced s.pc s.lanes d
    else if opLegal (fld i 63 60) (fld i 59 52) (fieldsOf i) (8 * s.grid.regs) then d
    else groupFault w ST.invalid s.pc s.lanes d

def execIllegalInstruction (w : Where) (inst : W64) (s : State) : Out := onDev (illegalInstruction w inst) s

end Sys2Proof.Machine
end

