-- ==== Sys2Proof/Machine/Streams.lean ====
section
/-!
DEFINITION. Keyed streams: the generator of R459 and the counter and key of a draw (R458).
-/

namespace Sys2Proof.Machine

/-- Rotation to the left. -/
def rotl (x : W32) (n : Nat) : W32 := (x <<< n) ||| (x >>> (32 - n))

/-- Four words of a state. -/
structure Quad where
  x0 : W32
  x1 : W32
  x2 : W32
  x3 : W32
  deriving DecidableEq, Repr

def Quad.at (k : Quad) (i : Nat) : W32 := match i % 4 with | 0 => k.x0 | 1 => k.x1 | 2 => k.x2 | _ => k.x3

/-- The quarter steps of a round, on x0, x1, x2, x3. -/
def mixQuad (q : Quad) : Quad :=
  let a0 := q.x0 + q.x1
  let a3 := rotl (q.x3 ^^^ a0) 16
  let a2 := q.x2 + a3
  let a1 := rotl (q.x1 ^^^ a2) 12
  let b0 := a0 + a1
  let b3 := rotl (a3 ^^^ b0) 8
  let b2 := a2 + b3
  let b1 := rotl (a1 ^^^ b2) 7
  ⟨b0, b1, b2, b3⟩

/-- Round i: the round key, the quarter steps, the exchange of x1 and x3. -/
def streamRound (k : Quad) (q : Quad) (i : Nat) : Quad :=
  let m := mixQuad
    ⟨q.x0 + (k.at i ^^^ (0x9E3779B9 * BitVec.ofNat 32 (i + 1))), q.x1 + k.at (i + 1), q.x2 + k.at (i + 2),
     q.x3 + (k.at (i + 3) ^^^ BitVec.ofNat 32 i)⟩
  ⟨m.x0, m.x3, m.x2, m.x1⟩

/-- The generator of R459. -/
def streamGen (k c : Quad) : Quad :=
  let q := (List.range 10).foldl (streamRound k) c
  ⟨q.x0 + k.x0, q.x1 + k.x1, q.x2 + k.x2, q.x3 + k.x3⟩

/-- The key: the job seed and the job data position (R458). -/
def streamKey (d : Dev) : Quad :=
  let s := leNat (rdFull d OD.jobSeed)
  let g := rd d OD.jobDataPosition
  ⟨BitVec.ofNat 32 (Nat.xor (s % 2 ^ 32) (g % 2 ^ 32)), BitVec.ofNat 32 (Nat.xor (s / 2 ^ 32 % 2 ^ 32) (g / 2 ^ 32 % 2 ^ 32)),
   BitVec.ofNat 32 (s / 2 ^ 64), BitVec.ofNat 32 (s / 2 ^ 96)⟩

/-- The counter of a draw: stream, step, micro-batch, element. -/
def streamCounter (stream step mb elem : Nat) : Quad :=
  let c := elem % 2 ^ 32 + mb % 2 ^ 16 * 2 ^ 32 + step % 2 ^ 48 * 2 ^ 48 + stream % 2 ^ 32 * 2 ^ 96
  ⟨BitVec.ofNat 32 c, BitVec.ofNat 32 (c / 2 ^ 32), BitVec.ofNat 32 (c / 2 ^ 64), BitVec.ofNat 32 (c / 2 ^ 96)⟩

/-- A draw. -/
def draw (d : Dev) (stream step mb elem : Nat) : Quad := streamGen (streamKey d) (streamCounter stream step mb elem)

end Sys2Proof.Machine
end

