-- ==== Sys2Proof/Machine/Flags.lean ====
section
/-!
DEFINITION. What the device computes instead of arithmetic flags: the comparisons that write a predicate (R77), votes
(R89) and the in-range predicate of a shuffle (R87).
-/

namespace Sys2Proof.Machine

/-- An integer of a type: signed for I32 and I64 (R77). -/
def intVal (ty n v : Nat) : Int := if ty = 1 ∨ ty = 3 then sext n v else (v % 2 ^ n : Nat)

/-- Comparison 0 EQ to 5 GE of two ordered numbers; 6 unordered is false and 7 ordered true. -/
def cmpOrdered (c : Nat) (lt eq : Bool) : Bool :=
  match c with
  | 0 => eq | 1 => !eq | 2 => lt | 3 => lt || eq | 4 => !(lt || eq) | 5 => !lt | 6 => false | _ => true

/-- SETP (R77). -/
def cmpInt (c ty n a b : Nat) : Bool :=
  cmpOrdered c (decide (intVal ty n a < intVal ty n b)) (decide (intVal ty n a = intVal ty n b))

/-- FSETP (R77): a NaN makes the operands unordered: then EQ, LT, LE, GT, GE and ordered are false, NE and unordered
true (IEEE 754; log entry 7). -/
def cmpFp (c : Nat) (a b : W32) : Bool :=
  if (f32 a).isNan || (f32 b).isNan then c == 1 || c == 6
  else cmpOrdered c (vcmp (f32 a) (f32 b) == -1) (vcmp (f32 a) (f32 b) == 0)

/-- A vote of one bit over the operands of the voting lanes: 0 ANY, 1 ALL, 2 UNI (R89). -/
def voteBit (kind : Nat) (vs : List W32) : Bool :=
  match kind with
  | 0 => vs.any (· != 0)
  | 1 => vs.all (· != 0)
  | _ => match vs with
    | [] => true
    | v :: l => l.all (· == v)

/-- The mask of voting lanes whose operand passes a test (R89). -/
def voteMask (ls : List Nat) (val : Nat → W32) (p : W32 → Bool) : W32 :=
  BitVec.ofNat 32 (laneMask (ls.filter (fun i => p (val i))))

/-- Source lane of a shuffle, none where it is out of range (R87): mode, width, lane, operand. -/
def shflSource (mode w lane b : Nat) : Option Nat :=
  let i := lane % w
  let s := lane - i
  match mode with
  | 0 => if w ≤ b then none else some (s + b)
  | 1 => if i < b then none else some (lane - b)
  | 2 => if w ≤ i + b then none else some (lane + b)
  | _ => if w ≤ b then none else some (Nat.xor lane b)

end Sys2Proof.Machine
end

