-- ==== Sys2Proof/Machine/ThreadMem.lean ====
section
/-!
DEFINITION. Loads, stores, atomics and fences of threads (R90-R96, R113-R123, R317), the prefetchers (R269, R270), counter
waits (R100, R101), and the posting of fabric descriptors (R98, R99, R310).
-/

namespace Sys2Proof.Machine

/-! ## Shared local memory (R93, R94) -/

def slmBytes (b : Block) (o n : Nat) : Bytes := (List.range n).map (fun i => mget 0 b.slm (o + i))

def slmPut : Nat → Bytes → Block → Block
  | _, [], b => b
  | o, x :: xs, b => slmPut (o + 1) xs { b with slm := mput 0 b.slm o x }

/-- Whether an access reaches past the allocation or is misaligned. -/
def slmBad (x : Issue) (o n : Nat) : Bool := o % n != 0 || decide (1024 * x.grid.slmKib < o + n)

/-- Offset that a lane names. -/
def slmOffset (f : Fields) (x : Issue) (i : Nat) : Nat := ((x.lane i).reg f.srcA).toNat

/-- Bytes of an access of a size code (R96). -/
def accessBytes (f : Fields) : Nat := 2 ^ f.immFld 2 0

def execLds (w : Where) (f : Fields) (s : State) : Out :=
  onDev (runInstr w f 4 0x00 (fun x d =>
    let n := accessBytes f
    if x.act.any (fun i => slmBad x (slmOffset f x i) n) then groupFault w ST.access x.pc x.lanes d
    else modLanes w x.act (fun i l =>
      l.setWide f.dst (sizeRegs (f.immFld 2 0)) (leNat (slmBytes x.block (slmOffset f x i) n))) d)) s

/-- The bytes a store of a size takes from a lane. -/
def storeBytes (f : Fields) (l : Lane) : Bytes := leBytes (accessBytes f) (l.wide f.srcB (sizeRegs (f.immFld 2 0)))

/-- STS: the highest of the lanes that write one word decides it (R94). -/
def execSts (w : Where) (f : Fields) (s : State) : Out :=
  onDev (runInstr w f 4 0x01 (fun x d =>
    let n := accessBytes f
    if x.act.any (fun i => slmBad x (slmOffset f x i) n) then groupFault w ST.access x.pc x.lanes d
    else x.act.foldl (fun d i =>
      modBlock w.grid w.block (slmPut (slmOffset f x i) (storeBytes f (x.lane i))) d) d)) s

/-! ## Atomics: operands -/

def atomAop (f : Fields) : Nat := f.immFld 15 12
def atomTy (f : Fields) : Nat := f.immFld 11 9
def atomScope (f : Fields) : Nat := f.immFld 8 7

/-- One lane's operands. -/
def atomArg (f : Fields) (x : Issue) (i : Nat) : AtomArg :=
  let k := atomBytes (atomTy f) / 4
  { lane := i, x := (x.lane i).wide f.srcB k, cmp := (x.lane i).wide f.srcC k }

/-- The values returned written to DST. -/
def atomReturn (w : Where) (f : Fields) (vs : List (Nat × Nat)) (d : Dev) : Dev :=
  vs.foldl (fun d v => modLanes w [v.1] (fun _ l => l.setWide f.dst (atomBytes (atomTy f) / 4) v.2) d) d

/-- An atomic is an acquire at its scope (R123). -/
def atomAcquire (f : Fields) (core : Nat) (d : Dev) : Dev := if 1 ≤ atomScope f then dropAllBuffered core d else d

/-- ATOMS (R90-R93, R122): one update per distinct offset. -/
def execAtoms (w : Where) (f : Fields) (s : State) : Out :=
  onDev (runInstr w f 5 0x00 (fun x d =>
    let n := atomBytes (atomTy f)
    if x.act.any (fun i => slmBad x (slmOffset f x i) n) then groupFault w ST.access x.pc x.lanes d
    else
      let offs := (x.act.map (slmOffset f x)).eraseDups
      let d := offs.foldl (fun d o =>
        let args := (x.act.filter (fun i => slmOffset f x i == o)).map (atomArg f x)
        let old := match findBlock d w.grid w.block with
          | some b => leNat (slmBytes b o n)
          | none => 0
        let r := atomFold (atomAop f) (atomTy f) old args
        atomReturn w f r.1 (modBlock w.grid w.block (slmPut o (leBytes n r.2)) d)) d
      atomAcquire f x.block.core d)) s

/-! ## Local and remote addresses (R96) -/

/-- Address that a lane names. -/
def laneAddr (f : Fields) (x : Issue) (i : Nat) : Nat := (x.lane i).wide f.srcA 2

/-- Whether an address names another device: bits [63:49] neither zero nor the device's own number. -/
def threadRemote (d : Dev) (a : Nat) : Bool := a / 2 ^ 49 != 0 && a / 2 ^ 49 != devNo d

/-- Why an access of a lane faults before any byte moves; ST_OK where it may go on. A remote access is refused under a
context that is not LIVE (R293), and where no link die serves it (R630). -/
def accessStatus (d : Dev) (x : Issue) (k : Need) (a n : Nat) : Status :=
  if a % n ≠ 0 then ST.access
  else if threadRemote d a then
    firstBad (firstBad (ctxRefusal d x.grid.ctx) (if mapped (gLocal a) n then ST.ok else ST.access)) (useAny d linkDies)
  else
    let loc := a % 2 ^ 49
    if !granted d x.grid.ctx (fun r => r.rd) loc n && k.rd then ST.access
    else if !granted d x.grid.ctx (fun r => r.wr) loc n && k.wr then ST.access
    else if inControl loc then ST.ok else spaceStatus d loc n

/-- The first status other than ST_OK of the executing lanes in ascending order (log entry 9). -/
def firstStatus (ls : List Nat) (f : Nat → Status) : Status := ls.foldl (fun st i => firstBad st (f i)) ST.ok

/-- The descriptor that stands for a thread's remote access. -/
def threadDesc (x : Issue) (ws : List W64) : FabDesc :=
  { words := ws, ctx := x.grid.ctx, origin := .lane x.w.grid x.w.block, record := [], step := x.grid.step,
    mb := x.grid.mb }

/-- Source slot of a core's thread accesses (R304). -/
def threadSlot (core : Nat) : Nat := 8192 + core

/-- The remote stores and atomics, not yet acknowledged, that a lane's access to a range waits for: the lane's own (R114),
and those of other lanes whose operation is not below `first`: lanes of the same instruction (R108). -/
def overlapping (d : Dev) (w : Where) (lane first a n : Nat) : List Nat :=
  match findGroup d w with
  | some (_, g) =>
    (g.stores.filter (fun p => (p.lane == lane || decide (first ≤ p.op)) && overlaps p.addr p.size a n)).map (fun p => p.op)
  | none => []

/-- A lane's own loads and atomics of a range that have not returned: a later load must not return an older value (R113). -/
def earlierLoads (d : Dev) (w : Where) (lane a n : Nat) : List Nat :=
  match findGroup d w with
  | some (_, g) => (g.awaits.filter (fun p => p.lane == lane && overlaps p.addr p.size a n)).map (fun p => p.op)
  | none => []

/-- A remote access issued from the thread slot of the core: its operation, begun at once, held back by others. -/
def issueRemote (x : Issue) (use : OpUse) (ws : List W64) (load : Bool) (after : List Nat) (d : Dev) : Nat × Dev :=
  let r := newOp (threadDesc x ws) use (threadSlot x.block.core) load d
  (r.1, modOp r.1 (fun op => { op with begun := true, after }) r.2)

/-- A lane's pending remote store or atomic noted. -/
def notePending (w : Where) (p : Pending) (d : Dev) : Dev := modGroup w (fun g => { g with stores := g.stores ++ [p] }) d

/-- A lane's remote load or atomic noted: the lane runs on, and what needs the value waits (R72). -/
def noteAwait (w : Where) (a : Await) (d : Dev) : Dev := modGroup w (fun g => { g with awaits := g.awaits ++ [a] }) d

/-! ## Prefetchers (R269, R270) -/

/-- The buffered bytes of a line, if a core's prefetchers hold it. -/
def bufferedLine (d : Dev) (core l : Nat) : Option Bytes :=
  ((mget Prefetcher.none d.mem.prefetch core).buffer.find? (fun b => b.line == l)).map (fun b => b.data)

/-- Whether a touch of line l continues a stream: the stride from its last line is 1 to 8 lines either way, and equals
the stream's once it has one. -/
def continues (t : Tracker) (l : Nat) : Bool :=
  let k := (l : Int) - t.last
  k != 0 && decide (k.natAbs ≤ 8) && (t.stride == 0 || k == t.stride)

/-- Trackers after an LD that touches line l: a stream it continues moves on; otherwise a miss of the buffer starts
one, the least recently used of 16 making room. -/
def trackTouch (l : Nat) (miss : Bool) (ts : List Tracker) : List Tracker :=
  match ts.find? (fun t => continues t l) with
  | some t =>
    { last := l, stride := (l : Int) - t.last, hits := t.hits + 1 } :: ts.filter (fun u => u != t)
  | none =>
    if miss && !(ts.any (fun t => t.last == l)) then ({ last := l, stride := 0, hits := 0 } :: ts).take 16 else ts

def modPrefetch (core : Nat) (f : Prefetcher → Prefetcher) (d : Dev) : Dev :=
  let p := f (mget Prefetcher.none d.mem.prefetch core)
  { d with mem := { d.mem with prefetch := mput Prefetcher.none d.mem.prefetch core p } }

/-- A local LD's touch of line l. A distance of 0 disables the prefetchers. -/
def prefetchTouch (core l : Nat) (miss : Bool) (d : Dev) : Dev :=
  if rd d OD.prefetchDistance = 0 then d
  else modPrefetch core (fun p => { p with trackers := trackTouch l miss p.trackers }) d

/-- Lines that a confirmed stream wants fetched ahead of its latest line. -/
def wanted (dist : Nat) (t : Tracker) : List Nat :=
  if 2 ≤ t.hits then
    ((List.range dist).map (fun i => (t.last : Int) + t.stride * ((i : Int) + 1))).filterMap (fun l => if 0 ≤ l then some l.toNat else none)
  else []

/-- PREFETCH_FILL: a line that a confirmed stream of the core wants comes into its buffer, the line filled least
recently making room; poison, an error, or a line outside usable memory is dropped silently. -/
def prefetchFill (core l : Nat) (d : Dev) : Dev :=
  let p := mget Prefetcher.none d.mem.prefetch core
  let want := p.trackers.any (fun t => (wanted (rd d OD.prefetchDistance) t).contains l)
  let r := readMem d (64 * l) 64
  if want && r.1 == ST.ok && !(p.buffer.any (fun b => b.line == l))
  then modPrefetch core (fun p => { p with buffer := ({ line := l, data := r.2 } :: p.buffer).take 64 })
    (touchRead (64 * l) 64 d)
  else d

def execPrefetchFill (core line : Nat) (s : State) : Out := onDev (prefetchFill core line) s

/-! ## LD and ST -/

/-- Why a lane's LD faults: ST_POISON where the data it returns is poisoned (R96). A buffered line is not. -/
def loadStatus (d : Dev) (x : Issue) (a n : Nat) : Status :=
  let st := accessStatus d x Need.load a n
  if st ≠ ST.ok ∨ threadRemote d a then st
  else
    let loc := a % 2 ^ 49
    if inControl loc then (ctlLoad d loc n).1
    else if (bufferedLine d x.block.core (loc / 64)).isSome then ST.ok
    else if poisonAt d loc then ST.poison else ST.ok

/-- The value a local LD returns. -/
def loadValue (d : Dev) (core loc n : Nat) : Nat :=
  if inControl loc then (ctlLoad d loc n).2
  else match bufferedLine d core (loc / 64) with
    | some b => leNat ((b.drop (loc % 64)).take n)
    | none => leNat (bytesAt d loc n)

/-- What a local LD does to the LLC and the prefetchers. -/
def loadTouch (core loc n : Nat) (d : Dev) : Dev :=
  if inControl loc then d
  else
    let hit := (bufferedLine d core (loc / 64)).isSome
    prefetchTouch core (loc / 64) (!hit) (if hit then d else touchRead loc n d)

/-- Words of the descriptor of a remote load: a read of n bytes at a. -/
def loadWords (a n : Nat) : List W64 := [4, 0, BitVec.ofNat 64 a, BitVec.ofNat 64 n, 0, 0, 0, 0]

/-- One remote load of a lane, of n bytes into so many registers from one. -/
def remoteLoad (x : Issue) (i a n : Nat) (reg : BitVec 8) (regs : Nat) (d : Dev) : Dev :=
  let after := overlapping d x.w i d.tw.nextOp a n ++ earlierLoads d x.w i a n
  let r := issueRemote x (.loadLane x.w) (loadWords a n) true after d
  noteAwait x.w { lane := i, addr := a, size := n, reg, regs, op := r.1, pc := x.pc, atomic := false } r.2

/-- One lane's LD; a remote one of 16 bytes is two of 8 (R317). -/
def loadLane (f : Fields) (x : Issue) (i : Nat) (d : Dev) : Dev :=
  let a := laneAddr f x i
  let n := accessBytes f
  let sz := f.immFld 2 0
  if threadRemote d a then
    if n = 16 then
      remoteLoad x i (a + 8) 8 (if f.dst = 0xFF then 0xFF else f.dst + 2) 2 (remoteLoad x i a 8 f.dst 2 d)
    else remoteLoad x i a n f.dst (sizeRegs sz) d
  else
    let loc := a % 2 ^ 49
    let v := loadValue d x.block.core loc n
    loadTouch x.block.core loc n (modLanes x.w [i] (fun _ l => l.setWide f.dst (sizeRegs sz) v) d)

/-- LD: no register is written where any executing lane's access faults (R96). -/
def execLd (w : Where) (f : Fields) (s : State) : Out :=
  onDev (runInstr w f 4 0x02 (fun x d =>
    let st := firstStatus x.act (fun i => loadStatus d x (laneAddr f x i) (accessBytes f))
    if st ≠ ST.ok then groupFault w st x.pc x.lanes d else x.act.foldl (fun d i => loadLane f x i d) d)) s

/-- Words of the descriptor of a remote store of 2^size bytes. -/
def storeWords (size a v : Nat) : List W64 :=
  [BitVec.ofNat 64 (1 + size * 2 ^ 5), BitVec.ofNat 64 a, BitVec.ofNat 64 v, 0, 0, 0, 0, 0]

/-- A remote store of a lane: it is acknowledged later (R114, R118). It waits for the stores that lower lanes of the same
instruction, whose operations are numbered from `first`, make to the same bytes (R108). -/
def remoteStore (x : Issue) (first i size a v : Nat) (d : Dev) : Dev :=
  let after := overlapping d x.w i first a (2 ^ size)
  let r := issueRemote x (.storeLane x.w i) (storeWords size a v) false after d
  notePending x.w { lane := i, addr := a, size := 2 ^ size, op := r.1 } r.2

/-- Why a lane's ST faults before any byte moves. -/
def storeStatus (d : Dev) (x : Issue) (a n : Nat) : Status :=
  let st := accessStatus d x Need.store a n
  if st ≠ ST.ok ∨ threadRemote d a then st
  else if inControl (a % 2 ^ 49) then (ctlStore .other (a % 2 ^ 49) n 0 d).1 else ST.ok

/-- One lane's ST. A local store answered with another status than ST_OK leaves its error with the group (R118). -/
def storeLane (f : Fields) (x : Issue) (first i : Nat) (d : Dev) : Dev :=
  let a := laneAddr f x i
  let n := accessBytes f
  let bs := storeBytes f (x.lane i)
  if threadRemote d a then
    if n = 16 then remoteStore x first i 3 (a + 8) (leNat (bs.drop 8)) (remoteStore x first i 3 a (leNat (bs.take 8)) d)
    else remoteStore x first i (f.immFld 2 0) a (leNat bs) d
  else
    let loc := a % 2 ^ 49
    let r := if inControl loc then ctlStore .other loc n (leNat bs) d else writeMem loc bs d
    let d := dropBuffered x.block.core loc n r.2
    if r.1 = ST.ok then d
    else modGroup x.w (fun g => { g with storeError := some (g.storeError.getD r.1) }) d

def execSt (w : Where) (f : Fields) (s : State) : Out :=
  onDev (runInstr w f 4 0x03 (fun x d =>
    let st := firstStatus x.act (fun i => storeStatus d x (laneAddr f x i) (accessBytes f))
    if st ≠ ST.ok then groupFault w st x.pc x.lanes d else x.act.foldl (fun e i => storeLane f x d.tw.nextOp i e) d)) s

/-! ## ATOM -/

/-- Why a lane's ATOM faults before any byte moves. -/
def atomStatus (d : Dev) (f : Fields) (x : Issue) (a n : Nat) : Status :=
  let st := accessStatus d x Need.atomic a n
  if st ≠ ST.ok ∨ threadRemote d a then st
  else
    let loc := a % 2 ^ 49
    if inControl loc then (if ctlAtomicOk loc (atomAop f) (atomTy f) then (ctlLoad d loc 8).1 else ST.access)
    else if poisonAt d loc then ST.poison else ST.ok

/-- Words of the descriptor of a remote atomic; word 4 holds the scope, for the acquire when the value returns. -/
def atomWords (f : Fields) (a : Nat) (p : AtomArg) : List W64 :=
  [BitVec.ofNat 64 (2 + atomAop f * 2 ^ 8 + atomTy f * 2 ^ 12), BitVec.ofNat 64 a, BitVec.ofNat 64 p.x,
   BitVec.ofNat 64 (if atomAop f = 7 then p.cmp else 0), BitVec.ofNat 64 (atomScope f), 0, 0, 0]

/-- A remote atomic: one operation for all lanes that name the location, with their operands in ascending lane order
(R91; log entry 10). -/
def remoteAtoms (f : Fields) (x : Issue) (a : Nat) (ls : List Nat) (d : Dev) : Dev :=
  match ls with
  | [] => d
  | i :: is =>
    let n := atomBytes (atomTy f)
    let after := ls.flatMap (fun j => overlapping d x.w j d.tw.nextOp a n ++ earlierLoads d x.w j a n)
    let r := issueRemote x (.atomLane x.w) (atomWords f a (atomArg f x i)) false after d
    let d := modOp r.1 (fun op => { op with data := packArgs (atomAop f) (atomTy f) (is.map (atomArg f x)) }) r.2
    let await := fun (j : Nat) => (⟨j, a, n, f.dst, n / 4, r.1, x.pc, true⟩ : Await)
    ls.foldl (fun d j => noteAwait x.w (await j) (notePending x.w { lane := j, addr := a, size := n, op := r.1 } d)) d

/-- The location that a lane names: a local one has two addresses, with and without the device's own number (R96). -/
def laneLoc (d : Dev) (f : Fields) (x : Issue) (i : Nat) : Nat :=
  if threadRemote d (laneAddr f x i) then laneAddr f x i else laneAddr f x i % 2 ^ 49

/-- One merged update of ATOM: all lanes that name a location (R91). -/
def atomAt (f : Fields) (x : Issue) (a : Nat) (d : Dev) : Dev :=
  let ls := x.act.filter (fun i => laneLoc d f x i == a)
  if threadRemote d a then remoteAtoms f x a ls d
  else
    let loc := a % 2 ^ 49
    let r := atomLocal .other (atomAop f) (atomTy f) loc (ls.map (atomArg f x)) d
    let d := dropBuffered x.block.core loc (atomBytes (atomTy f)) r.2.2
    if r.1 = ST.ok then atomReturn x.w f r.2.1 d else groupFault x.w r.1 x.pc x.lanes d

def execAtom (w : Where) (f : Fields) (s : State) : Out :=
  onDev (runInstr w f 5 0x01 (fun x d =>
    let n := atomBytes (atomTy f)
    let st := firstStatus x.act (fun i => atomStatus d f x (laneAddr f x i) n)
    if st ≠ ST.ok then groupFault w st x.pc x.lanes d
    else atomAcquire f x.block.core
      (((x.act.map (laneLoc d f x)).eraseDups).foldl (fun d a => atomAt f x a d) d))) s

/-! ## Fences (R115-R118) -/

/-- The word of a fence: the command's kind stands in IMM[3:2]. -/
def fenceFields (kind : Nat) (f : Fields) : Fields :=
  { f with imm := BitVec.ofNat 16 (f.immFld 15 4 * 2 ^ 4 + kind * 2 ^ 2 + f.immFld 1 0) }

/-- An acquire of BLOCK scope or wider discards what the core's prefetchers hold. -/
def fenceAcquireAt (f : Fields) (core : Nat) (d : Dev) : Dev := if 1 ≤ f.immFld 1 0 then dropAllBuffered core d else d

/-- Whether an operation is a thread's remote store or atomic. -/
def threadWrites (op : FabOp) : Bool :=
  match op.use_ with
  | .storeLane _ _ => true
  | .atomLane _ => true
  | _ => false

/-- Every remote store or atomic of threads that no coherence point has acknowledged yet, those of blocks that have ended
among them. -/
def allPending (d : Dev) : List Nat := (d.tw.ops.filter (fun o => threadWrites o.2)).map (fun o => o.1)

/-- A release of SYSTEM scope waits for every remote store that happened before it; a narrower one has nothing to wait
for, as every local store is performed at once (R115, R117). One that is an acquire as well says so. -/
def fenceReleaseAt (acquires : Bool) (f : Fields) (x : Issue) (d : Dev) : Dev :=
  let ops := allPending d
  if f.immFld 1 0 = 3 ∧ ops ≠ [] ∧ x.act ≠ [] then
    modLanes x.w x.act (fun _ l => { l with st := .waitFence })
      (modGroup x.w (fun g => { g with fences := g.fences ++ [{ lanes := x.act, ops, acquires, status := ST.ok }] }) d)
  else d

def execFenceAcquire (w : Where) (f : Fields) (s : State) : Out :=
  onDev (runInstr w (fenceFields 0 f) 6 0x00 (fun x d => fenceAcquireAt f x.block.core d)) s

def execFenceRelease (w : Where) (f : Fields) (s : State) : Out :=
  onDev (runInstr w (fenceFields 1 f) 6 0x00 (fun x d => deliverStoreError x (fenceReleaseAt false f x) d)) s

def execFenceBoth (w : Where) (f : Fields) (s : State) : Out :=
  onDev (runInstr w (fenceFields 2 f) 6 0x00 (fun x d =>
    deliverStoreError x (fun d => fenceReleaseAt true f x (fenceAcquireAt f x.block.core d)) d)) s

/-- Whether a fence has all the acknowledgements it waits for. -/
def fenceReady (d : Dev) (fw : FenceWait) : Bool := fw.ops.all (fun i => (findOp d i).isNone)

/-- FENCE_COMPLETE: the fences of a group that wait for nothing any more end; where a store that one waited for failed, the
group faults with its status (R118). One that is an acquire discards again what the core's prefetchers fetched while it
waited (R115). -/
def fenceComplete (w : Where) (d : Dev) : Dev :=
  match findGroup d w with
  | none => d
  | some (b, g) =>
    let ready := g.fences.filter (fenceReady d)
    let lanes := ready.flatMap (fun fw => fw.lanes)
    if ready.isEmpty then d
    else match ready.find? (fun fw => decide (fw.status ≠ ST.ok)) with
      | some fw => groupFault w fw.status ((g.lanes.getD (fw.lanes.headD 0) (Lane.fresh 0 8)).pc - 8) fw.lanes d
      | none =>
        let d1 := modLanes w lanes (fun _ l => if l.st = .waitFence then { l with st := .run } else l)
          (modGroup w (fun g => { g with fences := g.fences.filter (fun fw => !fenceReady d fw) }) d)
        if ready.any (fun fw => fw.acquires) then dropAllBuffered b.core d1 else d1

def execFenceComplete (w : Where) (s : State) : Out := onDev (fenceComplete w) s

/-- STORE_ACK: the coherence point of a group's remote store answers it with a status. Every packet of the operation
counts as answered, and the operation completes. -/
def storeAck (w : Where) (ix : Nat) (st : Status) (d : Dev) : Dev :=
  match findGroup d w with
  | none => d
  | some (_, g) =>
    match g.stores[ix]? with
    | none => d
    | some p =>
      match findOp d p.op with
      | none => d
      | some op =>
        match op.use_ with
        | .storeLane _ _ =>
          if op.fixed ∨ (op.pkts.all (fun q => decide (q.st = .flying))) then
            endThreadOp p.op (if op.fixed then op else { op with status := st }) d
          else d
        | _ => d

def execStoreAck (w : Where) (ix : Nat) (status : Status) (s : State) : Out := onDev (storeAck w ix status) s

/-! ## Counter waits (R100, R101) -/

def ccAt (b : Block) (n : Nat) : Nat := (b.cc.getD n 0).toNat

/-- WAITC: a lane whose completion counter has not reached its value waits. The wait is an acquire at BLOCK scope. -/
def execWaitc (w : Where) (f : Fields) (s : State) : Out :=
  onDev (runInstr w f 0xE 0x00 (fun x => deliverStoreError x (fun d =>
    let n := f.immFld 3 0
    let now := x.act.filter (fun i => reached (ccAt x.block n) ((x.lane i).reg f.srcA))
    let d := if now.isEmpty then d else dropAllBuffered x.block.core d
    modLanes w (x.act.filter (fun i => !now.contains i))
      (fun _ l => { l with st := .waitCc n (l.reg f.srcA) d.tick }) d))) s

/-- WAITA: the same on the arrival counter that SRC_B[15:0] names. -/
def execWaita (w : Where) (f : Fields) (s : State) : Out :=
  onDev (runInstr w f 0xE 0x01 (fun x => deliverStoreError x (fun d =>
    let ctr := fun i => fld ((x.lane i).reg f.srcB) 15 0
    let now := x.act.filter (fun i => reached (counterAt d (ctr i)) ((x.lane i).reg f.srcA))
    let d := if now.isEmpty then d else dropAllBuffered x.block.core d
    modLanes w (x.act.filter (fun i => !now.contains i))
      (fun i l => { l with st := .waitArr (ctr i) (l.reg f.srcA) d.tick }) d))) s

/-- A lane that waits for a completion counter goes on once the counter reaches its value. -/
def wakeCcLane (n v : Nat) (l : Lane) : Lane :=
  match l.st with
  | .waitCc k x _ => if k = n ∧ reached v x then { l with st := .run } else l
  | _ => l

/-- A completion counter of a resident block raised by one, and the lanes it releases: for each an acquire at BLOCK
scope. A block that has ended has no counters. -/
def completeCounter (grid no n : Nat) (d : Dev) : Dev :=
  match findBlock d grid no with
  | none => d
  | some b =>
    let v := (ccAt b n + 1) % 2 ^ 32
    let woken := b.groups.any (fun g => g.lanes.any (fun l => l != wakeCcLane n v l))
    let d := modBlock grid no (fun b => { b with
      cc := lset b.cc n (BitVec.ofNat 32 v),
      groups := b.groups.map (fun g => { g with lanes := g.lanes.map (wakeCcLane n v) }) }) d
    if woken then dropAllBuffered b.core d else d

/-! ## Posting (R98, R99) -/

/-- The address of a post is local: bits [63:49] zero or the device's own number. -/
def postLocal (d : Dev) (a : Nat) : Bool := a / 2 ^ 49 == 0 || a / 2 ^ 49 == devNo d

/-- One post per executing lane in ascending order; DST receives the acceptance status. A lane whose queue is full
stays at the instruction, and so do the lanes after it. -/
def postEach (w : Where) (f : Fields) (pc : Nat) (full : Nat → Dev → Bool) (post : Nat → Dev → Status × Dev) (addr : Nat → Nat) :
    List Nat → Dev → Dev
  | [], d => d
  | i :: is, d =>
    if full (addr i % 2 ^ 49) d then modLanes w (i :: is) (fun _ l => { l with pc }) d
    else
      let r := if postLocal d (addr i) then post (addr i % 2 ^ 49) d else (ST.invalid, d)
      postEach w f pc full post addr is
        (modLanes w [i] (fun _ l => l.setReg f.dst (BitVec.ofNat 32 r.1.toNat)) r.2)

/-- A posting instruction: a store error of the group is delivered first (R118); then the posts. -/
def postInstr (w : Where) (f : Fields) (cls : Nat) (full : Issue → Nat → Dev → Bool)
    (post : Issue → Nat → Dev → Status × Dev) : Dev → Dev :=
  runInstr w f cls 0x00 (fun x => deliverStoreError x (fun d =>
    postEach w f x.pc (full x) (post x) (laneAddr f x) x.act d))

/-- A post to a fabric queue of the core (R310). -/
def postFabric (x : Issue) (q addr : Nat) (d : Dev) : Status × Dev :=
  let y := readFabDesc d addr x.grid.ctx (.lane x.w.grid x.w.block) x.grid.step x.grid.mb
  let st := firstBad (firstBad (useOf d (computeFn x.block.core)) (useAny d linkDies)) (fabAccept d addr x.grid.ctx y)
  (st, if st = ST.ok then pushDesc (4 * x.block.core + q) y d else d)

def execFxi (w : Where) (f : Fields) (s : State) : Out :=
  onDev (postInstr w f 0xD
    (fun x _ d => decide (64 ≤ (queueOf d (4 * x.block.core + f.immFld 1 0)).accepted.length))
    (fun x a d => postFabric x (f.immFld 1 0) a d)) s

end Sys2Proof.Machine
end

