-- ==== Sys2Proof/Machine/Twizan.lean ====
section
/-!
DEFINITION. The commands of the memory space: device number, contexts and their teardown, local regions, the translation
table, topology objects (R289-R302, R331, R350, R356).
-/

namespace Sys2Proof.Machine

/-! ## Contexts (R290-R292) -/

def ctxCode : CtxSt → Nat
  | .free => 0 | .live => 1 | .draining => 2 | .quiet => 3

/-- Whether every context is FREE. -/
def allFree (d : Dev) : Bool := d.tw.ctxs.all (fun c => decide (c.2.st = .free))

/-- State code of the lowest context that is not FREE. -/
def busyCtx (d : Dev) : Nat := ((d.tw.ctxs.find? (fun c => decide (c.2.st ≠ .free))).map (fun c => ctxCode c.2.st)).getD 0

def ctxUnit (c : Nat) (d : Dev) : Nat := ctxCode (ctxOf d c).st

/-- A context changes state: EV_3004 (R292). -/
def moveCtx (c : Nat) (x : Ctx) (d : Dev) : Dev :=
  raise (ldPort 0) 0x3004 0 (c + ctxCode x.st * 2 ^ 8 + x.epoch * 2 ^ 10) [] (setCtx c { x with since := d.tick } d)

/-- DEVICE_NUMBER_WRITE (R289). -/
def execDeviceNumberWrite (p : Path) (n : Nat) (s : State) : Out :=
  onDev (runScalar OD.deviceNumber p n true busyCtx
    (fun d => if allFree d then (ST.ok, wr OD.deviceNumber n d) else (ST.state, d))) s

/-- What flagged stores cover begins anew with a context (R318). -/
def forgetFlags (c : Nat) (d : Dev) : Dev :=
  let f := fun (_ : Nat) (q : FabQueue) => { q with
    fails := q.fails.filter (fun e => e.1 != c),
    lastFlag := mfilter (fun k _ => k / 2 ^ 32 != c) q.lastFlag }
  { d with tw := { d.tw with queues := mmap f d.tw.queues } }

def createCtx (c : Nat) : WriteOp := fun d =>
  if (ctxOf d c).st = .free
  then (ST.ok, setCommandStatus OD.contextCommand ST.ok (forgetFlags c (moveCtx c { ctxOf d c with st := .live } d)))
  else (ST.state, d)

/-- CREATE: a FREE context becomes LIVE. -/
def execCreate (p : Path) (ctx : Nat) (reserved : Bool) (s : State) : Out :=
  execCommand OD.contextCommand 8 .rws p [1 + ctx * 2 ^ 4] (reserved || decide (64 ≤ ctx)) (ctxUnit ctx) (createCtx ctx) s

/-! ### Teardown (R356) -/

/-- The sequencer's item that posted a descriptor still in its queue has failed. -/
def itemFenced (x : FabDesc) (d : Dev) : Dev :=
  match x.origin with
  | .item n =>
    { d with seq := { d.seq with
        items := mmap (fun k i => if k = n then { i with st := .done } else i) d.seq.items,
        cause := Nat.max d.seq.cause 4 } }
  | _ => d

/-- An accepted descriptor that was not issued completes with ST_FENCED: record and SRC_CNT, no packet (R321). -/
def fenceDesc (q : Nat) (x : FabDesc) (d : Dev) : Dev :=
  let id := d.tw.nextOp
  let op : FabOp :=
    { desc := x, use_ := .queue, slot := q, epoch := (ctxOf d x.ctx).epoch, seq := 0, sequenced := false, pkts := [],
      begun := true, status := ST.fenced, fixed := true, bytes := 0, result := 0, data := [], multi := false,
      counted := false, after := [] }
  itemFenced x (endQueueOp id op { d with tw := { d.tw with nextOp := id + 1 } })

/-- Issue stops: the context's accepted descriptors leave every queue. -/
def fenceQueues (c : Nat) (d : Dev) : Dev :=
  d.tw.queues.foldl (fun d q =>
    let mine := q.2.accepted.filter (fun x => x.ctx == c)
    let fq := queueOf d q.1
    let d := setQueue q.1 { fq with accepted := fq.accepted.filter (fun x => x.ctx != c) } d
    mine.foldl (fun d x => fenceDesc q.1 x d) d) d

def teardownCtx (c : Nat) : WriteOp := fun d =>
  if (ctxOf d c).st = .live
  then (ST.ok, setCommandStatus OD.contextCommand ST.ok (fenceQueues c (moveCtx c { ctxOf d c with st := .draining } d)))
  else (ST.state, d)

/-- TEARDOWN: stage 1 of R356. -/
def execTeardown (p : Path) (ctx : Nat) (reserved : Bool) (s : State) : Out :=
  execCommand OD.contextCommand 8 .rws p [2 + ctx * 2 ^ 4] (reserved || decide (64 ≤ ctx)) (ctxUnit ctx)
    (teardownCtx ctx) s

/-- An operation still outstanding at the end of the drain: ST_TIMEOUT, a sequenced one ST_UNKNOWN_OUTCOME; counted (R354, R356). -/
def expireOp (id : Nat) (d : Dev) : Dev :=
  match findOp d id with
  | none => d
  | some op =>
    let st := if op.sequenced then ST.unknownOutcome else ST.timeout
    let told := op.fixed && decide (op.status = st)
    let op := { fixStatus st op with begun := true, status := st }
    let d := inc OD.drainExpired d
    let d := if told then d else if op.sequenced then countUnknown d else countTimeout d
    match op.use_ with
    | .queue => endQueueOp id op d
    | .hostRead _ => setOp id op d
    | .hostWrite e => endHostWrite id e op d
    | .antler run => endAntlerOp id run op d
    | _ => endThreadOp id op d

/-- Outstanding operations of a context. -/
def opsOf (d : Dev) (c : Nat) : List Nat := (d.tw.ops.filter (fun o => o.2.desc.ctx == c)).map (fun o => o.1)

def notOf (c : Nat) (t : List FttEntry) : List FttEntry := t.filter (fun e => e.ctx != c)

/-- The context's entries, regions and epoch (R356 3). -/
def invalidateCtx (c : Nat) (d : Dev) : Dev :=
  let x := ctxOf d c
  let d := { d with tw := { d.tw with
    ftt0 := notOf c d.tw.ftt0, ftt1 := notOf c d.tw.ftt1,
    fttPending := d.tw.fttPending.map (fun p => { p with newTable := notOf c p.newTable }) } }
  moveCtx c { x with st := .quiet, epoch := (x.epoch + 1) % 2 ^ 16, regions := [] } d

/-- DRAIN_END: when no operation of the context is outstanding, or T_drain has passed. -/
def drainEnd (c : Nat) (d : Dev) : Dev :=
  let x := ctxOf d c
  if x.st ≠ .draining then d
  else if opsOf d c = [] ∨ x.since + tDrain d ≤ d.tick then
    invalidateCtx c ((opsOf d c).foldl (fun d id => expireOp id d) d)
  else d

def execDrainEnd (ctx : Nat) (s : State) : Out := onDev (drainEnd ctx) s

/-- QUIET_END: after T_life the context is FREE. -/
def quietEnd (c : Nat) (d : Dev) : Dev :=
  let x := ctxOf d c
  if x.st = .quiet ∧ x.since + tLifeUs d ≤ d.tick then moveCtx c { x with st := .free } d else d

def execQuietEnd (ctx : Nat) (s : State) : Out := onDev (quietEnd ctx) s

/-! ## Local regions (R294, R295) -/

def regionOf (w1 w2 : W64) : Region :=
  { valid := bit w1 0, rd := bit w1 1, wr := bit w1 2, ex := bit w1 3, base := fld w1 48 16, last := fld w2 48 16 }

/-- Reserved bits of a region's words, and LAST below BASE. -/
def regionBad (w1 w2 : W64) : Bool :=
  fld w1 15 4 != 0 || fld w1 63 49 != 0 || fld w2 15 0 != 0 || fld w2 63 49 != 0 || decide (fld w2 48 16 < fld w1 48 16)

def setRegion (c slot : Nat) (w1 w2 : W64) : WriteOp := fun d =>
  let x := ctxOf d c
  if x.st = .draining ∨ x.st = .quiet then (ST.state, d)
  else (ST.ok, setCommandStatus OD.localRegionCommand ST.ok
    (setCtx c { x with regions := mset x.regions slot (regionOf w1 w2) } d))

/-- LOCAL_REGION_WRITE. -/
def execLocalRegionWrite (p : Path) (ctx slot : Nat) (w1 w2 : W64) (reserved : Bool) (s : State) : Out :=
  execCommand OD.localRegionCommand 24 .rws p [ctx + slot * 2 ^ 6, w1.toNat, w2.toNat]
    (reserved || regionBad w1 w2 || decide (64 ≤ ctx) || decide (64 ≤ slot)) (ctxUnit ctx) (setRegion ctx slot w1 w2) s

/-! ## The translation table (R297-R302) -/

def entryOf (e0 e1 : W64) : FttEntry :=
  { size := fld e0 2 1, ctx := fld e0 8 3, rd := bit e0 9, wr := bit e0 10, at_ := bit e0 11, cnt := bit e0 12,
    key := fld e0 63 16, tgt := fld e1 47 0 }

/-- Encoding errors of an entry's words: reserved bits, an undefined SIZE, a KEY (and, where it counts, TGT) not aligned to it. -/
def entryBad (e0 e1 : W64) (tgt : Bool) : Bool :=
  let e := entryOf e0 e1
  fld e0 15 13 != 0 || fld e1 63 48 != 0 || e.size == 3 ||
  e.key % 2 ^ (pageBits e.size - 16) != 0 || (tgt && e.tgt % 2 ^ (pageBits e.size - 16) != 0)

/-- Why a context's entries may not be changed now. -/
def fttHeld (d : Dev) (c : Nat) : Bool :=
  (ctxOf d c).st == .draining || (ctxOf d c).st == .quiet || d.tw.fttPending.isSome

/-- The status of an INSERT (R299). -/
def insertStatus (t : List FttEntry) (e : FttEntry) : Status :=
  if t.any (fttOverlap e) then ST.fttConflict
  else if 8 ≤ (t.filter (fun f => fttSet f == fttSet e)).length then ST.fttFull else ST.ok

/-- A command accepted: the new table is pending until both copies hold it. -/
def startFtt (t : List FttEntry) (d : Dev) : Dev :=
  setCommandStatus OD.fttCommand ST.pending
    { d with tw := { d.tw with fttPending := some { newTable := t, bulk := false, rest := [], inserted := 0 } } }

/-- EV_3002 where a set was full. -/
def noteFull (st : Status) (d : Dev) : Dev := if st = ST.fttFull then raise (ldPort 0) 0x3002 0 0 [] d else d

def insertOp (e : FttEntry) : WriteOp := fun d =>
  if fttHeld d e.ctx then (ST.state, d)
  else
    let st := insertStatus d.tw.ftt0 e
    if st = ST.ok then (ST.ok, startFtt (d.tw.ftt0 ++ [e]) d) else (st, noteFull st d)

def removeOpFtt (e : FttEntry) : WriteOp := fun d =>
  if fttHeld d e.ctx then (ST.state, d) else (ST.ok, startFtt (d.tw.ftt0.filter (fun f => !fttSame e f)) d)

def setRightsOp (e : FttEntry) : WriteOp := fun d =>
  if fttHeld d e.ctx ∨ !d.tw.ftt0.any (fttSame e) then (ST.state, d)
  else (ST.ok, startFtt (d.tw.ftt0.map (fun f => if fttSame e f then e else f)) d)

def removeContextOp (c : Nat) : WriteOp := fun d =>
  if fttHeld d c then (ST.state, d) else (ST.ok, startFtt (notOf c d.tw.ftt0) d)

def execInsert (p : Path) (e0 e1 : W64) (reserved : Bool) (s : State) : Out :=
  execCommand OD.fttCommand 32 .rws p [1, e0.toNat, e1.toNat] (reserved || entryBad e0 e1 true || !bit e0 0) (ctxUnit (entryOf e0 e1).ctx)
    (insertOp (entryOf e0 e1)) s

def execRemove (p : Path) (e0 e1 : W64) (reserved : Bool) (s : State) : Out :=
  execCommand OD.fttCommand 32 .rws p [2, e0.toNat, e1.toNat] (reserved || entryBad e0 e1 false) (ctxUnit (entryOf e0 e1).ctx)
    (removeOpFtt (entryOf e0 e1)) s

def execSetrights (p : Path) (e0 e1 : W64) (reserved : Bool) (s : State) : Out :=
  execCommand OD.fttCommand 32 .rws p [3, e0.toNat, e1.toNat] (reserved || entryBad e0 e1 true || !bit e0 0) (ctxUnit (entryOf e0 e1).ctx)
    (setRightsOp (entryOf e0 e1)) s

def execRemoveContext (p : Path) (ctx : Nat) (reserved : Bool) (s : State) : Out :=
  execCommand OD.fttCommand 32 .rws p [4 + ctx * 2 ^ 4] (reserved || decide (64 ≤ ctx)) (ctxUnit ctx)
    (removeContextOp ctx) s

/-- FttBulkResult: entries inserted and the status. -/
def setBulkResult (n : Nat) (st : Status) (d : Dev) : Dev := wr OD.fttBulkResult (n % 2 ^ 32 + st.toNat * 2 ^ 32) d

/-- The next entry of a bulk write: it goes on, stops at a refusal, or is done. -/
def bulkNext (rest : List (W64 × W64)) (n : Nat) (d : Dev) : Dev :=
  let d := { d with tw := { d.tw with fttPending := none } }
  match rest with
  | [] => setBulkResult n ST.ok d
  | (e0, e1) :: es =>
    let e := entryOf e0 e1
    let st := if entryBad e0 e1 true || !bit e0 0 then ST.invalid
      else if fttHeld d e.ctx then ST.state else insertStatus d.tw.ftt0 e
    if st = ST.ok then
      setBulkResult n ST.pending { d with tw := { d.tw with
        fttPending := some { newTable := d.tw.ftt0 ++ [e], bulk := true, rest := es, inserted := n } } }
    else setBulkResult n st (noteFull st d)

/-- The bytes of a bulk write, which its object reads back (R567). -/
def bulkBytes (es : List (W64 × W64)) : Bytes := es.flatMap (fun e => leBytes 8 e.1.toNat ++ leBytes 8 e.2.toNat)

def bulkOp (entries : List (W64 × W64)) : WriteOp := fun d =>
  if d.tw.fttPending.isSome then (ST.state, d)
  else (ST.ok, wrBytes OD.fttBulkInsert (bulkBytes entries) (bulkNext entries 0 d))

/-- FTT_BULK_INSERT: 1 to 4,096 entries, each inserted once the one before is held by both copies. -/
def execFttBulkInsert (p : Path) (entries : List (W64 × W64)) (s : State) : Out :=
  onDev (runWrite OD.fttBulkInsert (16 * entries.length) .rws false p
    (if entries.length = 0 ∨ 4096 < entries.length then ST.length else ST.ok) busyCtx
    (bulkOp entries)) s

/-- FTT_COMMAND_DONE: both copies hold the result. -/
def fttDone (d : Dev) : Dev :=
  match d.tw.fttPending with
  | none => d
  | some p =>
    let d := { d with tw := { d.tw with ftt0 := p.newTable, ftt1 := p.newTable, fttPending := none } }
    if p.bulk then bulkNext p.rest (p.inserted + 1) d else setCommandStatus OD.fttCommand ST.ok d

def execFttCommandDone (s : State) : Out := onDev fttDone s

/-! ## Topology (R331, R350) -/

/-- The objects that are written only while every context is FREE. -/
def topologyKeys : List Nat :=
  [OD.topologyClass, OD.memorySpaceDevices, OD.switchStageTime, OD.switchStageTime + 1, OD.switchStageTime + 2, OD.fibreMax]

/-- Whether T_keep holds T_tx + T_life + 4 µs. -/
def keepOk (d : Dev) : Bool :=
  decide (rd d OD.txTimeout * 1000 + tLifeNs d + 4000 ≤ rd d OD.replayRetention * 1000)

def topologyOp (key v : Nat) : WriteOp := fun d =>
  if !keepOk (wr key v d) then (ST.invalid, d)
  else if allFree d then (ST.ok, wr key v d) else (ST.state, d)

/-- TOPOLOGY_WRITE. -/
def execTopologyWrite (p : Path) (index sub value : Nat) (s : State) : Out :=
  onDev (fun d =>
    let key := 256 * index + sub
    if topologyKeys.contains key then runScalar key p value true busyCtx (topologyOp key value) d else d) s

end Sys2Proof.Machine
end

