-- ==== Sys2Proof/Machine/Units.lean ====
section
/-!
DEFINITION. The matrix units and Piste engines as queues: descriptor fields (R146, R147, R233, R235), acceptance (R148-R150,
R162, R234, R236), posting by MXI and CHI (R98, R152), and completion (R153, R154, R245).
-/

namespace Sys2Proof.Machine

/-! ## Format codes (R147, R234) -/

def codeFmt : Nat → Fmt
  | 1 => .bf16 | 2 => .fp16 | 3 => .e4m3 | 4 => .e5m2 | 5 => .e4m3 | 6 => .e5m2 | 7 => .e3m2 | 8 => .e2m3 | 9 => .e2m1
  | 10 => .mxint8 | _ => .fp32

/-- Bits of an element: RAW96 is 128, BIT (0xC) is 1. -/
def codeBits (c : Nat) : Nat := if c = 11 then 128 else if c = 12 then 1 else (codeFmt c).bits

def isMx (c : Nat) : Bool := decide (5 ≤ c) && decide (c ≤ 10)
/-- A non-MX 8-bit format, which takes a tensor scale. -/
def isTensor8 (c : Nat) : Bool := c == 3 || c == 4
def isWide (c : Nat) : Bool := decide (c ≤ 2)
def isNarrow (c : Nat) : Bool := decide (3 ≤ c) && decide (c ≤ 10)

/-- Bytes of a row of n elements. -/
def rowBytes (c n : Nat) : Nat := (n * codeBits c + 7) / 8
/-- Blocks of 32 along a dimension. -/
def blocks32 (n : Nat) : Nat := (n + 31) / 32

/-- Bytes from a row's first to a last row's last. An operand of no rows, or of rows of no bytes, has none, and nothing of it is
checked (DESIGN CHOICE, log entry 111). -/
def extentOf (rows ld bytes : Nat) : Nat := if rows = 0 ∨ bytes = 0 then 0 else (rows - 1) * ld + bytes

/-! ## Matrix descriptor fields (R146) -/

def mxUnit (w : List W64) : Nat := fld (word w 0) 3 0
def mxMode (w : List W64) : Nat := fld (word w 0) 5 4
def mxA (w : List W64) : Nat := fld (word w 0) 9 6
def mxB (w : List W64) : Nat := fld (word w 0) 13 10
def mxC (w : List W64) : Nat := fld (word w 0) 17 14
def mxTransA (w : List W64) : Bool := bit (word w 0) 18
def mxTransB (w : List W64) : Bool := bit (word w 0) 19
def mxAccIn (w : List W64) : Bool := bit (word w 0) 20
def mxRnd (w : List W64) : Bool := bit (word w 0) 21
def mxAnchorSet (w : List W64) : Bool := bit (word w 0) 22
def mxAAddr (w : List W64) : Nat := fld (word w 1) 48 0
def mxBAddr (w : List W64) : Nat := fld (word w 2) 48 0
def mxCAddr (w : List W64) : Nat := fld (word w 3) 48 0
def mxCInAddr (w : List W64) : Nat := fld (word w 4) 48 0
def mxM (w : List W64) : Nat := fld (word w 5) 31 0
def mxN (w : List W64) : Nat := fld (word w 5) 63 32
def mxK (w : List W64) : Nat := fld (word w 6) 31 0
def mxLdA (w : List W64) : Nat := fld (word w 6) 63 32
def mxLdB (w : List W64) : Nat := fld (word w 7) 31 0
def mxLdC (w : List W64) : Nat := fld (word w 7) 63 32
def mxLdCIn (w : List W64) : Nat := fld (word w 8) 31 0
def mxASexp (w : List W64) : Nat := fld (word w 8) 39 32
def mxBSexp (w : List W64) : Nat := fld (word w 8) 47 40
def mxCSexp (w : List W64) : Nat := fld (word w 8) 55 48
def mxAScale (w : List W64) : Nat := fld (word w 9) 48 0
def mxBScale (w : List W64) : Nat := fld (word w 10) 48 0
def mxCScale (w : List W64) : Nat := fld (word w 11) 48 0
def mxHm2A (w : List W64) : W32 := BitVec.ofNat 32 (fld (word w 12) 31 0)
def mxHm2B (w : List W64) : W32 := BitVec.ofNat 32 (fld (word w 12) 63 32)
def mxStream (w : List W64) : Nat := fld (word w 13) 31 0
def mxHm2C (w : List W64) : W32 := BitVec.ofNat 32 (fld (word w 13) 63 32)
def mxRecord (w : List W64) : Nat := fld (word w 14) 48 0
def mxCInScale (w : List W64) : Nat := fld (word w 15) 48 0

/-- N3 narrow mode: AA96 accumulators (R148). -/
def mxNarrow (w : List W64) : Bool := mxMode w == 0 && isNarrow (mxA w)

/-- Anchor of AA96 (R185). -/
def mxAnchor (w : List W64) : Int :=
  if mxAnchorSet w then sext 16 (fld (word w 0) 47 32) else (mxCSexp w : Int) - 127 - 64

/-! ## Matrix acceptance (R150) -/

/-- Reserved fields, undefined codes, used E8M0 fields of 0xFF, the record's alignment. -/
def mxMalformed (w : List W64) : Bool :=
  fld (word w 0) 31 23 != 0 || fld (word w 0) 63 48 != 0 ||
  [1, 2, 3, 4, 9, 10, 11, 14, 15].any (fun i => fld (word w i) 63 49 != 0) || fld (word w 8) 63 56 != 0 ||
  mxUnit w == 0 || decide (3 < mxUnit w) || mxMode w == 3 ||
  decide (11 < mxA w) || decide (11 < mxB w) || decide (11 < mxC w) ||
  (mxMode w == 0 && ((isTensor8 (mxA w) && mxASexp w == 255) || (isTensor8 (mxB w) && mxBSexp w == 255) ||
    ((isNarrow (mxA w) || isNarrow (mxB w)) && (!mxAnchorSet w || !(isMx (mxC w) || mxC w == 11)) && mxCSexp w == 255))) ||
  mxRecord w % 16 != 0

/-- The rows of R148. -/
def mxFormats (w : List W64) : Bool :=
  match mxMode w with
  | 0 => (isNarrow (mxA w) && isNarrow (mxB w)) || (isWide (mxA w) && isWide (mxB w) && isWide (mxC w))
  | 1 => mxA w == 1 && mxB w == 1 && decide (mxC w ≤ 1)
  | _ => isTensor8 (mxA w) && isTensor8 (mxB w) && decide (mxC w ≤ 1)

/-- The operands of an operation: address and bytes. Where M or N is 0 it reads and writes none (R151). -/
def mxInputs (w : List W64) : List (Nat × Nat) :=
  let m := mxM w
  let n := mxN w
  let k := mxK w
  if m = 0 ∨ n = 0 then [] else
  [(mxAAddr w, if mxTransA w then extentOf k (mxLdA w) (rowBytes (mxA w) m) else extentOf m (mxLdA w) (rowBytes (mxA w) k)),
   (mxBAddr w, if mxTransB w then extentOf n (mxLdB w) (rowBytes (mxB w) k) else extentOf k (mxLdB w) (rowBytes (mxB w) n))] ++
  (if isMx (mxA w) then [(mxAScale w, m * blocks32 k)] else []) ++
  (if isMx (mxB w) then [(mxBScale w, n * blocks32 k)] else []) ++
  (if mxAccIn w then [(mxCInAddr w, extentOf m (mxLdCIn w) (rowBytes (mxC w) n))] else []) ++
  (if mxAccIn w && isMx (mxC w) then [(mxCInScale w, m * blocks32 n)] else [])

def mxOutputs (w : List W64) : List (Nat × Nat) :=
  if mxM w = 0 ∨ mxN w = 0 then [] else
  (mxCAddr w, extentOf (mxM w) (mxLdC w) (rowBytes (mxC w) (mxN w))) ::
  (if isMx (mxC w) then [(mxCScale w, mxM w * blocks32 (mxN w))] else [])

/-- Whether an extent passes the end of the HBM range or CXL window that holds its base. A base outside both is no matter of
length (R150, R236). -/
def tooLong (e : Nat × Nat) : Bool :=
  match zone e.1 with
  | .hbm => decide (hbmEnd < e.1 + e.2)
  | .cxl => decide (cxlEnd < e.1 + e.2)
  | _ => false

def mxTooLong (w : List W64) : Bool :=
  decide (mxLdC w < rowBytes (mxC w) (mxN w)) || (mxInputs w).any tooLong || (mxOutputs w).any tooLong ||
  (mxMode w == 0 && mxC w != 11 && mxRnd w && decide (2 ^ 32 < mxM w * mxN w))

def mxDenied (d : Dev) (ctx : Nat) (w : List W64) : Bool :=
  (mxInputs w).any (fun e => !localOk d ctx Need.load e.1 e.2) ||
  (mxOutputs w).any (fun e => !localOk d ctx Need.store e.1 e.2) ||
  (mxRecord w != 0 && !localOk d ctx Need.store (mxRecord w) 16)

/-- The acceptance status of a matrix descriptor. -/
def mxRefusal (d : Dev) (ctx : Nat) (w : List W64) : Status :=
  if mxMalformed w then ST.invalid
  else if !mxFormats w then ST.format
  else if mxTooLong w then ST.length
  else if mxDenied d ctx w then ST.access
  else ST.ok

/-! ## Units -/

def ExecUnit.empty : ExecUnit := { queue := [], run := none }

/-- The unit of a cluster: its array or its skate path. -/
def unitKey (cluster : Nat) (skate : Bool) : Nat := 2 * cluster + (if skate then 1 else 0)
def unitOf (d : Dev) (k : Nat) : ExecUnit := mget ExecUnit.empty d.units k
def setUnit (k : Nat) (u : ExecUnit) (d : Dev) : Dev := { d with units := mput ExecUnit.empty d.units k u }
def pisteOf (d : Dev) (core : Nat) : ExecUnit := mget ExecUnit.empty d.piste core
def setPiste (core : Nat) (u : ExecUnit) (d : Dev) : Dev := { d with piste := mput ExecUnit.empty d.piste core u }

/-- Engine of a unit. -/
def unitEngine (k : Nat) : Nat := (if k % 2 = 1 then 0x2000 else 0x1000) + k / 2

/-- Whether a cluster is fenced for a move or marked failed (R511, R514). -/
def clusterFenced (d : Dev) (c : Nat) : Bool :=
  d.faults.failedClusters.contains c || d.faults.resets.any (fun r => r.tier == 2 && r.target == c)

/-- What the state of the compute die, the cluster and the engine answers to a post. -/
def engineUse (d : Dev) (engine cluster : Nat) : Status :=
  let st := useOf d (computeFn (8 * cluster))
  if st ≠ ST.ok then st else if clusterFenced d cluster ∨ engineInReset d engine then ST.fenced else ST.ok

/-- Whether a matrix operation goes to the skate path (R162). -/
def takesSkate (d : Dev) (w : List W64) : Bool :=
  mxUnit w == 2 || (mxUnit w == 3 && decide (mxM w ≤ rd d OD.skateAutoRows) && rd d OD.skateAutoRows != 0)

def posterOf (x : Issue) (cc : Nat) : Poster :=
  { grid := x.w.grid, block := x.w.block, cc, ctx := x.grid.ctx, step := x.grid.step, mb := x.grid.mb }

/-- A post to a matrix unit of the core's cluster. A descriptor that cannot be read is answered with the status of its
read, after the check of its address (log entry 17). -/
def postMatrix (x : Issue) (cc addr : Nat) (d : Dev) : Status × Dev :=
  let r := readMem d addr 128
  let w := wordsOf 16 r.2
  let c := x.block.core / 8
  let k := unitKey c (takesSkate d w)
  let st := if addr % 128 ≠ 0 then ST.invalid else if r.1 ≠ ST.ok then r.1
    else firstBad (engineUse d (unitEngine k) c) (mxRefusal d x.grid.ctx w)
  if st = ST.ok then
    let u := unitOf d k
    (ST.ok, setUnit k { u with queue := u.queue ++ [{ words := w, by_ := posterOf x cc }] } d)
  else (st, d)

/-- Whether the unit a descriptor would go to has no room. -/
def matrixFull (x : Issue) (addr : Nat) (d : Dev) : Bool :=
  let k := unitKey (x.block.core / 8) (takesSkate d (wordsAt d addr 16))
  decide (8 ≤ (unitOf d k).queue.length)

/-- MXI. -/
def execMxi (w : Where) (f : Fields) (s : State) : Out :=
  onDev (postInstr w f 0xB matrixFull (fun x a d => postMatrix x (f.immFld 3 0) a d)) s

/-! ## Chain descriptor fields (R233, R235) -/

def chStages (w : List W64) : Nat := fld (word w 0) 3 0
def chSplit (w : List W64) : Nat := fld (word w 0) 6 4
def chMode (w : List W64) : Nat := fld (word w 0) 8 7
def chTap0 (w : List W64) : Nat := fld (word w 0) 12 9
def chTap1 (w : List W64) : Nat := fld (word w 0) 16 13
def chNrs (w : List W64) : Nat := fld (word w 0) 20 17
def chIn0 (w : List W64) : Nat := fld (word w 1) 48 0
def chIn1 (w : List W64) : Nat := fld (word w 2) 48 0
def chOut0 (w : List W64) : Nat := fld (word w 3) 48 0
def chOut1 (w : List W64) : Nat := fld (word w 4) 48 0
def chRows (w : List W64) : Nat := fld (word w 5) 31 0
def chCols (w : List W64) : Nat := fld (word w 5) 63 32
def chLdIn0 (w : List W64) : Nat := fld (word w 6) 31 0
def chLdIn1 (w : List W64) : Nat := fld (word w 6) 63 32
def chLdOut0 (w : List W64) : Nat := fld (word w 7) 31 0
def chLdOut1 (w : List W64) : Nat := fld (word w 7) 63 32
def chFmtIn0 (w : List W64) : Nat := fld (word w 8) 3 0
def chFmtIn1 (w : List W64) : Nat := fld (word w 8) 7 4
def chFmtOut0 (w : List W64) : Nat := fld (word w 8) 11 8
def chFmtOut1 (w : List W64) : Nat := fld (word w 8) 15 12
def chShape (w : List W64) : Nat := fld (word w 8) 17 16
def chSexp0 (w : List W64) : Nat := fld (word w 8) 31 24
def chSexp1 (w : List W64) : Nat := fld (word w 8) 39 32
def chOutSexp (w : List W64) : Nat := fld (word w 8) 47 40
def chStream (w : List W64) : Nat := fld (word w 9) 31 0
def chElemBase (w : List W64) : Nat := fld (word w 9) 63 32
def chIn0Scale (w : List W64) : Nat := fld (word w 10) 48 0
def chOut0Scale (w : List W64) : Nat := fld (word w 11) 48 0
def chRec (w : List W64) : Nat := fld (word w 12) 48 0
def chLayer (w : List W64) : Nat := fld (word w 13) 48 0
def chConst (w : List W64) : Nat := fld (word w 14) 48 0
def chRs (w : List W64) : Nat := fld (word w 15) 48 0
def chRecord (w : List W64) : Nat := fld (word w 16) 48 0
/-- Stage word i. -/
def chStage (w : List W64) (i : Nat) : W32 :=
  BitVec.ofNat 32 (if i % 2 = 0 then fld (word w (17 + i / 2)) 31 0 else fld (word w (17 + i / 2)) 63 32)

def sgOp (s : W32) : Nat := fld s 5 0
def sgSrc (s : W32) : Nat := fld s 7 6
def sgIdx (s : W32) : Nat := fld s 11 8
def sgFmt (s : W32) : Nat := fld s 15 12
def sgRm (s : W32) : Nat := fld s 18 16
def sgSat (s : W32) : Bool := bit s 19
def sgRec (s : W32) : Bool := bit s 20
def sgAux (s : W32) : Nat := fld s 27 24

/-- The stages of a chain with their numbers. -/
def chStageList (w : List W64) : List (Nat × W32) := (List.range (chStages w)).map (fun i => (i, chStage w i))

/-- Whether an operation takes operand b: SCAN only when SRCB is not 3. -/
def opTakesB (op : Nat) : Bool :=
  [0x01, 0x02, 0x03, 0x04, 0x05, 0x06, 0x07, 0x18, 0x19, 0x25, 0x30].contains op

/-- The operations of R238. -/
def opDefined (op : Nat) : Bool :=
  decide (op ≤ 0x0A) || (decide (0x10 ≤ op) && decide (op ≤ 0x15)) || (decide (0x18 ≤ op) && decide (op ≤ 0x1B)) ||
  [0x20, 0x21, 0x24, 0x25, 0x28, 0x29, 0x30, 0x38, 0x3C, 0x3D, 0x3E].contains op

/-- Row scalars that a reduction writes. -/
def reduces (s : W32) : List Nat :=
  match sgOp s with
  | 0x3C => [sgIdx s]
  | 0x3D => [sgIdx s, sgIdx s + 1]
  | 0x3E => [sgIdx s, sgIdx s + 1]
  | _ => []

/-- Whether a stage reads b from a row scalar. -/
def readsRs (s : W32) : Bool := sgSrc s == 2 && (opTakesB (sgOp s) || sgOp s == 0x38)

/-- Whether stage i belongs to sweep B. -/
def inSweepB (w : List W64) (i : Nat) : Bool := chSplit w != 0 && decide (chSplit w ≤ i)

/-! ## Chain acceptance (R236) -/

/-- Faults of one stage word: reserved bits, an undefined operation or code, an operand it lacks, its place, its record
or layer entry. -/
def stageBad (w : List W64) (i : Nat) (s : W32) : Bool :=
  let op := sgOp s
  fld s 23 21 != 0 || fld s 31 28 != 0 || !opDefined op ||
  (opTakesB op && (sgSrc s == 3 || (sgSrc s == 0 && chFmtIn1 w == 15))) ||
  (op == 0x38 && sgSrc s == 0 && chFmtIn1 w == 15) ||
  (readsRs s && !inSweepB w i) || (reduces s != [] && inSweepB w i) ||
  ((op == 0x24 || op == 0x25) && chLayer w == 0) ||
  ((op == 0x20 || op == 0x21) && sgRec s && chRec w == 0) ||
  (op == 0x30 && decide (5 < sgRm s)) || (op == 0x20 && (decide (10 < sgFmt s) || decide (4 < sgRm s))) ||
  (op == 0x38 && sgAux s % 4 == 3) || (op == 0x3C && sgAux s % 4 == 3) ||
  ([0x29, 0x3D, 0x3E].contains op && sgIdx s == 15) ||
  (op == 0x20 && chMode w == 0 && isTensor8 (sgFmt s) && !sgRec s && chOutSexp w == 255)

/-- A tap: the input, the output of a stage of the chain, or none. -/
def tapBad (w : List W64) (t : Nat) : Bool := t != 15 && decide (chStages w < t)

/-- Check 1 of R236. -/
def chMalformed (w : List W64) : Bool :=
  let undefined := fun (c : Nat) => c == 11 || c == 13 || c == 14
  let st := chStageList w
  let writes := st.flatMap (fun s => reduces s.2)
  fld (word w 0) 63 21 != 0 || [1, 2, 3, 4, 10, 11, 12, 13, 14, 15, 16].any (fun i => fld (word w i) 63 49 != 0) ||
  fld (word w 8) 23 18 != 0 || fld (word w 8) 63 48 != 0 ||
  decide (8 < chStages w) || chMode w == 3 || tapBad w (chTap0 w) || tapBad w (chTap1 w) ||
  (chSplit w != 0 && decide (chStages w ≤ chSplit w)) ||
  undefined (chFmtIn0 w) || chFmtIn0 w == 15 || undefined (chFmtIn1 w) ||
  (chTap0 w != 15 && (undefined (chFmtOut0 w) || chFmtOut0 w == 15)) ||
  (chTap1 w != 15 && (undefined (chFmtOut1 w) || chFmtOut1 w == 15)) ||
  (List.range 8).any (fun i => decide (chStages w ≤ i) && chStage w i != 0) ||
  st.any (fun s => stageBad w s.1 s.2) || decide (writes ≠ writes.eraseDups) ||
  (chMode w != 2 && isTensor8 (chFmtIn0 w) && chSexp0 w == 255) ||
  (chMode w != 2 && isTensor8 (chFmtIn1 w) && chSexp1 w == 255) ||
  chRecord w % 16 != 0

/-- Whether an output of a format may be tapped where it is. -/
def tapFormatOk (w : List W64) (t fmt : Nat) : Bool :=
  t == 15 || fmt == 0 || fmt == 12 ||
  (decide (0 < t) && sgOp (chStage w (t - 1)) == 0x20 && sgFmt (chStage w (t - 1)) == fmt)

/-- The conversions of R224 that a CVT may be, by the mode, the chain's input format and FMT. -/
def cvtModeOk (w : List W64) (s : W32) : Bool :=
  match chMode w with
  | 0 => true
  | 1 => sgFmt s == 1
  | _ => (isTensor8 (sgFmt s) && chRec w != 0) || (sgFmt s == 0 && isTensor8 (chFmtIn0 w))

/-- Check 2 of R236. -/
def chFormatBad (w : List W64) : Bool :=
  !tapFormatOk w (chTap0 w) (chFmtOut0 w) || !tapFormatOk w (chTap1 w) (chFmtOut1 w) ||
  isMx (chFmtIn1 w) || (chTap1 w != 15 && isMx (chFmtOut1 w)) ||
  (chStageList w).any (fun s => sgOp s.2 == 0x20 && !cvtModeOk w s.2) ||
  (chMode w == 2 && (isTensor8 (chFmtIn0 w) || isTensor8 (chFmtIn1 w)) && chRec w == 0)

/-- Bytes of a row of input 1, by its shape; the row distance applies to shape 0 only (R237). -/
def in1Extent (w : List W64) : Nat :=
  let c := chFmtIn1 w
  match chShape w with
  | 0 => extentOf (chRows w) (chLdIn1 w) (rowBytes c (chCols w))
  | 1 => rowBytes c (chCols w)
  | 2 => rowBytes c (2 * chCols w)
  | _ => rowBytes c (chRows w)

/-- Whether a chain reads its constants: a stage takes one as b, DROP, or MOMENTS. -/
def usesConst (w : List W64) : Bool :=
  (chStageList w).any (fun s => (sgSrc s.2 == 1 && (opTakesB (sgOp s.2) || sgOp s.2 == 0x38)) || sgOp s.2 == 0x29 ||
    sgOp s.2 == 0x3D)
/-- Whether a chain uses its scale record, and whether it reads the layer's entry. -/
def usesRec (w : List W64) : Bool :=
  (chStageList w).any (fun s => (sgOp s.2 == 0x20 && (sgRec s.2 || (chMode w == 2 && chRec w != 0))) || (sgOp s.2 == 0x21 && sgRec s.2)) ||
  (chMode w == 2 && (isTensor8 (chFmtIn0 w) || isTensor8 (chFmtIn1 w)))
/-- Whether a chain writes its scale record: a contribution or a derivation, with REC = 1 (R239). -/
def writesRec (w : List W64) : Bool := (chStageList w).any (fun s => (sgOp s.2 == 0x20 || sgOp s.2 == 0x21) && sgRec s.2)
def usesLayer (w : List W64) : Bool := (chStageList w).any (fun s => sgOp s.2 == 0x24 || sgOp s.2 == 0x25)

def chInputs (w : List W64) : List (Nat × Nat) :=
  if chRows w = 0 ∨ chCols w = 0 then [] else
  [(chIn0 w, extentOf (chRows w) (chLdIn0 w) (rowBytes (chFmtIn0 w) (chCols w)))] ++
  (if chFmtIn1 w = 15 then [] else [(chIn1 w, in1Extent w)]) ++
  (if isMx (chFmtIn0 w) then [(chIn0Scale w, chRows w * blocks32 (chCols w))] else []) ++
  (if usesConst w then [(chConst w, 64)] else []) ++ (if usesLayer w then [(chLayer w, 64)] else [])

def chOutputs (w : List W64) : List (Nat × Nat) :=
  if chRows w = 0 ∨ chCols w = 0 then [] else
  (if chTap0 w = 15 then [] else [(chOut0 w, extentOf (chRows w) (chLdOut0 w) (rowBytes (chFmtOut0 w) (chCols w)))]) ++
  (if chTap1 w = 15 then [] else [(chOut1 w, extentOf (chRows w) (chLdOut1 w) (rowBytes (chFmtOut1 w) (chCols w)))]) ++
  (if chTap0 w ≠ 15 ∧ isMx (chFmtOut0 w) then [(chOut0Scale w, chRows w * blocks32 (chCols w))] else []) ++
  (if chNrs w = 0 then [] else [(chRs w, 4 * chNrs w * chRows w)])

def chDenied (d : Dev) (ctx : Nat) (w : List W64) : Bool :=
  (chInputs w).any (fun e => !localOk d ctx Need.load e.1 e.2) ||
  (chOutputs w).any (fun e => !localOk d ctx Need.store e.1 e.2) ||
  (usesRec w && !localOk d ctx (if writesRec w then Need.atomic else Need.load) (chRec w) 160) ||
  (chRecord w != 0 && !localOk d ctx Need.store (chRecord w) 16)

def chRefusal (d : Dev) (ctx : Nat) (w : List W64) : Status :=
  if chMalformed w then ST.invalid
  else if chFormatBad w then ST.format
  else if (chInputs w).any tooLong ∨ (chOutputs w).any tooLong then ST.length
  else if chDenied d ctx w then ST.access
  else ST.ok

/-- A post to the core's Piste engine. -/
def postChain (x : Issue) (cc addr : Nat) (d : Dev) : Status × Dev :=
  let r := readMem d addr 168
  let w := wordsOf 21 r.2
  let core := x.block.core
  let st := if addr % 64 ≠ 0 then ST.invalid else if r.1 ≠ ST.ok then r.1
    else firstBad (engineUse d (0x3000 + core) (core / 8)) (chRefusal d x.grid.ctx w)
  if st = ST.ok then
    let u := pisteOf d core
    (ST.ok, setPiste core { u with queue := u.queue ++ [{ words := w, by_ := posterOf x cc }] } d)
  else (st, d)

/-- CHI. -/
def execChi (w : Where) (f : Fields) (s : State) : Out :=
  onDev (postInstr w f 0xC (fun x _ d => decide (4 ≤ (pisteOf d x.block.core).queue.length))
    (fun x a d => postChain x (f.immFld 3 0) a d)) s

/-! ## Completion (R153, R154, R205, R245) -/

def sat32 (n : Nat) : Nat := Nat.min n 0xFFFFFFFF

/-- A run before its first chunk or row. -/
def UnitRun.fresh (op : UnitOp) : UnitRun :=
  { op, done := 0, status := ST.ok, ovf := false, inx := false, nan := false, inf := false, ovfCount := 0,
    nanInfCount := 0, checks := [] }

/-- The record of R154. -/
def mxRecordBytes (skate : Bool) (r : UnitRun) : Bytes :=
  let b := fun (x : Bool) (i : Nat) => if x then 2 ^ i else 0
  leBytes 8 (r.status.toNat + b skate 16 + b r.ovf 17 + b r.inx 18 + b r.nan 19 + b r.inf 20 + sat32 r.done * 2 ^ 32) ++
  leBytes 8 (sat32 r.ovfCount + sat32 r.nanInfCount * 2 ^ 32)

/-- The record of R245. -/
def chRecordBytes (r : UnitRun) : Bytes :=
  let b := fun (x : Bool) (i : Nat) => if x then 2 ^ i else 0
  leBytes 8 (r.status.toNat + b r.ovf 16 + b r.nan 17 + b r.inf 18 + sat32 r.done * 2 ^ 32) ++
  leBytes 8 (sat32 r.ovfCount + sat32 r.nanInfCount * 2 ^ 32)

/-- The flags join the grid's numerics summary. -/
def summarise (r : UnitRun) (d : Dev) : Dev :=
  modGrid r.op.by_.grid (fun g => { g with ovf := g.ovf || r.ovf, nan := g.nan || r.nan, inf := g.inf || r.inf }) d

/-- A matrix operation completes: record, counter, summary, counts, events. -/
def closeMatrix (k : Nat) (r : UnitRun) (d : Dev) : Dev :=
  let w := r.op.words
  let c := k / 2
  let port := cdPort (c / 64)
  let skate := k % 2 == 1
  let d := if mxRecord w ≠ 0 then putRecord (mxRecord w) (mxRecordBytes skate r) r.status (8 * c) d else d
  let d := completeCounter r.op.by_.grid r.op.by_.block r.op.by_.cc d
  let d := summarise r (inc (if skate then OD.skateOps else OD.arrayOps) d)
  let d := if r.ovf then raise port 0x2431 c 0 [] (inc OD.overflowOps d) else d
  if r.status = ST.ok then d else raise port 0x2430 c 0 [] (inc OD.failedOps d)

/-- A chain operation completes. -/
def closeChain (core : Nat) (r : UnitRun) (d : Dev) : Dev :=
  let w := r.op.words
  let port := cdPort (core / 512)
  let d := if chRecord w ≠ 0 then putRecord (chRecord w) (chRecordBytes r) r.status core d else d
  let d := completeCounter r.op.by_.grid r.op.by_.block r.op.by_.cc d
  let d := summarise r (inc OD.chainOps d)
  let d := if r.ovf then raise port 0x2441 core 0 [] (inc OD.overflowChains d) else d
  if r.status = ST.ok then d else raise port 0x2440 core 0 [] (inc OD.failedChains d)

/-- Every operation of a matrix unit, queued and running, completes with a status. -/
def dropMatrix (k : Nat) (queued running : Status) (d : Dev) : Dev :=
  let u := unitOf d k
  let d := setUnit k ExecUnit.empty d
  let d := match u.run with
    | some r => closeMatrix k { r with status := running } d
    | none => d
  u.queue.foldl (fun d op => closeMatrix k { UnitRun.fresh op with status := queued } d) d

/-- The same for a Piste engine. -/
def dropChain (core : Nat) (queued running : Status) (d : Dev) : Dev :=
  let u := pisteOf d core
  let d := setPiste core ExecUnit.empty d
  let d := match u.run with
    | some r => closeChain core { r with status := running } d
    | none => d
  u.queue.foldl (fun d op => closeChain core { UnitRun.fresh op with status := queued } d) d

end Sys2Proof.Machine
end

