-- ==== Sys2Proof/Machine/Product.lean ====
section
/-!
DEFINITION. The arithmetic of matrix products: operands in memory (R149, R173-R175), AA96 (R185-R193), the wide order (R194,
R195), HM1 and HM2 (R219-R223), and what the drain writes of each element.
-/

namespace Sys2Proof.Machine

/-! ## Operands -/

/-- How an operation reads memory: what memory holds, what it held before the operation began, and at which elements, by
the address of their first bit, the earlier value is taken (R166, R247). -/
structure Mem where
  now : Nat → Byte
  before : Nat → Byte
  old : Nat → Bool

/-- Memory as it stands. -/
def Mem.plain (f : Nat → Byte) : Mem := { now := f, before := f, old := fun _ => false }

/-- The bytes in which an element is read whole. -/
def Mem.view (mem : Mem) (bitAddr : Nat) : Nat → Byte := if mem.old bitAddr then mem.before else mem.now

/-- A byte that is an element of its own: a scale byte. -/
def Mem.byte (mem : Mem) (a : Nat) : Byte := mem.view (8 * a) a

def memNat (mem : Nat → Byte) (a n : Nat) : Nat := leNat ((List.range n).map (fun i => mem (a + i)))

/-- The element of so many bits at position i of a row, packed little-endian (R175). -/
def elemAt (mem : Mem) (base bits i : Nat) : Nat :=
  let o := i * bits
  memNat (mem.view (8 * base + o)) (base + o / 8) ((o % 8 + bits + 7) / 8) / 2 ^ (o % 8) % 2 ^ bits

/-- The decoded element of a format code. -/
def valAt (mem : Mem) (c base i : Nat) : Val := decode (codeFmt c) (elemAt mem base (codeBits c) i)

/-- Element (m, k) of A and (k, n) of B, unscaled. -/
def aAt (mem : Mem) (w : List W64) (m k : Nat) : Val :=
  if mxTransA w then valAt mem (mxA w) (mxAAddr w + k * mxLdA w) m else valAt mem (mxA w) (mxAAddr w + m * mxLdA w) k
def bAt (mem : Mem) (w : List W64) (k n : Nat) : Val :=
  if mxTransB w then valAt mem (mxB w) (mxBAddr w + n * mxLdB w) k else valAt mem (mxB w) (mxBAddr w + k * mxLdB w) n

/-- The scale byte of block j of a row of A and of a column of B: an MX operand's own, else the tensor's. -/
def aScale (mem : Mem) (w : List W64) (m j : Nat) : Nat :=
  if isMx (mxA w) then (mem.byte (mxAScale w + m * blocks32 (mxK w) + j)).toNat else mxASexp w
def bScale (mem : Mem) (w : List W64) (n j : Nat) : Nat :=
  if isMx (mxB w) then (mem.byte (mxBScale w + n * blocks32 (mxK w) + j)).toNat else mxBSexp w

/-- A value under a scale byte; 0xFF makes it NaN (R174). -/
def scaled (v : Val) (s : Nat) : Val := if s = 255 then .nan else vscale v ((s : Int) - 127)

/-- Element (m, n) of C_in in N3 narrow mode, not RAW96 (R173). -/
def cInNarrow (mem : Mem) (w : List W64) (m n : Nat) : Val :=
  let v := valAt mem (mxC w) (mxCInAddr w + m * mxLdCIn w) n
  if isMx (mxC w) then scaled v (mem.byte (mxCInScale w + m * blocks32 (mxN w) + n / 32)).toNat
  else vscale v ((mxCSexp w : Int) - 127)

/-- Element (m, n) of C_in in the other modes. -/
def cInWide (mem : Mem) (w : List W64) (m n : Nat) : Val := valAt mem (mxC w) (mxCInAddr w + m * mxLdCIn w) n

/-! ## AA96 -/

/-- An accumulator with its flags. -/
structure Aa where
  sum : Int
  ovf : Bool
  inx : Bool
  nan : Bool
  pinf : Bool
  ninf : Bool
  deriving DecidableEq, Repr

def Aa.zero : Aa := { sum := 0, ovf := false, inx := false, nan := false, pinf := false, ninf := false }

/-- A number truncated toward zero to a multiple of 2^a: the multiple, and whether anything was dropped. -/
def truncTo (a : Int) (x : Dy) : Int × Bool :=
  if a ≤ x.e then (x.i * 2 ^ (x.e - a).toNat, false)
  else
    let n := x.i.natAbs
    let q := 2 ^ (a - x.e).toNat
    ((if x.i < 0 then -((n / q : Nat) : Int) else ((n / q : Nat) : Int)), n % q != 0)

/-- A contribution (R187, R188). -/
def Aa.add (a : Int) (x : Dy) (acc : Aa) : Aa :=
  let t := truncTo a x
  if 2 ^ 95 ≤ t.1.natAbs then { acc with ovf := true, inx := acc.inx || t.2 }
  else { acc with sum := acc.sum + t.1, inx := acc.inx || t.2 }

/-- A product or C_in that is not finite sets a flag and adds nothing (R189). -/
def Aa.special (v : Val) (acc : Aa) : Aa :=
  match v with
  | .nan => { acc with nan := true }
  | .inf s => if s then { acc with ninf := true } else { acc with pinf := true }
  | _ => acc

/-- One product of a block: the block's exact sum so far, and the flags. -/
def blockStep (mem : Mem) (w : List W64) (m n sa sb : Nat) (st : Dy × Aa) (k : Nat) : Dy × Aa :=
  let p := if (isMx (mxA w) && sa == 255) || (isMx (mxB w) && sb == 255) then Val.nan
    else vmul (aAt mem w m k) (bAt mem w k n)
  if p.isFin then (Dy.add st.1 p.toDy, st.2) else (st.1, Aa.special p st.2)

/-- The indices of a group of g at j that lie below K. -/
def groupIx (g k j : Nat) : List Nat := (List.range g).filterMap (fun i => if g * j + i < k then some (g * j + i) else none)

/-- The block result and its contribution (R186). -/
def aaBlock (mem : Mem) (w : List W64) (m n : Nat) (acc : Aa) (j : Nat) : Aa :=
  let sa := aScale mem w m j
  let sb := bScale mem w n j
  let r := (groupIx 32 (mxK w) j).foldl (blockStep mem w m n sa sb) (Dy.zero, acc)
  Aa.add (mxAnchor w) (r.1.scale ((sa : Int) + sb - 254)) r.2

/-- C_in as a contribution (R190). -/
def aaStart (mem : Mem) (w : List W64) (m n : Nat) : Aa :=
  if !mxAccIn w then Aa.zero
  else if mxC w = 11 then
    let x := elemAt mem (mxCInAddr w + m * mxLdCIn w) 128 n
    { sum := sext 96 x, ovf := x.testBit 96, inx := x.testBit 97, nan := x.testBit 98, pinf := x.testBit 99,
      ninf := x.testBit 100 }
  else
    let v := cInNarrow mem w m n
    if v.isFin then Aa.add (mxAnchor w) v.toDy Aa.zero else Aa.special v Aa.zero

/-- The accumulator of element (m, n) at the drain, OVF also set outside the window (R188). -/
def aaElem (mem : Mem) (w : List W64) (m n : Nat) : Aa :=
  let acc := (List.range (blocks32 (mxK w))).foldl (aaBlock mem w m n) (aaStart mem w m n)
  { acc with ovf := acc.ovf || decide (acc.sum < -(2 ^ 95)) || decide (2 ^ 95 ≤ acc.sum) }

/-! ## Drained elements -/

/-- What the drain writes of one element, and how it counts (R154). -/
structure Drained where
  bits : Nat
  ovf : Bool
  non : Bool
  nan : Bool
  inx : Bool
  deriving DecidableEq, Repr

def Aa.negative (a : Aa) : Bool := decide (a.sum < 0)

def Aa.bad (a : Aa) : Bool := a.nan || a.pinf || a.ninf

/-- RAW96 (R144). -/
def drainRaw (a : Aa) : Drained :=
  let b := fun (x : Bool) (i : Nat) => if x then 2 ^ i else 0
  { bits := wrapInt 96 a.sum + b a.ovf 96 + b a.inx 97 + b a.nan 98 + b a.pinf 99 + b a.ninf 100,
    ovf := a.ovf && !a.bad, non := a.bad, nan := a.nan, inx := a.inx }

/-- FP32, BF16, FP16, E4M3 and E5M2 (R191, R192). -/
def drainAa (f : Fmt) (csexp : Nat) (anchor : Int) (r : RMode) (a : Aa) : Drained :=
  let nanBits := (f.nan).getD 0
  if a.nan || (a.pinf && a.ninf) then { bits := nanBits, ovf := false, non := true, nan := true, inx := a.inx }
  else if a.bad then
    { bits := if f.hasInf then infOf f a.ninf else nanBits, ovf := false, non := true, nan := !f.hasInf, inx := a.inx }
  else if a.ovf then { bits := nanBits, ovf := true, non := false, nan := false, inx := a.inx }
  else
    let x := round f r false (Dy.toVal ⟨a.sum, anchor + 127 - csexp⟩)
    { bits := x.bits, ovf := x.ovf, non := false, nan := false, inx := a.inx }

/-- X of a block for an MX format: the exponent of its largest magnitude above that of the format, and whether the clamp at
127 lowered it; none when every value is zero (R193). -/
def mxExponent (f : Fmt) (vs : List Dy) : Option (Int × Bool) :=
  match (vs.filter (fun v => v.i != 0)).map Dy.log2 with
  | [] => none
  | e :: es =>
    let x := es.foldl max e - f.emax
    some (max (-127) (min 127 x), decide (127 < x))

/-- The scale byte and the elements of a block of an MX output. -/
def drainMx (f : Fmt) (anchor : Int) (block : List (Aa × RMode)) : Nat × List Drained :=
  let zero := fun (a : Aa) =>
    ({ bits := 0, ovf := a.ovf && !a.bad, non := a.bad, nan := a.bad, inx := a.inx } : Drained)
  if block.any (fun a => a.1.bad || a.1.ovf) then (255, block.map (fun a => zero a.1))
  else match mxExponent f (block.map (fun a => Dy.mk a.1.sum anchor)) with
    | none => (0, block.map (fun a => zero a.1))
    | some (x, lowered) =>
      ((x + 127).toNat, block.map (fun a =>
        let r := round f a.2 true (Dy.toVal ⟨a.1.sum, anchor - x⟩)
        { bits := r.bits, ovf := lowered && r.bits == maxOf f a.1.negative, non := false, nan := false,
          inx := a.1.inx }))

/-! ## FP32 accumulators -/

/-- An FP32 accumulator: its value, whether a NaN or an infinity entered the element, whether it became infinite. -/
structure Wide where
  acc : W32
  non : Bool
  big : Bool
  deriving DecidableEq, Repr

def Wide.put (v : W32) (ovf : Bool) (s : Wide) : Wide := { s with acc := v, big := s.big || ovf || (f32 v).isInf }

/-- Products of a group, and whether an operand is not finite. -/
def products (mem : Mem) (w : List W64) (m n g j : Nat) : List Val × Bool :=
  let ks := groupIx g (mxK w) j
  (ks.map (fun k => vmul (aAt mem w m k) (bAt mem w k n)),
   ks.any (fun k => !(aAt mem w m k).isFin || !(bAt mem w k n).isFin))

/-- One group of 16 in the wide order (R194). -/
def wideStep (mem : Mem) (w : List W64) (m n : Nat) (s : Wide) (j : Nat) : Wide :=
  let p := products mem w m n 16 j
  let g := rne32 (vsum p.1)
  let s := { s with non := s.non || p.2 }
  s.put (rne32 (vadd (f32 s.acc) (f32 g))) (f32 g).isInf

/-- A subnormal FP32 value becomes a zero of its sign. -/
def ftz (v : Val) : Val :=
  match v with
  | .fin s n e => if n ≠ 0 ∧ (Nat.log2 n : Int) + e < -126 then .fin s 0 0 else v
  | v => v

/-- hm1_add (R220). -/
def hm1Add (x y : Val) : Val := ftz (f32 (rne32 (vadd x y)))

/-- One group of 4 in HM1. -/
def hm1Step (mem : Mem) (w : List W64) (m n : Nat) (s : Wide) (j : Nat) : Wide :=
  let p := fun i => if 4 * j + i < mxK w
    then vmul (ftz (aAt mem w m (4 * j + i))) (ftz (bAt mem w (4 * j + i) n)) else Val.fin false 0 0
  let non := (groupIx 4 (mxK w) j).any (fun k => !(aAt mem w m k).isFin || !(bAt mem w k n).isFin)
  let s01 := hm1Add (p 0) (p 1)
  let s23 := hm1Add (p 2) (p 3)
  let g := hm1Add s01 s23
  let s := { s with non := s.non || non }
  s.put (rne32 (hm1Add (f32 s.acc) g)) (s01.isInf || s23.isInf || g.isInf)

/-- Rounding toward zero with a result beyond the largest finite magnitude written as infinity (R223). -/
def hm2Round (f : Fmt) (v : Val) : Nat × Bool :=
  match v with
  | .fin s _ _ =>
    let top := (decode f f.maxBits).toDy
    if Dy.lt top (Dy.abs v.toDy) then (infOf f s, true) else ((round f ⟨1, 0⟩ false v).bits, false)
  | v => ((round f ⟨1, 0⟩ false v).bits, false)

/-- One block of 16 in HM2 (R222). The exact sum starts at +0, as the pseudocode has it, so that a block of products −0 is +0
(DEDUCED, log entry 114). -/
def hm2Step (mem : Mem) (w : List W64) (m n : Nat) (s : Wide) (j : Nat) : Wide :=
  let p := products mem w m n 16 j
  let g := vmul (vmul (vadd (.fin false 0 0) (vsum p.1)) (f32 (mxHm2A w))) (f32 (mxHm2B w))
  let r := hm2Round .fp32 (vadd (f32 s.acc) g)
  { acc := BitVec.ofNat 32 r.1, non := s.non || p.2 || (!g.isFin && p.1.all Val.isFin), big := s.big || r.2 }

/-- The accumulator before the first group. -/
def wideStart (mem : Mem) (w : List W64) (m n : Nat) : Wide :=
  if mxAccIn w then
    let v := cInWide mem w m n
    { acc := rne32 (if mxMode w = 1 then ftz v else v), non := !v.isFin, big := false }
  else { acc := 0, non := false, big := false }

/-- The accumulator of element (m, n) of an N3 wide, HM1 or HM2 operation. -/
def wideElem (mem : Mem) (w : List W64) (m n : Nat) : Wide :=
  let k := mxK w
  let s := wideStart mem w m n
  match mxMode w with
  | 0 => (List.range ((k + 15) / 16)).foldl (wideStep mem w m n) s
  | 1 => (List.range ((k + 3) / 4)).foldl (hm1Step mem w m n) s
  | _ => (List.range ((k + 15) / 16)).foldl (hm2Step mem w m n) s

/-- A written value of a wide element: a non-finite input counts as such, anything else that overflowed as overflow. -/
def Wide.drained (s : Wide) (f : Fmt) (bits : Nat) (ovf : Bool) : Drained :=
  { bits, ovf := (s.big || ovf) && !s.non, non := s.non, nan := s.non && (decode f bits).isNan, inx := false }

/-- The drain of an FP32 accumulator. -/
def drainWide (w : List W64) (r : RMode) (s : Wide) : Drained :=
  let f := codeFmt (mxC w)
  match mxMode w with
  | 0 => let x := round f r false (f32 s.acc); s.drained f x.bits x.ovf
  | 1 =>
    let x := round f RMode.rne false (f32 s.acc)
    s.drained f (round f RMode.rne false (ftz (decode f x.bits))).bits x.ovf
  | _ =>
    let y := hm2Round .fp32 (vmul (f32 s.acc) (f32 (mxHm2C w)))
    let v := f32 (BitVec.ofNat 32 y.1)
    let z := if f = .fp32 then (y.1, false) else hm2Round f v
    let bad := !v.isFin && (f32 s.acc).isFin && !y.2
    { s with non := s.non || bad }.drained f z.1 (y.2 || z.2)

/-! ## A row of a chunk -/

/-- The rounding of element (m, n): keyed stochastic when RND is 1 in N3 (R143). -/
def drainMode (u : Nat → W32) (w : List W64) (m n : Nat) : RMode :=
  if mxRnd w && mxMode w == 0 then ⟨4, u (m * mxN w + n)⟩ else RMode.rne

/-- Columns n0 to n1 of row m as drained, with the scale bytes of an MX output. -/
def drainRow (mem : Mem) (u : Nat → W32) (w : List W64) (m n0 n1 : Nat) : List Drained × List Nat :=
  let ns := (List.range (n1 - n0)).map (· + n0)
  if mxNarrow w then
    let as := ns.map (fun n => (aaElem mem w m n, drainMode u w m n))
    if mxC w = 11 then (as.map (fun a => drainRaw a.1), [])
    else if isMx (mxC w) then
      let bs := (List.range (blocks32 (n1 - n0))).map (fun i =>
        drainMx (codeFmt (mxC w)) (mxAnchor w) ((as.drop (32 * i)).take 32))
      (bs.flatMap (fun b => b.2), bs.map (fun b => b.1))
    else (as.map (fun a => drainAa (codeFmt (mxC w)) (mxCSexp w) (mxAnchor w) a.2 a.1), [])
  else (ns.map (fun n => drainWide w (drainMode u w m n) (wideElem mem w m n)), [])

/-- Elements of so many bits packed little-endian, the unused bits of the last byte zero. -/
def packBits (bits : Nat) (es : List Nat) : Bytes :=
  leBytes ((es.length * bits + 7) / 8) (es.foldr (fun e acc => e % 2 ^ bits + acc * 2 ^ bits) 0)

end Sys2Proof.Machine
end

