-- ==== Sys2Proof/Machine/Scales.lean ====
section
/-!
DEFINITION. Scale records and layer numerics entries (R196-R203, R208-R210, R217, R218): amax contributions, derivation of
scales, the roll at a commit, backoff, and the learning-rate offset.
-/

namespace Sys2Proof.Machine

/-! ## Records as 20 words (R198) -/

/-- A field of a list of words replaced. -/
def putFld (ws : List W64) (i hi lo v : Nat) : List W64 :=
  let w := (word ws i).toNat
  lset ws i (BitVec.ofNat 64 (w - nfld w hi lo * 2 ^ lo + v % 2 ^ (hi + 1 - lo) * 2 ^ lo))

/-- The 20 words of a record, none where they cannot be read. -/
def recordAt (d : Dev) (a : Nat) : Option (List W64) :=
  let r := readMem d a 160
  if r.1 = ST.ok then some (wordsOf 20 r.2) else none

def putRec (a : Nat) (ws : List W64) (d : Dev) : Dev := putMem a (bytesOf ws) d

def rcMode (r : List W64) : Nat := fld (word r 0) 1 0
def rcClass (r : List W64) : Nat := fld (word r 0) 3 2
def rcHm2 (r : List W64) : Bool := bit (word r 0) 4
def rcFmt (r : List W64) : Nat := fld (word r 0) 11 8
def rcMargin (r : List W64) : Nat := fld (word r 0) 15 12
def rcHlen (r : List W64) : Nat := fld (word r 0) 21 16
def rcSexp (r : List W64) : Nat := fld (word r 1) 7 0
def rcBackoff (r : List W64) : Nat := fld (word r 1) 11 8
def rcHead (r : List W64) : Nat := fld (word r 1) 16 12
def rcFilled (r : List W64) : Nat := fld (word r 1) 22 17
def rcClean (r : List W64) : Nat := fld (word r 1) 38 23
def rcS (r : List W64) : W32 := BitVec.ofNat 32 (fld (word r 2) 31 0)
def rcSInv (r : List W64) : W32 := BitVec.ofNat 32 (fld (word r 2) 63 32)
def rcCur (r : List W64) : Nat := fld (word r 3) 31 0
def rcPass (r : List W64) : Nat := fld (word r 3) 63 32
def rcHist (r : List W64) (i : Nat) : Nat := fld (word r (4 + i / 2)) (32 * (i % 2) + 31) (32 * (i % 2))

/-- History length in force. -/
def histLen (d : Dev) (r : List W64) : Nat := if rcHlen r = 0 then rd d OD.historyLength else rcHlen r

/-- Mode in force: 1 HISTORY, 2 PASS (R203). -/
def modeOf (d : Dev) (r : List W64) : Nat :=
  if rcMode r = 0 then rd d (match rcClass r with
    | 0 => OD.modeActivation | 1 => OD.modeWeight | 2 => OD.modeGradient | _ => OD.modeUpdate)
  else rcMode r

/-! ## Contributions (R199) -/

/-- What a row of elements contributes: the largest finite |x| as an FP32 encoding, and whether some x is not finite. -/
structure Amax where
  top : Nat
  non : Bool
  deriving DecidableEq, Repr

def Amax.none : Amax := { top := 0, non := false }

def Amax.add (m : Amax) (x : W32) : Amax :=
  if f32NonFinite x then { m with non := true } else { m with top := Nat.max m.top (x &&& 0x7FFFFFFF).toNat }

/-- A contribution joined into CUR_AMAX and NONFINITE, and that of an amax pass into PASS_AMAX (R239). -/
def contribute (m : Amax) (pass : Nat) (r : List W64) : List W64 :=
  let r := putFld r 3 31 0 (Nat.max (rcCur r) m.top)
  let r := if m.non then putFld r 1 39 39 1 else r
  putFld r 3 63 32 (Nat.max (rcPass r) pass)

/-! ## Derivation (R201) -/

/-- The smallest X with amax ≤ F_max * 2^X. -/
def scaleX (f : Fmt) (amax : Dy) : Int :=
  let top := (decode f f.maxBits).toDy
  let x := amax.log2 - top.log2
  if Dy.lt (top.scale x) amax then x + 1 else x

/-- A derived record, and whether a clamp or a skip is to be noted. -/
structure Derived where
  out : List W64
  note : Bool
  deriving DecidableEq, Repr

/-- S and S_INV put in a record. -/
def putS (s : W32) (r : List W64) : List W64 :=
  let inv := match ratOf s with
    | some x => f32OfRat (1 / x)
    | none => 0
  putFld (putFld r 2 31 0 s.toNat) 2 63 32 inv.toNat

/-- The HM2 scale: rounded, raised by the margin and the backoff, kept within the normal FP32 range. -/
def deriveHm2 (amax : Dy) (r : List W64) : Derived :=
  let f := codeFmt (rcFmt r)
  let q := f32OfRat (valRat' amax / valRat' (decode f f.maxBits).toDy)
  let x := vscale (f32 q) (rcMargin r + rcBackoff r)
  let e := match x with
    | .fin _ n e => if n = 0 then -1000 else (Nat.log2 n : Int) + e
    | _ => 1000
  if e < -126 then ⟨putS 0x00800000 r, true⟩
  else if 127 < e then ⟨putS 0x7F7FFFFF r, true⟩
  else ⟨putS (rne32 x) r, false⟩
where
  /-- A dyadic number as a rational. -/
  valRat' (x : Dy) : ℚ := if 0 ≤ x.e then ((x.i * 2 ^ x.e.toNat : Int) : ℚ) else mkRat x.i (2 ^ (-x.e).toNat)

/-- SEXP, or S and S_INV, from an amax; none where the history is empty. -/
def derive (amax : Option Nat) (r : List W64) : Derived :=
  match amax with
  | none => ⟨r, false⟩
  | some a =>
    if a = 0 ∨ rcFmt r = 1 ∨ rcFmt r = 2 then ⟨r, false⟩
    else if 0x7F800000 ≤ a then ⟨r, true⟩
    else
      let v := (f32 (BitVec.ofNat 32 a)).toDy
      if rcHm2 r then deriveHm2 v r
      else
        let x := 127 + scaleX (codeFmt (rcFmt r)) v + rcMargin r + rcBackoff r
        ⟨putFld r 1 7 0 (max 0 (min 254 x)).toNat, decide (x < 0) || decide (254 < x)⟩

/-- amax_h of a record: the largest of the newest FILLED entries, or PASS_AMAX. -/
def amaxOf (d : Dev) (r : List W64) : Option Nat :=
  if modeOf d r = 2 then some (rcPass r)
  else
    let n := histLen d r
    let k := Nat.min (rcFilled r) n
    if k = 0 then none
    else some ((List.range k).foldl (fun m i => Nat.max m (rcHist r ((rcHead r + 2 * n - 1 - i) % n))) 0)

/-- EV_2613 and its count, once for a record or layer in each step. -/
def noteClamp (port a : Nat) (d : Dev) : Dev :=
  if d.seq.clamped.contains a then d
  else raise port 0x2613 0 0 [] (inc OD.scaleClamps { d with seq := { d.seq with clamped := a :: d.seq.clamped } })

/-- A record derived again from what it holds. -/
def rederive (port a : Nat) (d : Dev) : Dev :=
  match recordAt d a with
  | none => d
  | some r =>
    let x := derive (amaxOf d r) r
    let d := putRec a x.out d
    if x.note then noteClamp port a d else d

/-- CUR_AMAX and NONFINITE cleared. -/
def clearStep (r : List W64) : List W64 := putFld (putFld r 3 31 0 0) 1 39 39 0

/-- The roll of a record (R200): CUR_AMAX into the history, the derivation, the clear. -/
def rollRecord (port a : Nat) (d : Dev) : Dev :=
  match recordAt d a with
  | none => d
  | some r =>
    let n := histLen d r
    let h := rcHead r % n
    let r := putFld r (4 + h / 2) (32 * (h % 2) + 31) (32 * (h % 2)) (rcCur r)
    let r := putFld r 1 16 12 ((h + 1) % n)
    let r := putFld r 1 22 17 (Nat.min n (rcFilled r + 1))
    let x := derive (amaxOf d r) r
    let d := putRec a (clearStep x.out) d
    if x.note then noteClamp port a d else d

/-- What an abandoned step does to a record. -/
def clearRecord (a : Nat) (d : Dev) : Dev :=
  match recordAt d a with
  | none => d
  | some r => putRec a (clearStep r) d

/-- BACKOFF raised by one, to at most 15; CLEAN cleared where asked. -/
def raiseBackoff (clean : Bool) (a : Nat) (d : Dev) : Dev :=
  match recordAt d a with
  | none => d
  | some r =>
    let r := putFld r 1 11 8 (Nat.min 15 (rcBackoff r + 1))
    putRec a (if clean then putFld r 1 38 23 0 else r) d

/-- CLEAN after a committed step that is not a null commit (R210). -/
def countClean (overflowed : Bool) (a : Nat) (d : Dev) : Dev :=
  match recordAt d a with
  | none => d
  | some r =>
    if overflowed then putRec a (putFld r 1 38 23 0) d
    else
      let c := Nat.min 65535 (rcClean r + 1)
      if rd d OD.cleanInterval ≤ c then
        putRec a (putFld (putFld r 1 38 23 0) 1 11 8 (rcBackoff r - 1)) d
      else putRec a (putFld r 1 38 23 c) d

/-! ## Layer numerics entries (R196) -/

/-- The 8 words of an entry. -/
def layerAt (d : Dev) (a : Nat) : List W64 := wordsAt d a 8

def lnPolicy (l : List W64) : Nat := fld (word l 0) 1 0
def lnCheckAction (l : List W64) : Bool := bit (word l 0) 2
def lnLrScale (l : List W64) : Bool := bit (word l 0) 3
def lnHeadroom (l : List W64) : Nat := fld (word l 0) 7 4
def lnNrec (l : List W64) : Nat := fld (word l 0) 15 8
def lnUpdRec (l : List W64) : Nat := fld (word l 0) 23 16
def lnEl (l : List W64) : Int := sext 8 (fld (word l 0) 31 24)
def lnPrimary (l : List W64) : Nat := fld (word l 1) 48 0
def lnRepeat (l : List W64) : Nat := fld (word l 2) 48 0
def lnRecBase (l : List W64) : Nat := fld (word l 3) 48 0

/-- Addresses of a layer's scale records. -/
def layerRecords (l : List W64) : List Nat := (List.range (lnNrec l)).map (fun i => lnRecBase l + 160 * i)

/-- The learning-rate offset after a commit (R218). -/
def updateEl (port a : Nat) (d : Dev) : Dev :=
  let l := layerAt d a
  if !lnLrScale l then d
  else match recordAt d (lnRecBase l + 160 * lnUpdRec l) with
    | none => d
    | some r =>
      let n := histLen d r
      let au := rcHist r ((rcHead r + n - 1) % n)
      if au = 0 then d
      else if 0x7F800000 ≤ au then noteClamp port a d
      else
        let h := if lnHeadroom l = 0 then rd d OD.updateHeadroom else lnHeadroom l
        let x := lnEl l + ((codeFmt (rcFmt r)).emax - h) - (f32 (BitVec.ofNat 32 au)).toDy.log2
        let e := max (-64) (min 64 x)
        let d := putWord a (word (putFld l 0 31 24 (wrapInt 8 e)) 0) d
        if e = x then d else noteClamp port a d

end Sys2Proof.Machine
end

