-- ==== Sys2Proof/Machine/Antler.lean ====
section
/-!
DEFINITION. Antler collectives (R395-R425): the trees, the encodings and combines, a member's up and down sequences, mark
lists and repair passes, and the beginning and end of a RUN; the slot codes (R398).
-/

namespace Sys2Proof.Machine

/-! ## Slot codes (R398) -/

/-- A slot write reaching this device. -/
def slotCode (code addr : Nat) (operand : Bytes) (d : Dev) : Dev := (accumulate code addr operand d).2

def execSlot8L (addr : Nat) (operand : Bytes) (s : State) : Out := onDev (slotCode 0x12 addr operand) s
def execSlot8R (addr : Nat) (operand : Bytes) (s : State) : Out := onDev (slotCode 0x13 addr operand) s
def execSlot16L (addr : Nat) (operand : Bytes) (s : State) : Out := onDev (slotCode 0x14 addr operand) s
def execSlot16R (addr : Nat) (operand : Bytes) (s : State) : Out := onDev (slotCode 0x15 addr operand) s
def execSlot32L (addr : Nat) (operand : Bytes) (s : State) : Out := onDev (slotCode 0x16 addr operand) s
def execSlot32R (addr : Nat) (operand : Bytes) (s : State) : Out := onDev (slotCode 0x17 addr operand) s

/-! ## The tree (R395, R396) -/

/-- Whether the placement turns on ROOT: REDUCE and BROADCAST. -/
def arRooted (r : List W64) : Bool := arKind r == 3 || arKind r == 4

/-- Position of a rank in a tree of n. -/
def posOf (r : List W64) (n t rank : Nat) : Nat :=
  if arRooted r then (if t = 0 then (rank + n - arRoot r) % n else (arRoot r + n - rank) % n)
  else if t = 0 then rank else n - 1 - rank

/-- Rank at a position. -/
def rankAt (r : List W64) (n t p : Nat) : Nat :=
  if arRooted r then (if t = 0 then (arRoot r + p) % n else (arRoot r + n - p) % n)
  else if t = 0 then p else n - 1 - p

def childrenOf (n p : Nat) : List Nat := [2 * p + 1, 2 * p + 2].filter (fun q => decide (q < n))
def parentOf (p : Nat) : Nat := (p - 1) / 2
/-- h(p). -/
def heightOf (n p : Nat) : Nat := Nat.log2 (n / (p + 1))

/-! ## What a RUN works with -/

/-- A RUN that goes on: its operation, the copy of its record, its group, and its progress. -/
structure Running where
  op : FabOp
  rec_ : List W64
  grp : GroupRec
  run : AntlerRun
  deriving DecidableEq, Repr

/-- A RUN that has begun and has not failed. -/
def running (d : Dev) (id : Nat) : Option Running :=
  match findOp d id, mfind d.runs id with
  | some op, some run =>
    (match mfind d.seq.groups (arGroup op.desc.record) with
     | some g => if !op.begun ∨ op.fixed ∨ op.use_ ≠ .queue then none else some { op, rec_ := op.desc.record, grp := g, run }
     | none => none)
  | _, _ => none

def Running.n (c : Running) : Nat := c.grp.members.length
def Running.wire (c : Running) : Nat := runWire c.grp c.rec_
def Running.es (c : Running) : Nat := slotBytes c.wire
def Running.ew (c : Running) : Nat := wireBytes c.wire
def Running.pos (c : Running) (t : Nat) : Nat := posOf c.rec_ c.n t c.grp.rank
def Running.kids (c : Running) (t : Nat) : List Nat := childrenOf c.n (c.pos t)
def Running.isRoot (c : Running) (t : Nat) : Bool := c.pos t == 0
def Running.elems (c : Running) : Nat := runElems c.op.desc c.rec_
/-- Whether the kind reduces: ALL_REDUCE, REDUCE_SCATTER, REDUCE. -/
def Running.reduces (c : Running) : Bool := decide (arKind c.rec_ < 4)
def Running.native (c : Running) : Bool := c.wire == 0 && c.reduces

/-- Global address of a local address on the member of a rank (R401). -/
def Running.at_ (c : Running) (rank a : Nat) : Nat := gAddr ((c.grp.members.getD rank { dev := 0, gen := 0 }).dev) a
/-- The same for the member at a position of a tree. -/
def Running.atPos (c : Running) (t p a : Nat) : Nat := c.at_ (rankAt c.rec_ c.n t p) a

/-- First and last-plus-one element of chunk k of a tree (R397). -/
def Running.chunk (c : Running) (t k : Nat) : Nat × Nat :=
  let b := treeFirst c.op.desc c.rec_ t
  let nb := treeBlocks c.op.desc c.rec_ t
  let nc := arChunks c.rec_
  (Nat.min c.elems (32 * (b + k * nb / nc)), Nat.min c.elems (32 * (b + (k + 1) * nb / nc)))

/-- Addresses of the regions of a tree's part of the slot area, at element i of the collective (R402). -/
def Running.part (c : Running) (t : Nat) : Nat := arSlots c.rec_ + (if t = 1 then treePart c.op.desc c.rec_ c.wire 0 else 0)
def Running.nb (c : Running) (t : Nat) : Nat := treeBlocks c.op.desc c.rec_ t
def Running.off (c : Running) (t i : Nat) : Nat := i - 32 * treeFirst c.op.desc c.rec_ t
def Running.slotL (c : Running) (t i : Nat) : Nat := c.part t + c.off t i * c.es
def Running.slotR (c : Running) (t i : Nat) : Nat := c.part t + 32 * c.nb t * c.es + c.off t i * c.es
def Running.slotU (c : Running) (t i : Nat) : Nat := c.part t + 64 * c.nb t * c.es + c.off t i * c.ew
def Running.slotV (c : Running) (t i : Nat) : Nat :=
  c.part t + 64 * c.nb t * c.es + 32 * c.nb t * c.ew + c.off t i * c.ew

/-- Regions of a tree's mark area (R403). -/
def Running.marks (c : Running) (t : Nat) : Nat := arMark c.rec_ + 1081344 * t
def Running.repairL (c : Running) (t : Nat) : Nat := c.marks t + 32768
def Running.repairR (c : Running) (t : Nat) : Nat := c.marks t + 557056

/-- Counters (R404). -/
def Running.dataCnt (c : Running) (t k : Nat) : Nat := arCnt c.rec_ + t * arChunks c.rec_ + k
def Running.markCnt (c : Running) (t : Nat) : Nat := arCnt c.rec_ + 2 * arChunks c.rec_ + t
def Running.gatherCnt (c : Running) : Nat := arCnt c.rec_ + 2 * arChunks c.rec_ + 2

/-- First and last-plus-one element that a rank owns in a REDUCE_SCATTER (R417). -/
def Running.owns (c : Running) (rank : Nat) : Nat × Nat := (rank * c.elems / c.n, (rank + 1) * c.elems / c.n)

/-! ## Encodings and combines (R408, R409, R411) -/

/-- A subnormal becomes a zero of its sign. -/
def ftzWord (w : W32) : W32 := rne32 (ftz (f32 w))

/-- The own encoding w of a contribution: E4M3 bits, or FP32 bits of the other wires. -/
def encodeOwn (wire agreed : Nat) (x : W32) : Nat :=
  match wire with
  | 0 => (round .e4m3 RMode.rne false (vscale (f32 x) (127 - (agreed : Int)))).bits
  | 1 => (widen .bf16 (round .bf16 RMode.rne false (f32 x)).bits).toNat
  | _ => (ftzWord x).toNat

/-- The native combine: own at level 0, each child at its height, the exact sum rounded at height h. -/
def combineNative (h : Nat) (own : Nat) (kids : List (Nat × Nat)) : Nat :=
  if kids.isEmpty then own
  else
    let v := kids.foldl (fun a k => vadd a (vscale (decode .e4m3 k.2) k.1)) (decode .e4m3 own)
    if v.isZero then 0 else (round .e4m3 RMode.rne false (vscale v (-(h : Int)))).bits

/-- The combine of a wire: what is sent, from the own encoding and the children's slot elements with their heights. -/
def combine (wire h : Nat) (own : Nat) (kids : List (Nat × Nat)) : Nat :=
  match wire with
  | 0 => combineNative h own kids
  | 1 =>
    let acc := kids.foldl (fun a k => fadd a (BitVec.ofNat 32 k.2)) (BitVec.ofNat 32 own)
    (round .bf16 RMode.rne false (f32 acc)).bits
  | _ => (kids.foldl (fun a k => ftzWord (fadd a (BitVec.ofNat 32 k.2))) (BitVec.ofNat 32 own)).toNat

/-- Whether an element sent on the native wire is NaN. -/
def e4m3Nan (x : Nat) : Bool := x % 128 == 127

/-- The elements of a chunk, block by block: a native block with a NaN is sent as 0x7F throughout. The blocks marked. -/
def markBlocks (native : Bool) (lo : Nat) (xs : List Nat) : List Nat × List Nat :=
  if !native then (xs, [])
  else
    let bs := (List.range ((xs.length + 31) / 32)).map (fun i => (xs.drop (32 * i)).take 32)
    let bad := fun (b : List Nat) => b.any e4m3Nan
    (bs.flatMap (fun b => if bad b then b.map (fun _ => 0x7F) else b),
     (List.range bs.length).filterMap (fun i => if bad (bs.getD i []) then some (lo / 32 + i) else none))

/-- Elements as bytes, and bytes as elements. -/
def elemBytes (size : Nat) (xs : List Nat) : Bytes := xs.flatMap (leBytes size)
def elemsOf (size : Nat) (bs : Bytes) : List Nat :=
  (List.range (bs.length / size)).map (fun i => leNat ((bs.drop (size * i)).take size))

/-- OUT element of a wire element at the root's level (R416). -/
def outElem (c : Running) (x : Nat) : Nat :=
  let v := match c.wire with
    | 0 => vscale (decode .e4m3 x) ((c.run.agreed : Int) + heightOf c.n 0 - 127)
    | 1 => decode .bf16 x
    | _ => decode .fp32 x
  (round (if arOutBf16 c.rec_ then .bf16 else .fp32) RMode.rne false v).bits

/-- OUT element of a repaired BF16 element. -/
def outRepaired (c : Running) (x : Nat) : Nat :=
  (round (if arOutBf16 c.rec_ then .bf16 else .fp32) RMode.rne false (decode .bf16 x)).bits

def outSize (c : Running) : Nat := if arOutBf16 c.rec_ then 2 else 4

/-! ## Progress -/

def TreeRun.start : TreeRun :=
  { up := 0, down := 0, own := [], marked := [], list := none, upDone := false, total := none, passes := 0, taken := 0 }

def Running.tree (c : Running) (t : Nat) : TreeRun := c.run.trees.getD t TreeRun.start

/-- A RUN's progress changed. -/
def modRun (id : Nat) (f : AntlerRun → AntlerRun) (d : Dev) : Dev :=
  match mfind d.runs id with
  | some r => { d with runs := mset d.runs id (f r) }
  | none => d

def modTree (id t : Nat) (f : TreeRun → TreeRun) (d : Dev) : Dev := modRun id (fun r => { r with trees := lmod f r.trees t }) d

/-- Writes and puts join what the RUN has to issue. -/
def sendOuts (id : Nat) (os : List AntlerOut) (d : Dev) : Dev :=
  let d := match mfind d.runs id with
    | some r => { d with runs := mset d.runs id { r with backlog := r.backlog ++ os } }
    | none => d
  drainBacklog id 512 d

/-- One write or put: nothing moves where there are no bytes, and it still counts. -/
def outOf (code : Option Nat) (dst : Nat) (bs : Bytes) (cnt : Nat) : AntlerOut :=
  { code, dst, pieces := if bs.isEmpty then [] else [(dst, bs)], cnt, ordered := false }

/-- A write to the member's own areas; its failure fails the RUN. -/
def ownWrite (id a : Nat) (bs : Bytes) (d : Dev) : Dev :=
  let r := writeMem a bs d
  if r.1 = ST.ok then r.2 else failRun id r.1 r.2

/-- A write to OUT, which BYTES counts. -/
def outWrite (id a : Nat) (bs : Bytes) (d : Dev) : Dev :=
  let r := writeMem a bs d
  if r.1 = ST.ok then addWrote id bs.length r.2 else failRun id r.1 r.2

/-- A read of the member's own areas, and what follows; a failure fails the RUN. -/
def ownRead (id a n : Nat) (go : Bytes → Dev → Dev) (d : Dev) : Dev :=
  let r := readMem d a n
  if r.1 = ST.ok then go r.2 (touchRead a n d) else failRun id r.1 (reach a n d)

/-- The slot code of a wire toward a member: left or right; none toward a P1 member, which takes a put (R419). -/
def slotCodeOf (wire gen : Nat) (left : Bool) : Option Nat :=
  if gen = 1 then none
  else some ((if wire = 0 then 0x12 else if wire = 1 then 0x14 else 0x16) + (if left then 0 else 1))

/-! ## RUN begins (R398, R410, R420) -/

/-- SRC elements as FP32, a BF16 element widened. -/
def srcElems (r : List W64) (bs : Bytes) : List W32 :=
  if arSrcBf16 r then (elemsOf 2 bs).map (widen .bf16) else (elemsOf 4 bs).map (BitVec.ofNat 32)

/-- The step whose number decides a RUN's phase is a reduction step. -/
def reductionStep (x : FabDesc) : Bool := x.step % arN x.record == arPhase x.record

/-- The contribution joins the scale record of the native wire. -/
def contributeRun (r : List W64) (cs : List W32) (d : Dev) : Dev :=
  match recordAt d (arScale r) with
  | some s => putRec (arScale r) (contribute (cs.foldl Amax.add Amax.none) 0 s) d
  | none => d

/-- Counter range of a RUN of the open step, which an abandoned step zeroes (R443). -/
def noteRange (x : FabDesc) (d : Dev) : Dev :=
  if inStep d ∧ x.step = rd d OD.stepNumber then
    { d with seq := { d.seq with runRanges := d.seq.runRanges ++ [(arCnt x.record, 2 * arChunks x.record + 3)] } }
  else d

/-- The contribution of n elements from element lo: SRC, or SRC added into LACC with N > 1 (R408, R420). -/
def contribution (id : Nat) (x : FabDesc) (lo n : Nat) (go : List W32 → Dev → Dev) : Dev → Dev :=
  let r := x.record
  let o := arSrcBytes r
  ownRead id (gLocal (fdSrc x) + lo * o) (n * o) (fun bs =>
    let xs := srcElems r bs
    if arN r = 1 then go xs
    else ownRead id (arLacc r + 4 * lo) (4 * n) (fun lb =>
      go ((List.zip ((elemsOf 4 lb).map (BitVec.ofNat 32)) xs).map (fun p => fadd p.1 p.2))))

/-- The trees of a RUN begin. -/
def startTrees (id : Nat) (r : List W64) (d : Dev) : Dev :=
  modRun id (fun run => { run with
    agreed := if arKind r < 4 then rcSexp (wordsAt d (arScale r) 20) else 0
    trees := List.replicate (treeCount r) TreeRun.start }) d

/-- The step's accumulation into LACC, where it is no reduction step (R420). -/
def accumulateOnly (id : Nat) (x : FabDesc) (d : Dev) : Dev :=
  contribution id x 0 (runElems x x.record) (fun cs d =>
    ownWrite id (arLacc x.record) (elemBytes 4 (cs.map BitVec.toNat)) d)
    (modRun id (fun run => { run with accOnly := true }) d)

/-- A BROADCAST's root copies SRC to OUT (R415). -/
def rootCopy (id : Nat) (x : FabDesc) (d : Dev) : Dev :=
  ownRead id (gLocal (fdSrc x)) (fdLen x) (outWrite id (arOut x.record)) d

/-- A RUN issued by its queue begins. With LEN 0 there is nothing to exchange (R401). -/
def beginRun (id : Nat) (op : FabOp) (d : Dev) : Dev :=
  let x := op.desc
  let r := x.record
  let d := setOp id { op with begun := true } d
  if fdLen x = 0 then d
  else match mfind d.seq.groups (arGroup r) with
    | none => failRun id ST.state d
    | some g =>
      if arKind r < 4 ∧ !reductionStep x then accumulateOnly id x d
      else
        let d := startTrees id r (noteRange x d)
        if arKind r = 4 ∧ posOf r g.members.length 0 g.rank = 0 then rootCopy id x d else d

/-- RUN: this member's part of a collective begins when its queue has issued it. -/
def execRun (op : Nat) (s : State) : Out := onDev (beginKind op (fun o => isRun o.desc) (beginRun op)) s

/-! ## The up sequence (R405) -/

/-- Whether a counter has counted so many increments. -/
def counted (d : Dev) (cnt k : Nat) : Bool := decide (k ≤ counterAt d cnt)

/-- Whether the next chunk of the up sequence can go. -/
def upReady (d : Dev) (c : Running) (t : Nat) : Bool :=
  let k := (c.tree t).up
  c.reduces && decide (t < c.run.trees.length) && decide (k < arChunks c.rec_) &&
  counted d (c.dataCnt t k) (c.kids t).length

/-- Own, left and right of a range combined into what is sent, element by element. -/
def combineRange (wire agreed h : Nat) (own : List W32) (kids : List (Nat × List Nat)) : List Nat :=
  own.zipIdx.map (fun x => combine wire h (encodeOwn wire agreed x.1) (kids.map (fun k => (k.1, k.2.getD x.2 0))))

/-- The slot elements of the children, with their heights, and what follows. -/
def readKids (id : Nat) (c : Running) (t size n : Nat) (left right : Nat) (go : List (Nat × List Nat) → Dev → Dev) :
    Dev → Dev :=
  let h := fun q => heightOf c.n q
  match c.kids t with
  | [] => go []
  | [p] => ownRead id left (size * n) (fun lb => go [(h p, elemsOf size lb)])
  | p :: q :: _ => ownRead id left (size * n) (fun lb => ownRead id right (size * n) (fun rb =>
      go [(h p, elemsOf size lb), (h q, elemsOf size rb)]))

/-- One chunk's result written up to the parent; the root has none. -/
def sendUp (id t lo k : Nat) (c : Running) (bs : Bytes) (d : Dev) : Dev :=
  let p := c.pos t
  if p = 0 then d
  else
    let q := parentOf p
    let left := p % 2 == 1
    let gen := (c.grp.members.getD (rankAt c.rec_ c.n t q) { dev := 0, gen := 3 }).gen
    sendOuts id [outOf (slotCodeOf c.wire gen left)
      (c.atPos t q (if left then c.slotL t lo else c.slotR t lo)) bs (c.dataCnt t k)] d

/-- One chunk of the up sequence: the contribution read, combined into U, marked blocks noted, written up to the parent. -/
def upChunk (id t : Nat) (d : Dev) : Dev :=
  match running d id with
  | none => d
  | some c =>
    if !upReady d c t then d
    else
      let k := (c.tree t).up
      let lo := (c.chunk t k).1
      let n := (c.chunk t k).2 - lo
      contribution id c.op.desc lo n (fun cs d =>
        let d := if c.native then contributeRun c.rec_ cs d else d
        readKids id c t c.es n (c.slotL t lo) (c.slotR t lo) (fun kids d =>
          let m := markBlocks c.native lo (combineRange c.wire c.run.agreed (heightOf c.n (c.pos t)) cs kids)
          let bs := elemBytes c.ew m.1
          let d := ownWrite id (c.slotU t lo) bs d
          let d := modTree id t (fun x => { x with up := x.up + 1, own := x.own ++ cs, marked := x.marked ++ m.2 }) d
          sendUp id t lo k c bs d) d) d

def execAntlerUpChunk (op tree : Nat) (s : State) : Out := onDev (upChunk op tree) s

/-! ## The down sequence (R415-R417) -/

/-- Steps of the down sequence of a member in a tree. -/
def downSteps (c : Running) (t : Nat) : Nat :=
  match arKind c.rec_ with
  | 1 => arChunks c.rec_
  | 2 => if c.isRoot t then arChunks c.rec_ else 0
  | 3 => if c.isRoot t then arChunks c.rec_ else 0
  | 4 => arChunks c.rec_
  | _ => if t = 0 then c.n else 0

/-- Whether the next step of the down sequence can go. -/
def downReady (d : Dev) (c : Running) (t : Nat) : Bool :=
  let k := (c.tree t).down
  decide (t < c.run.trees.length) && decide (k < downSteps c t) &&
  (if arKind c.rec_ = 5 then true
   else if arKind c.rec_ = 4 then c.isRoot t || counted d (c.dataCnt t k) 1
   else decide (k < (c.tree t).up) && (c.isRoot t || counted d (c.dataCnt t k) ((c.kids t).length + 1)))

/-- What every child is sent: the same bytes at one local address. -/
def toKids (c : Running) (t a : Nat) (bs : Bytes) (cnt : Nat) : List AntlerOut :=
  (c.kids t).map (fun q => outOf none (c.atPos t q a) bs cnt)

/-- The decoded elements of a range put to the owners whose segments it overlaps. -/
def toOwners (c : Running) (lo : Nat) (es : List Nat) : List AntlerOut :=
  let o := outSize c
  (List.range c.n).filterMap (fun k =>
    let s := c.owns k
    let a := Nat.max lo s.1
    let b := Nat.min (lo + es.length) s.2
    if a < b then
      some (outOf none (c.at_ k (arOut c.rec_ + (a - s.1) * o)) (elemBytes o ((es.drop (a - lo)).take (b - a)))
        c.gatherCnt)
    else none)

/-- The wire elements of a chunk as this member has them, decoded where its kind writes them. -/
def downReduce (id t lo n : Nat) (c : Running) (cnt : Nat) (d : Dev) : Dev :=
  let root := c.isRoot t
  ownRead id (if root then c.slotU t lo else c.slotV t lo) (c.ew * n) (fun bs d =>
    let es := (elemsOf c.ew bs).map (outElem c)
    match arKind c.rec_ with
    | 1 =>
      let d := outWrite id (arOut c.rec_ + lo * outSize c) (elemBytes (outSize c) es) d
      sendOuts id (toKids c t (c.slotV t lo) bs cnt) d
    | 2 => sendOuts id (toOwners c lo es) d
    | _ => outWrite id (arOut c.rec_ + lo * outSize c) (elemBytes (outSize c) es) d) d

/-- One step of the down sequence. -/
def downChunk (id t : Nat) (d : Dev) : Dev :=
  match running d id with
  | none => d
  | some c =>
    if !downReady d c t then d
    else
      let k := (c.tree t).down
      let lo := (c.chunk t k).1
      let n := (c.chunk t k).2 - lo
      let d := modTree id t (fun x => { x with down := x.down + 1 }) d
      if c.reduces then downReduce id t lo n c (c.dataCnt t k) d
      else if arKind c.rec_ = 4 then
        ownRead id (arOut c.rec_ + lo) n (fun bs d =>
          let d := if c.isRoot t then d else addWrote id n d
          sendOuts id (toKids c t (arOut c.rec_ + lo) bs (c.dataCnt t k)) d) d
      else
        ownRead id (gLocal (fdSrc c.op.desc)) (fdLen c.op.desc) (fun bs d =>
          sendOuts id [outOf none (c.at_ k (arOut c.rec_ + c.grp.rank * fdLen c.op.desc)) bs c.gatherCnt] d) d

/-- ANTLER_DOWN_CHUNK: a chunk's down data, or for an ALL_GATHER the next member's put. -/
def execAntlerDownChunk (op tree : Nat) (s : State) : Out := onDev (downChunk op tree) s

/-! ## Mark lists (R403, R413) -/

/-- A mark list in memory. -/
def listBytes (total pass : Nat) (bs : List Nat) : Bytes := leBytes 4 total ++ leBytes 4 pass ++ elemBytes 4 bs

/-- Whether every list of a tree has come and every pass is done. -/
def listsDone (x : TreeRun) : Bool :=
  match x.total with
  | none => false
  | some n => x.list.isNone && decide (n ≤ 4096 * x.passes)

/-- The root's counts and events of a list (R427, R428). -/
def noteMarks (c : Running) (first : Bool) (total : Nat) (d : Dev) : Dev :=
  let port := cdPort (slotCore c.op.slot / 512)
  let d := if first then addTo OD.blocksMarked total d else d
  if total = 0 then d
  else
    let d := inc OD.repairPasses d
    let d := if first ∧ 4096 < total then raise port 0x3403 0 0 [] d else d
    if c.run.trees.any (fun x => x.list.isSome || decide (0 < x.passes)) then d else raise port 0x3401 0 0 [] d

/-- The root forms the next list of a tree once its up sequence has ended. -/
def rootList (id t : Nat) (c : Running) (d : Dev) : Dev :=
  let x := c.tree t
  if x.up < arChunks c.rec_ ∨ x.list.isSome ∨ listsDone x then d
  else
    let total := x.marked.length
    let bs := (x.marked.drop (4096 * x.passes)).take 4096
    let d := noteMarks c x.total.isNone total d
    let d := modTree id t (fun x => { x with total := some total, list := if total = 0 then none else some bs,
                                             upDone := false }) d
    sendOuts id (toKids c t (c.marks t) (listBytes total (if total = 0 then 0 else x.passes + 1) bs) (c.markCnt t)) d

/-- A member takes the next list from its mark list region, and forwards it. -/
def memberList (id t : Nat) (c : Running) (d : Dev) : Dev :=
  let x := c.tree t
  if x.list.isSome ∨ listsDone x ∨ !counted d (c.markCnt t) (x.taken + 1) then d
  else ownRead id (c.marks t) 8 (fun hb d =>
    let total := leNat (hb.take 4)
    let pass := leNat (hb.drop 4)
    let n := Nat.min 4096 (total - 4096 * (pass - 1))
    ownRead id (c.marks t + 8) (if total = 0 then 0 else 4 * n) (fun lb d =>
      let bs := elemsOf 4 lb
      let d := modTree id t (fun x => { x with total := some total, list := if total = 0 then none else some bs,
                                               upDone := false, taken := x.taken + 1 }) d
      sendOuts id (toKids c t (c.marks t) (hb ++ lb) (c.markCnt t)) d) d) d

def markList (id t : Nat) (d : Dev) : Dev :=
  match running d id with
  | none => d
  | some c =>
    if !c.native ∨ c.run.trees.length ≤ t then d
    else if c.isRoot t then rootList id t c d else memberList id t c d

/-- MARK_LIST. -/
def execMarkList (op tree : Nat) (s : State) : Out := onDev (markList op tree) s

/-! ## Repair passes (R414) -/

/-- Whether the down sequence of a tree is over: a marked block is first written as NaN, and a repair pass overwrites it
after that, so OUT ends the same whatever the pace (R416, R418). -/
def downOver (c : Running) (t : Nat) : Bool := decide (downSteps c t ≤ (c.tree t).down)

/-- Elements of a block. -/
def blockSpan (c : Running) (b : Nat) : Nat × Nat := (32 * b, Nat.min c.elems (32 * b + 32) - 32 * b)

/-- Slot bytes that the blocks of a pass take in a repair region: 128 for each, the last as far as it goes. -/
def passElems (c : Running) (bs : List Nat) : Nat := (bs.map (fun b => (blockSpan c b).2)).sum

/-- The results of a pass written where the kind writes them. -/
def writeRepaired (id t : Nat) (c : Running) (bs : List Nat) (es : List Nat) (d : Dev) : Dev :=
  let o := outSize c
  let out := es.map (outRepaired c)
  let blocks := (List.range bs.length).map (fun k =>
    ((blockSpan c (bs.getD k 0)).1, (out.drop (32 * k)).take (blockSpan c (bs.getD k 0)).2))
  match arKind c.rec_ with
  | 2 =>
    if !c.isRoot t then d
    else
      let put := fun (k : Nat) =>
        let s := c.owns k
        let ps := blocks.filterMap (fun b =>
          let a := Nat.max b.1 s.1
          let e := Nat.min (b.1 + b.2.length) s.2
          if a < e then some (c.at_ k (arOut c.rec_ + (a - s.1) * o), elemBytes o ((b.2.drop (a - b.1)).take (e - a)))
          else none)
        ({ code := none, dst := c.at_ k (arOut c.rec_), pieces := ps, cnt := c.gatherCnt, ordered := true } : AntlerOut)
      sendOuts id ((List.range c.n).map put) d
  | 3 => if c.isRoot t then blocks.foldl (fun d b => ownWrite id (arOut c.rec_ + b.1 * o) (elemBytes o b.2) d) d else d
  | _ => blocks.foldl (fun d b => ownWrite id (arOut c.rec_ + b.1 * o) (elemBytes o b.2) d) d

/-- The down half of a pass: written, forwarded to the children, and the pass is done. -/
def passDown (id t taken : Nat) (c : Running) (bs : List Nat) (es : List Nat) (d : Dev) : Dev :=
  let d := writeRepaired id t c bs es d
  let d := modTree id t (fun x => { x with list := none, upDone := false, passes := x.passes + 1,
                                           taken := x.taken + taken }) d
  sendOuts id (toKids c t (c.repairL t) (elemBytes 2 es) (c.markCnt t)) d

/-- The up half: own and the children's data combined in BF16. -/
def passUp (id t : Nat) (c : Running) (bs : List Nat) (d : Dev) : Dev :=
  let k := (c.kids t).length
  if !counted d (c.markCnt t) ((c.tree t).taken + k) ∨ (c.isRoot t ∧ !downOver c t) then d
  else
    let n := passElems c bs
    let own := bs.flatMap (fun b => (List.range (blockSpan c b).2).map (fun i =>
      encodeOwn 1 0 ((c.tree t).own.getD (c.off t (32 * b + i)) 0)))
    readKids id c t 4 n (c.repairL t) (c.repairR t) (fun kids d =>
      let es := (List.range n).map (fun i => combine 1 0 (own.getD i 0) (kids.map (fun q => (q.1, q.2.getD i 0))))
      let p := c.pos t
      if p = 0 then passDown id t k c bs es d
      else
        let left := p % 2 == 1
        let d := modTree id t (fun x => { x with upDone := true, taken := x.taken + k }) d
        sendOuts id [outOf (some (if left then 0x14 else 0x15))
          (c.atPos t (parentOf p) (if left then c.repairL t else c.repairR t)) (elemBytes 2 es) (c.markCnt t)] d) d

/-- REPAIR_PASS: the next half of the pass whose list is in hand. -/
def repairPass (id t : Nat) (d : Dev) : Dev :=
  match running d id with
  | none => d
  | some c =>
    let x := c.tree t
    match x.list with
    | none => d
    | some bs =>
      if !x.upDone then passUp id t c bs d
      else if !counted d (c.markCnt t) (x.taken + 1) ∨ !downOver c t then d
      else ownRead id (c.repairL t) (2 * passElems c bs) (fun b d => passDown id t 1 c bs (elemsOf 2 b) d) d

def execRepairPass (op tree : Nat) (s : State) : Out := onDev (repairPass op tree) s

/-! ## The end (R404, R406, R420, R423, R424) -/

/-- Increments of the gather counter that a member waits for. -/
def gatherWanted (c : Running) : Nat :=
  match arKind c.rec_ with
  | 2 =>
    let s := c.owns c.grp.rank
    let inTree := fun t => ((List.range (arChunks c.rec_)).filter (fun k =>
      decide (Nat.max (c.chunk t k).1 s.1 < Nat.min (c.chunk t k).2 s.2))).length
    ((List.range c.run.trees.length).map (fun t => inTree t + (c.tree t).passes)).sum
  | 5 => c.n
  | _ => 0

/-- Whether a tree's work is over. -/
def treeDone (c : Running) (t : Nat) : Bool :=
  let x := c.tree t
  (!c.reduces || x.up == arChunks c.rec_) && downOver c t && (!c.native || listsDone x)

/-- Whether a RUN has nothing left to wait for, to issue or to see acknowledged. -/
def runDone (d : Dev) (id : Nat) (c : Running) : Bool :=
  c.run.accOnly || c.run.trees.isEmpty ||
  ((List.range c.run.trees.length).all (treeDone c) && counted d c.gatherCnt (gatherWanted c) &&
   c.run.backlog.isEmpty && !(d.tw.ops.any (fun o => decide (o.2.use_ = .antler id))))

/-- The counters of a range written zero. -/
def zeroCounters (base n : Nat) (d : Dev) : Dev := times n (fun i d => setCounter (base + i) 0 d) d

/-- A RUN that succeeded: its counters zero, LACC cleared after a reduction, and its bytes counted. -/
def settleRun (id : Nat) (c : Running) (d : Dev) : Dev :=
  let x := c.op.desc
  let r := c.rec_
  let d := if c.run.trees.isEmpty then d else zeroCounters (arCnt r) (2 * arChunks r + 3) d
  let d := if c.reduces ∧ 1 < arN r ∧ !c.run.trees.isEmpty
    then ownWrite id (arLacc r) (List.replicate (4 * c.elems) 0) d else d
  let bytes := if c.run.trees.isEmpty ∨ (arKind r = 3 ∧ c.grp.rank ≠ arRoot r) then 0 else outBytes x r c.n c.grp.rank
  modOp id (fun op => if op.fixed then op else { op with fixed := true, bytes }) d

/-- RUN_COMPLETE: after its last wait a RUN zeroes its counters and completes; one that failed completes with its status. -/
def runComplete (id : Nat) (d : Dev) : Dev :=
  match findOp d id with
  | none => d
  | some op =>
    if !isRun op.desc ∨ op.use_ ≠ .queue then d
    else if op.fixed then finishOp id { d with tw := { d.tw with ops := mset d.tw.ops id { op with begun := true } } }
    else match running d id with
      | none => d
      | some c => if runDone d id c then finishOp id (settleRun id c d) else d

def execRunComplete (op : Nat) (s : State) : Out := onDev (runComplete op) s

/-- Whether a RUN waits for an increment that has not come. -/
def runWaits (d : Dev) (id : Nat) (c : Running) : Bool :=
  !runDone d id c &&
  ((List.range c.run.trees.length).any (fun t =>
    (c.reduces && decide ((c.tree t).up < arChunks c.rec_) && !upReady d c t) ||
    (decide ((c.tree t).down < downSteps c t) && !downReady d c t) ||
    (c.native && !listsDone (c.tree t) && !c.isRoot t && !counted d (c.markCnt t) ((c.tree t).taken + 1)) ||
    (c.native && (c.tree t).list.isSome && !(c.tree t).upDone &&
      !counted d (c.markCnt t) ((c.tree t).taken + (c.kids t).length))) ||
   !counted d c.gatherCnt (gatherWanted c))

/-- ANTLER_WAIT_TIMEOUT: a wait longer than the limit fails the RUN (R424). -/
def antlerTimeout (id : Nat) (d : Dev) : Dev :=
  match running d id with
  | none => d
  | some c =>
    if runWaits d id c ∧ c.run.seen + rd d OD.antlerWaitLimit ≤ d.tick then failRun id ST.timeout d else d

def execAntlerWaitTimeout (op : Nat) (s : State) : Out := onDev (antlerTimeout op) s

end Sys2Proof.Machine
end

