-- ==== Sys2Proof/Machine/Special.lean ====
section
/-!
DEFINITION. The special functions within the bounds of R184: each result that is not one of the exact special values is a free
value that lies within the bound (log entry 2). The true values are computed to far more places than the bounds need
(log entry 35).
-/

namespace Sys2Proof.Machine

/-- The canonical NaN for every NaN result. -/
def canonical (x : W32) : W32 := if (f32 x).isNan then canonNan else x

/-- An infinity or a zero with a sign. -/
def infW (neg : Bool) : W32 := BitVec.ofNat 32 (infOf .fp32 neg)
def zeroW (neg : Bool) : W32 := BitVec.ofNat 32 (signBit .fp32 neg)

/-! ## Fixed point: integers that count 2^-200 -/

def fixMul (a b : Int) : Int := a * b / 2 ^ 200
/-- π in units of 2^-360, ln 2 in units of 2^-200, and 1/π in units of 2^-100, rounded up. -/
def piFix : Int := 0x3243f6a8885a308d313198a2e03707344a4093822299f31d0082efa98ec4e6c89452821e638d01377be5466cf34
def ln2Fix : Int := 0xb17217f7d1cf79abc9e3b39803f2f6af40f343267298b62d8a
def invPiFix : Int := 0x517cc1b727220a94fe13abe90

/-- e^r for 0 ≤ r < 1, by its series. -/
def expFix (r : Int) : Int := (List.range 50).foldl (fun acc i => 2 ^ 200 + fixMul r acc / (50 - i)) (2 ^ 200)

/-- The series of the sine (j = 1, times r) and of the cosine (j = 0) for a reduced r, given the square of r. -/
def trigFix (j : Int) (sq : Int) : Int :=
  (List.range 45).foldl (fun acc i =>
    let k : Int := 2 * (45 - i) + j
    2 ^ 200 - fixMul sq acc / (k * (k - 1))) (2 ^ 200)

/-- The bits of log2 t for t from 1 up to 2, n of them, by squaring. -/
def logBits : Nat → Int → Int → Int
  | 0, _, acc => acc
  | n + 1, t, acc =>
    let q := fixMul t t
    if 2 ^ 201 ≤ q then logBits n (q / 2) (2 * acc + 1) else logBits n q (2 * acc)

/-! ## True values, to more than 60 places -/

def trueRcp (x : Dy) : Dy := ⟨x.i.sign * (2 ^ (Nat.log2 x.i.natAbs + 100) / x.i.natAbs : Nat), -(Nat.log2 x.i.natAbs : Int) - 100 - x.e⟩

def trueRsq (x : Dy) : Dy :=
  let odd := x.e % 2
  let m := x.i.natAbs * 2 ^ odd.toNat
  ⟨Nat.sqrt (2 ^ 240 / m), -120 - (x.e - odd) / 2⟩

/-- Far outside the range of FP32 the exponent stays at ±400: no result is nearer. -/
def trueEx2 (x : Dy) : Dy :=
  let k := ishift x.i x.e
  let fr := if x.e < 0 then ishift (x.i - k * 2 ^ (-x.e).toNat) (x.e + 200) else 0
  ⟨expFix (fixMul fr ln2Fix), max (-400) (min 400 k) - 200⟩

def trueLg2 (x : Dy) : Dy :=
  let l := Nat.log2 x.i.natAbs
  Dy.add ⟨l + x.e, 0⟩ ⟨logBits 100 (ishift x.i (200 - l)) 0, -100⟩

/-- x less the nearest multiple of 2π, in units of 2^-200. -/
def reduced (x : Dy) : Int :=
  let a := ishift x.i (x.e + 360)
  let r := a % (2 * piFix)
  (if piFix < r then r - 2 * piFix else r) / 2 ^ 160

def trueSin (x : Dy) : Dy := let r := reduced x; ⟨fixMul r (trigFix 1 (fixMul r r)), -200⟩
def trueCos (x : Dy) : Dy := let r := reduced x; ⟨trigFix 0 (fixMul r r), -200⟩

/-! ## The bounds (R184) -/

/-- n units in the last place of a true value. -/
def ulps (n : Nat) (y : Dy) : Dy := ⟨n, max (-149) (y.log2 - 23)⟩

/-- Whether a result is finite and lies within a distance of the true value. -/
def within (tol y : Dy) (p : W32) : Bool :=
  match f32 p with
  | .fin s n e => !Dy.lt tol (Dy.abs (Dy.add (Val.toDy (.fin s n e)) y.neg))
  | _ => false

/-- The bound of LG2: 2 units in the last place, and an absolute one where the argument lies from 0.5 to 2. -/
def lg2Tol (x y : Dy) : Dy := if !Dy.lt x ⟨1, -1⟩ && !Dy.lt ⟨2, 0⟩ x then ⟨1, -22⟩ else ulps 2 y

/-- The bound of SIN and COS: 2^-21, beyond π grown by 1 + |x| / π. -/
def trigTol (x : Dy) : Dy :=
  if Dy.lt ⟨piFix, -360⟩ x.abs then Dy.scale (Dy.add ⟨1, 0⟩ (Dy.mul x.abs ⟨invPiFix, -100⟩)) (-21) else ⟨1, -21⟩

/-- A free result that keeps the bound: the proposal where it does, else the nearest FP32 value to the true one; where no FP32
value keeps it, the proposal. -/
def bounded (tol y : Dy) (p : W32) : W32 :=
  if within tol y p then p else if within tol y (rne32 y.toVal) then rne32 y.toVal else p

/-- A special function of a finite argument that has no exact special value: its true value, its bound, the module's own proposal. -/
def freeSpecial (true_ : Dy → Dy) (tol : Dy → Dy → Dy) (p : W32 → W32) (a : W32) : W32 :=
  match f32 a with
  | .fin s n e => let x := Val.toDy (.fin s n e); bounded (tol x (true_ x)) (true_ x) (canonical (p a))
  | _ => canonical (p a)

def rcpFree : W32 → W32 := freeSpecial trueRcp (fun _ y => ulps 1 y) Config.rcp
def rsqFree : W32 → W32 := freeSpecial trueRsq (fun _ y => ulps 1 y) Config.rsq
def ex2Free : W32 → W32 := freeSpecial trueEx2 (fun _ y => ulps 2 y) Config.ex2
def lg2Free : W32 → W32 := freeSpecial trueLg2 lg2Tol Config.lg2
def sinFree : W32 → W32 := freeSpecial trueSin (fun x _ => trigTol x) Config.sin
def cosFree : W32 → W32 := freeSpecial trueCos (fun x _ => trigTol x) Config.cos

end Sys2Proof.Machine
end

