-- ==== Sys2Proof/Machine/ThreadFp.lean ====
section
/-!
DEFINITION. The FP32 class (R77), conversion and special functions (R181-R184).
-/

namespace Sys2Proof.Machine

/-- Operand B of the FP32 class: a register, or the immediate converted exactly. -/
def fpB (f : Fields) (l : Lane) : W32 := if f.bimm then f32OfInt (sext 12 (f.immFld 11 0)) else l.reg f.srcB

/-- An FP32 operation: each executing lane writes DST. -/
def fpOp (w : Where) (f : Fields) (op : Nat) (g : W32 → W32 → W32 → W32) : Dev → Dev :=
  runLanes w f 1 op (fun _ _ l => l.setReg f.dst (g (l.reg f.srcA) (fpB f l) (l.reg f.srcC)))

def execFadd (w : Where) (f : Fields) (s : State) : Out := onDev (fpOp w f 0x00 (fun a b _ => fadd a b)) s
def execFsub (w : Where) (f : Fields) (s : State) : Out := onDev (fpOp w f 0x01 (fun a b _ => fsub a b)) s
def execFmul (w : Where) (f : Fields) (s : State) : Out := onDev (fpOp w f 0x02 (fun a b _ => fmul a b)) s
/-- A times B plus C, rounded once. -/
def execFfma (w : Where) (f : Fields) (s : State) : Out := onDev (fpOp w f 0x03 (fun a b c => ffma a b c)) s
def execFmin (w : Where) (f : Fields) (s : State) : Out := onDev (fpOp w f 0x04 (fun a b _ => fmin a b)) s
def execFmax (w : Where) (f : Fields) (s : State) : Out := onDev (fpOp w f 0x05 (fun a b _ => fmax a b)) s
def execFabs (w : Where) (f : Fields) (s : State) : Out := onDev (fpOp w f 0x06 (fun a _ _ => fabs a)) s
def execFneg (w : Where) (f : Fields) (s : State) : Out := onDev (fpOp w f 0x07 (fun a _ _ => fneg a)) s

/-- FSETP writes the predicate IMM[10:8] with the comparison IMM[7:5]. -/
def execFsetp (w : Where) (f : Fields) (s : State) : Out :=
  onDev (runLanes w f 1 0x08 (fun _ _ l =>
    l.setPred (f.immFld 10 8) (cmpFp (f.immFld 7 5) (l.reg f.srcA) (l.reg f.srcB)))) s

/-! ## CVT (R181-R183) -/

/-- The float type of a CVT type code; none for the integers. -/
def cvtFmt (t : Nat) : Option Fmt :=
  match t with
  | 0 => some .fp32 | 1 => some .bf16 | 2 => some .fp16 | 3 => some .e4m3 | 4 => some .e5m2
  | 7 => some .e3m2 | 8 => some .e2m3 | 9 => some .e2m1 | 0xA => some .mxint8 | _ => none

/-- Bits of a type. -/
def cvtBits (t : Nat) : Nat := match cvtFmt t with | some f => f.bits | none => 32

/-- The exact value of a source. -/
def cvtValue (t a : Nat) : Val :=
  match cvtFmt t with
  | some f => decode f a
  | none => ofInt (if t = 0xC then sext 32 a else (a % 2 ^ 32 : Nat))

/-- The value written to a destination type. -/
def cvtWrite (t : Nat) (r : RMode) (sat : Bool) (v : Val) : Nat :=
  match cvtFmt t with
  | some f => (round f r sat v).bits
  | none =>
    if t = 0xC then wrapInt 32 (toIntClamped r (-2 ^ 31) (2 ^ 31 - 1) v)
    else wrapInt 32 (toIntClamped r 0 (2 ^ 32 - 1) v)

/-- CVT: equal types without SCL copy all but NaN, which becomes canonical (R182). -/
def cvtResult (f : Fields) (a : W32) (scale : Nat) (u : W32) : Nat :=
  let src := f.immFld 3 0
  let dst := f.immFld 7 4
  let v := cvtValue src a.toNat
  if src = dst ∧ !bit f.imm 12 ∧ !v.isNan then a.toNat % 2 ^ cvtBits src
  else
    let v := if bit f.imm 12 then vscale v ((scale : Int) - 127) else v
    cvtWrite dst ⟨f.immFld 10 8, u⟩ (bit f.imm 11) v

/-- CVT. With SCL and a scale of 0xFF in an executing lane the group faults with ST_INVALID (R181). -/
def execCvt (w : Where) (f : Fields) (s : State) : Out :=
  onDev (runInstr w f 2 0x00 (fun x d =>
    if bit f.imm 12 ∧ x.act.any (fun i => fld ((x.lane i).reg f.srcB) 7 0 == 0xFF)
    then groupFault w ST.invalid x.pc x.lanes d
    else modLanes w x.act (fun _ l =>
      l.setReg f.dst (BitVec.ofNat 32 (cvtResult f (l.reg f.srcA) (fld (l.reg f.srcB) 7 0) (l.reg f.srcC)))) d)) s

/-! ## Special functions (R184) -/

/-- A special function: each executing lane writes DST with an exact special value, or else with a value
within the bound of R184 (log entry 2). -/
def specialOp (w : Where) (f : Fields) (op : Nat) (special : Val → Option W32) (approx : W32 → W32) : Dev → Dev :=
  runLanes w f 2 op (fun _ _ l =>
    let a := l.reg f.srcA
    l.setReg f.dst (if (f32 a).isNan then canonNan
      else match special (f32 a) with
        | some v => v
        | none => canonical (approx a)))

def rcpSpecial (v : Val) : Option W32 :=
  if v.isZero then some (infW v.negative) else if v.isInf then some (zeroW v.negative) else none
def rsqSpecial (v : Val) : Option W32 :=
  if v.isZero then some (infW v.negative) else if v.negative then some canonNan
  else if v.isInf then some (zeroW false) else none
def ex2Special (v : Val) : Option W32 :=
  if v.isInf then some (if v.negative then zeroW false else infW false) else none
def lg2Special (v : Val) : Option W32 :=
  if v.isZero then some (infW true) else if v.negative then some canonNan
  else if v.isInf then some (infW false) else none

def execRcp (w : Where) (f : Fields) (s : State) : Out := onDev (specialOp w f 0x10 rcpSpecial rcpFree) s
def execRsq (w : Where) (f : Fields) (s : State) : Out := onDev (specialOp w f 0x11 rsqSpecial rsqFree) s
def execEx2 (w : Where) (f : Fields) (s : State) : Out := onDev (specialOp w f 0x12 ex2Special ex2Free) s
def execLg2 (w : Where) (f : Fields) (s : State) : Out := onDev (specialOp w f 0x13 lg2Special lg2Free) s
def execSin (w : Where) (f : Fields) (s : State) : Out := onDev (specialOp w f 0x14 (fun _ => none) sinFree) s
def execCos (w : Where) (f : Fields) (s : State) : Out := onDev (specialOp w f 0x15 (fun _ => none) cosFree) s

end Sys2Proof.Machine
end

