-- ==== Sys2Proof/Machine/Chain.lean ====
section
/-!
DEFINITION. The arithmetic of Piste chains: rows, stages and reductions (R228-R232, R238-R244), and the conversions into
formats (R224, R239).
-/

namespace Sys2Proof.Machine

/-! ## FP32 quotient and root (R229) -/

/-- The quotient of two values, rounded to nearest even. -/
def vdiv (x y : Val) : W32 :=
  match x, y with
  | .nan, _ => canonNan
  | _, .nan => canonNan
  | .inf _, .inf _ => canonNan
  | .inf s, y => infW (s != y.negative)
  | x, .inf t => zeroW (x.negative != t)
  | .fin s n e, .fin t k f =>
    if k = 0 then (if n = 0 then canonNan else infW (s != t))
    else f32OfFrac (s != t) (n * 2 ^ (e - f).toNat) (k * 2 ^ (f - e).toNat)

def fdiv (a b : W32) : W32 := vdiv (f32 a) (f32 b)

/-- The square root, correctly rounded: an integer root with 40 guard places and a sticky bit. -/
def fsqrt (a : W32) : W32 :=
  match f32 a with
  | .nan => canonNan
  | .inf s => if s then canonNan else infW false
  | .fin s n e =>
    if n = 0 then zeroW s
    else if s then canonNan
    else
      let odd : Int := e % 2
      let m := n * 2 ^ (odd.toNat + 80)
      let q := Nat.sqrt m
      rne32 (.fin false (2 * q + (if q * q = m then 0 else 1)) ((e - odd) / 2 - 41))

def special (sp : Val → Option W32) (approx : W32 → W32) (a : W32) : W32 :=
  if (f32 a).isNan then canonNan else match sp (f32 a) with
    | some v => v
    | none => canonical (approx a)

def fex2 : W32 → W32 := special ex2Special ex2Free
def frsq : W32 → W32 := special rsqSpecial rsqFree

/-! ## Elements of a row -/

/-- An element in the chain: its value, its flag, and whether a conversion on its way overflowed. -/
structure El where
  v : W32
  f : Bool
  o : Bool
  deriving DecidableEq, Repr

/-- What a stage delivers: the elements; for a CVT also the encodings and, for an MX format, the scale bytes. -/
structure StageOut where
  els : List El
  enc : List Nat
  scales : List Nat
  deriving DecidableEq, Repr

/-- What the chain keeps while a row runs: the latest elements, every stage's output, row scalars, what the records get, and
the counted underflows. -/
structure RowRun where
  els : List El
  outs : List StageOut
  rs : List W32
  rsNew : List (Nat × W32)
  /-- what CVT and AMAX stages with REC contribute, and the largest magnitude of the AMAX stages -/
  amax : Option Amax
  pass : Nat
  under : Nat
  deriving DecidableEq, Repr

/-- The context of a chain: descriptor, memory, constants, E_L, record, draws, row number. -/
structure Env where
  w : List W64
  mem : Mem
  el : Int
  srec : List W64
  draws : Nat → Nat → W32
  r : Nat

/-- Constant K[i]. -/
def constAt (e : Env) (i : Nat) : W32 := BitVec.ofNat 32 (elemAt e.mem (chConst e.w) 32 i)

/-- In HM1 a subnormal element of its own format is read as a zero of its sign (R229, log entry 34). -/
def flushed (mode : Nat) (f : Fmt) (v : Val) : Val :=
  match v with
  | .fin s n e => if mode = 1 ∧ f ≠ .mxint8 ∧ n ≠ 0 ∧ (Nat.log2 n : Int) + e < f.emin then .fin s 0 0 else v
  | v => v

/-- A decoded input element as FP32 (R230), and whether its conversion in HM2 overflowed (R223, R224): format code, base of
the row, position, tensor scale byte, block scale. -/
def decodeIn (e : Env) (c base i sexp : Nat) (block : Nat → Nat) : W32 × Bool :=
  if c = 12 then (if elemAt e.mem base 1 i = 1 then 0x3F800000 else 0, false)
  else
    let v := flushed (chMode e.w) (codeFmt c) (valAt e.mem c base i)
    if isMx c then (rne32 (scaled v (block i)), false)
    else if isTensor8 c then
      (if chMode e.w = 2 then
         let x := hm2Round .fp32 (vmul v (f32 (rcS e.srec)))
         (BitVec.ofNat 32 x.1, x.2)
       else (rne32 (scaled v sexp), false))
    else (rne32 v, false)

/-- Row r of input 0. -/
def in0At (e : Env) (c : Nat) : W32 × Bool :=
  decodeIn e (chFmtIn0 e.w) (chIn0 e.w + e.r * chLdIn0 e.w) c (chSexp0 e.w)
    (fun i => (e.mem.byte (chIn0Scale e.w + e.r * blocks32 (chCols e.w) + i / 32)).toNat)

/-- Element of input 1 for column c, by its shape and the pair member. -/
def in1At (e : Env) (member c : Nat) : W32 × Bool :=
  let at_ := fun base i => decodeIn e (chFmtIn1 e.w) base i (chSexp1 e.w) (fun _ => 127)
  match chShape e.w with
  | 0 => at_ (chIn1 e.w + e.r * chLdIn1 e.w) c
  | 1 => at_ (chIn1 e.w) c
  | 2 => at_ (chIn1 e.w) (2 * c + member)
  | _ => at_ (chIn1 e.w) e.r

/-- Operand b of a stage for column c. -/
def operandB (e : Env) (rs : List W32) (s : W32) (c : Nat) : W32 :=
  match sgSrc s with
  | 0 => (in1At e (sgIdx s % 2) c).1
  | 1 => constAt e (sgIdx s)
  | 2 => rs.getD (sgIdx s) 0
  | _ => 0

/-- Whether the operand b of a stage overflowed in its conversion. -/
def operandOvf (e : Env) (s : W32) (c : Nat) : Bool := sgSrc s == 0 && opTakesB (sgOp s) && (in1At e (sgIdx s % 2) c).2

/-! ## Conversions (R239, R224) -/

/-- The random word of a stage for column c (R240). -/
def stageDraw (e : Env) (s : W32) (c : Nat) : W32 :=
  e.draws ((chStream e.w + sgAux s) % 2 ^ 32) ((chElemBase e.w + e.r * chCols e.w + c) % 2 ^ 32)

def cvtRm (e : Env) (s : W32) (c : Nat) : RMode := ⟨sgRm s, if sgRm s = 4 then stageDraw e s c else 0⟩

/-- A converted element: value carried on, encoding, overflow. -/
structure Conv where
  v : W32
  enc : Nat
  ovf : Bool
  deriving DecidableEq, Repr

/-- The conversion into FP32, BF16, FP16, E4M3 or E5M2. -/
def convOne (e : Env) (s : W32) (c : Nat) (v : W32) : Conv :=
  let f := codeFmt (sgFmt s)
  match chMode e.w with
  | 1 =>
    let x := round f RMode.rne false (ftz (f32 v))
    let b := (round f RMode.rne false (ftz (decode f x.bits))).bits
    ⟨rne32 (decode f b), b, x.ovf⟩
  | 2 =>
    if isTensor8 (sgFmt s) then
      let x := round f RMode.rne false (f32 (fmul v (rcSInv e.srec)))
      ⟨BitVec.ofNat 32 (hm2Round .fp32 (vmul (decode f x.bits) (f32 (rcS e.srec)))).1, x.bits, x.ovf⟩
    else ⟨canonical v, (canonical v).toNat, false⟩
  | _ =>
    let sexp : Int := if isTensor8 (sgFmt s) then (if sgRec s then rcSexp e.srec else chOutSexp e.w) else 127
    let x := round f (cvtRm e s c) (sgSat s) (vscale (f32 v) (127 - sexp))
    ⟨rne32 (vscale (decode f x.bits) (sexp - 127)), x.bits, x.ovf⟩

/-- A block of an MX conversion: its scale byte and elements (R193). -/
def convBlock (e : Env) (s : W32) (t : Nat) (vs : List W32) : Nat × List Conv :=
  let f := codeFmt (sgFmt s)
  if vs.any f32NonFinite then (255, vs.map (fun _ => ⟨canonNan, 0, false⟩))
  else match mxExponent f (vs.map (fun v => (f32 v).toDy)) with
    | none => (0, vs.map (fun _ => ⟨0, 0, false⟩))
    | some (x, lowered) =>
      ((x + 127).toNat, vs.zipIdx.map (fun p =>
        let r := round f (cvtRm e s (32 * t + p.2)) true (vscale (f32 p.1) (-x))
        ⟨rne32 (vscale (decode f r.bits) x), r.bits, lowered && r.bits == maxOf f (f32 p.1).negative⟩))

/-- The row-steps of a row. -/
def rowSteps {α : Type} (l : List α) : List (List α) := (List.range (blocks32 l.length)).map (fun t => (l.drop (32 * t)).take 32)

/-- A whole row converted: elements and scale bytes. -/
def convRow (e : Env) (s : W32) (vs : List W32) : List Conv × List Nat :=
  if isMx (sgFmt s) then
    let bs := (rowSteps vs).zipIdx.map (fun b => convBlock e s b.2 b.1)
    (bs.flatMap (fun b => b.2), bs.map (fun b => b.1))
  else (vs.zipIdx.map (fun p => convOne e s p.2 p.1), [])

/-! ## Prefixes and reductions (R243, R244) -/

/-- The operation and identity of SCAN and REDUCE: 0 ADD, 1 MAX, 2 MIN. -/
def comb (k : Nat) : W32 → W32 → W32 := match k with | 0 => fadd | 1 => fmax | _ => fmin
def combId (k : Nat) : W32 := match k with | 0 => 0 | 1 => infW true | _ => infW false

/-- One level of the prefix over a row-step. -/
def scanLevel (op : W32 → W32 → W32) (st : List W32 × List Bool) (dl : Nat) : List W32 × List Bool :=
  let sh := 2 ^ dl
  ((List.range 32).map (fun l => if sh ≤ l ∧ st.2.getD l false = false
      then op (st.1.getD (l - sh) 0) (st.1.getD l 0) else st.1.getD l 0),
   (List.range 32).map (fun l => st.2.getD l false || (decide (sh ≤ l) && st.2.getD (l - sh) false)))

/-- The inclusive prefix of a row: row-step by row-step with its carry. -/
def scanSteps (op : W32 → W32 → W32) (id : W32) : List (List (W32 × Bool)) → W32 → List W32
  | [], _ => []
  | b :: bs, carry =>
    let n := b.length
    let v := b.map (fun p => p.1) ++ List.replicate (32 - n) id
    let s := b.map (fun p => p.2) ++ List.replicate (32 - n) false
    let r := (List.range 5).foldl (scanLevel op) (v, s)
    let out := (List.range n).map (fun l => if r.2.getD l false then r.1.getD l 0 else op carry (r.1.getD l 0))
    out ++ scanSteps op id bs (out.getD (n - 1) id)

def truthy (w : W32) : Bool := !(f32 w).isZero && !(f32 w).isNan

/-- SCAN over a row with its segment starts. -/
def scanRow (aux : Nat) (starts : List Bool) (vs : List W32) : List W32 :=
  let op := comb (aux % 4)
  let id := combId (aux % 4)
  let inc := scanSteps op id (rowSteps (vs.zip starts)) id
  if aux.testBit 2 then (List.range vs.length).map (fun c => if starts.getD c false then id else inc.getD (c - 1) id)
  else inc

/-- The pairwise tree over 32 lanes. -/
def treeLevel (op : W32 → W32 → W32) : List W32 → List W32
  | a :: b :: l => op a b :: treeLevel op l
  | l => l

def tree32 (op : W32 → W32 → W32) (id : W32) (b : List W32) : W32 :=
  ((List.range 5).foldl (fun l _ => treeLevel op l) (b ++ List.replicate (32 - b.length) id)).headD id

/-- REDUCE. -/
def reduceRow (k : Nat) (vs : List W32) : W32 :=
  let bs := (rowSteps vs).map (tree32 (comb k) (combId k))
  match k, bs with
  | 0, bs => bs.foldl fadd 0
  | _, [] => combId k
  | _, b :: bs => bs.foldl (comb k) b

/-- The running values of MOMENTS. -/
structure Moments where
  n : Nat
  mean : W32
  m2 : W32
  deriving DecidableEq, Repr

def momentsBlock (b : List W32) : Moments :=
  let mean := vdiv (f32 (tree32 fadd 0 b)) (ofInt b.length)
  { n := b.length, mean, m2 := tree32 fadd 0 (b.map (fun x => let d := fsub x mean; fmul d d)) }

def momentsMerge (a b : Moments) : Moments :=
  let n := a.n + b.n
  let delta := fsub b.mean a.mean
  { n, mean := fadd a.mean (fmul delta (vdiv (ofInt b.n) (ofInt n))),
    m2 := fadd (fadd a.m2 b.m2) (fmul (fmul delta delta) (vdiv (f32 (f32OfInt (a.n * b.n))) (ofInt n))) }

/-- MOMENTS: mean and reciprocal deviation. -/
def momentsRow (eps : W32) (vs : List W32) : W32 × W32 :=
  match (rowSteps vs).map momentsBlock with
  | [] => (0, 0)
  | b :: bs =>
    let m := bs.foldl momentsMerge b
    (m.mean, frsq (fadd (vdiv (f32 m.m2) (ofInt m.n)) eps))

/-- A block of LSE2: maximum and sum, none where the maximum is -∞. -/
def lseBlock (b : List W32) : Option (W32 × W32) :=
  let m := tree32 fmax (infW true) b
  if m = infW true then none else some (m, tree32 fadd 0 (b.map (fun x => fex2 (fsub x m))))

def lseMerge (a b : W32 × W32) : W32 × W32 :=
  let m := fmax a.1 b.1
  (m, fadd (fmul a.2 (fex2 (fsub a.1 m))) (fmul b.2 (fex2 (fsub b.1 m))))

/-- LSE2. -/
def lseRow (vs : List W32) : W32 × W32 :=
  if vs.all f32NonFinite then (infW true, 0)
  else match (rowSteps vs).filterMap lseBlock with
    | [] => (infW true, 0)
    | b :: bs => bs.foldl lseMerge b

/-! ## Stages (R238) -/

/-- The lane operand of PERM: a value truncated to an integer, none where it is out of range. -/
def permOperand (b : W32) : Option Nat :=
  match f32 b with
  | .fin s n e =>
    let k := roundTo ⟨1, 0⟩ s n e 0
    if s && n != 0 then none else if 2 ^ 31 ≤ k then none else some k
  | _ => none

/-- PERM over a row. -/
def permRow (s : W32) (b : Nat → W32) (els : List El) : List El :=
  (rowSteps els).zipIdx.flatMap (fun st => st.1.zipIdx.map (fun p =>
    let src := (permOperand (b (32 * st.2 + p.2))).bind (fun k => shflSource (sgAux s % 4) (2 ^ sgRm s) p.2 k)
    match src.bind (fun l => st.1[l]?) with
    | some x => { x with f := true }
    | none => { p.1 with f := false }))

/-- An elementwise stage: the operation on v, b and the flag. -/
def elemStage (e : Env) (s : W32) (c : Nat) (b : W32) (x : El) : El :=
  let v := x.v
  let put := fun y => { x with v := y }
  match sgOp s with
  | 0x01 => put (fadd v b)
  | 0x02 => put (fsub v b)
  | 0x03 => put (fsub b v)
  | 0x04 => put (fmul v b)
  | 0x05 => put (fdiv v b)
  | 0x06 => put (fmin v b)
  | 0x07 => put (fmax v b)
  | 0x08 => put (fabs v)
  | 0x09 => put (fneg v)
  | 0x0A => put (fsqrt v)
  | 0x10 => put (special rcpSpecial rcpFree v)
  | 0x11 => put (frsq v)
  | 0x12 => put (fex2 v)
  | 0x13 => put (special lg2Special lg2Free v)
  | 0x14 => put (special (fun _ => none) sinFree v)
  | 0x15 => put (special (fun _ => none) cosFree v)
  | 0x18 => put (if cmpFp (sgAux s % 8) v b then 0x3F800000 else 0)
  | 0x19 => if x.f then x else put (canonical b)
  | 0x1A => put (if x.f then 0x3F800000 else 0)
  | 0x1B => { x with f := truthy v }
  | 0x24 => put (rne32 (vscale (f32 v) e.el))
  | 0x25 => put (rne32 (vadd (f32 b) (vscale (f32 v) (-e.el))))
  | 0x28 => put (rne32 (.fin false ((stageDraw e s c).toNat / 2 ^ 8) (-24)))
  | 0x29 =>
    if (constAt e (sgIdx s)).toNat ≤ (stageDraw e s c).toNat
    then { x with v := fmul v (constAt e (sgIdx s + 1)), f := true } else { x with v := 0, f := false }
  | _ => x

/-- What a reduction writes at the end of sweep A. -/
def reduction (e : Env) (s : W32) (vs : List W32) : List (Nat × W32) :=
  match sgOp s with
  | 0x3C => [(sgIdx s, reduceRow (sgAux s % 4) vs)]
  | 0x3D => let m := momentsRow (constAt e (sgAux s)) vs; [(sgIdx s, m.1), (sgIdx s + 1, m.2)]
  | 0x3E => let m := lseRow vs; [(sgIdx s, m.1), (sgIdx s + 1, m.2)]
  | _ => []

/-- One stage over a row. -/
def runStage (e : Env) (st : RowRun) (s : W32) : RowRun :=
  let vs := st.els.map (fun x => x.v)
  let b := operandB e st.rs s
  let plain := fun (els : List El) => { st with els, outs := st.outs ++ [{ els, enc := [], scales := [] }] }
  match sgOp s with
  | 0x20 =>
    let c := convRow e s vs
    let els := (st.els.zip c.1).map (fun p => { p.1 with v := p.2.v, o := p.1.o || p.2.ovf })
    let under := ((vs.zip c.1).filter (fun p => truthy p.1 && (decode (codeFmt (sgFmt s)) p.2.enc).isZero)).length
    { st with
      els, outs := st.outs ++ [{ els, enc := c.1.map (fun p => p.enc), scales := c.2 }],
      amax := if sgRec s then
          some (vs.foldl Amax.add (st.amax.getD Amax.none)) else st.amax,
      under := if sgRec s && rcClass e.srec == 3 then st.under + under else st.under }
  | 0x21 =>
    let r := plain st.els
    if sgRec s then
      { r with amax := some (vs.foldl Amax.add (st.amax.getD Amax.none)),
               pass := Nat.max st.pass (vs.foldl Amax.add Amax.none).top }
    else r
  | 0x30 => plain (permRow s b st.els)
  | 0x38 =>
    let starts := (List.range vs.length).map (fun c => c == 0 || (sgSrc s != 3 && truthy (b c)))
    plain ((st.els.zip (scanRow (sgAux s) starts vs)).map (fun p => { p.1 with v := p.2 }))
  | 0x3C => { plain st.els with rsNew := st.rsNew ++ reduction e s vs }
  | 0x3D => { plain st.els with rsNew := st.rsNew ++ reduction e s vs }
  | 0x3E => { plain st.els with rsNew := st.rsNew ++ reduction e s vs }
  | _ => plain (st.els.zipIdx.map (fun p =>
      let x := elemStage e s p.2 (if opTakesB (sgOp s) then b p.2 else 0) p.1
      { x with o := x.o || operandOvf e s p.2 }))

/-- The end of a sweep: its reductions become row scalars. -/
def endSweep (st : RowRun) : RowRun :=
  { st with rs := st.rsNew.foldl (fun rs p => lset rs p.1 p.2) st.rs, rsNew := [] }

/-- A whole row through the chain (R231, R232). -/
def runRow (e : Env) : RowRun :=
  let els := (List.range (chCols e.w)).map (fun c => let x := in0At e c; ({ v := x.1, f := true, o := x.2 } : El))
  let start : RowRun :=
    { els, outs := [{ els, enc := [], scales := [] }], rs := List.replicate 16 0, rsNew := [], amax := none, pass := 0, under := 0 }
  let stages := (List.range (chStages e.w)).map (chStage e.w)
  let a := if chSplit e.w = 0 then stages else stages.take (chSplit e.w)
  let b := if chSplit e.w = 0 then [] else stages.drop (chSplit e.w)
  endSweep (b.foldl (runStage e) (endSweep (a.foldl (runStage e) start)))

/-! ## Outputs (R234, R245) -/

/-- The bits written of an element of a tapped stage. -/
def outBits (fmt : Nat) (x : El) (enc : Nat) : Nat :=
  if fmt = 0 then x.v.toNat else if fmt = 12 then (if truthy x.v then 1 else 0) else enc

/-- Whether an output element is NaN, and whether it is infinite, as written. -/
def outClass (fmt : Nat) (x : El) (enc : Nat) : Bool × Bool :=
  if fmt = 12 then (false, false)
  else
    let v := if fmt = 0 ∨ isMx fmt then f32 x.v else decode (codeFmt fmt) enc
    (v.isNan, v.isInf && !isMx fmt)

/-- The elements of a tap with their encodings. -/
def tapped (st : RowRun) (t : Nat) : List (El × Nat) :=
  let o := st.outs.getD t { els := [], enc := [], scales := [] }
  o.els.zip (if o.enc = [] then o.els.map (fun x => x.v.toNat) else o.enc)

end Sys2Proof.Machine
end

