-- ==== Sys2Proof/WellFormed.lean ====
section
/-!
DEFINITION. Which commands are well formed: every operand that the manual gives a range lies in it. The meanings are
defined on all commands; one whose operand names nothing that exists changes nothing (log entry 1).
-/

namespace Sys2Proof

/-- In-band slots are numbered 0 to 255 (R552). -/
def Path.wf : Path → Bool
  | .slot n => decide (n < 256)
  | _ => true

/-- A block has at most 32 groups (R66). -/
def Where.wf (w : Where) : Bool := decide (w.group < 32)

/-- Field widths of R373. -/
def Packet.wf (p : Packet) : Bool :=
  decide (p.len < 512) && decide (p.ctx < 64) && decide (p.srcDev < 2 ^ 15) && decide (p.dst < 2 ^ 64) &&
  decide (p.slot < 2 ^ 14) && decide (p.seq < 2 ^ 32) && decide (p.relmark < 2 ^ 32) && decide (p.cnt < 2 ^ 16)

/-- Field widths of R375. -/
def Resp.wf (r : Resp) : Bool :=
  decide (r.slot < 2 ^ 14) && decide (r.dstDev < 2 ^ 15) && decide (r.pbase < 2 ^ 14) && decide (r.seq < 2 ^ 32) &&
  decide (r.mask < 2 ^ 32)

/-- Verdict codes of R441. -/
def Vote.wf (v : Vote) : Bool := decide (v.verdict ≤ 4)

/-- Field widths of R544. -/
def Frame.wf (f : Frame) : Bool := decide (f.version < 256) && decide (f.type < 256) && decide (f.payload.length ≤ 65536)

/-- Rate code and width of a PCIe or CXL link that is up (R276, R388): 2.5 to 64 GT/s, x4, x8 or x16. -/
def linkFormed (rate width : Nat) : Bool := decide (1 ≤ rate) && decide (rate ≤ 6) && [4, 8, 16].contains width

/-- A host access within the payload and read request limits of R388. -/
def hostFormed (size : Nat) (w : Option Bytes) : Bool :=
  match w with
  | some b => decide (1 ≤ size) && decide (size ≤ 512) && b.length == size
  | none => decide (1 ≤ size) && decide (size ≤ 4096)

/-- Well-formedness of a command. -/
def Instr.wf : Instr → Bool
  | .supplySetpointWrite p _ => p.wf
  | .setpointRamp _ => true
  | .monitorWindow _ => true
  | .packetPublish port _ => decide (port < 17)
  | .tick => true
  | .launch _ _ => true
  | .blockStart _ core => decide (core < 2048)
  | .gridComplete _ => true
  | .illegalInstruction w _ => w.wf
  | .add w _ => w.wf
  | .sub w _ => w.wf
  | .mulLo w _ => w.wf
  | .mulHi w _ => w.wf
  | .mad w _ => w.wf
  | .min w _ => w.wf
  | .max w _ => w.wf
  | .and w _ => w.wf
  | .or w _ => w.wf
  | .xor w _ => w.wf
  | .not w _ => w.wf
  | .shl w _ => w.wf
  | .shr w _ => w.wf
  | .sar w _ => w.wf
  | .popc w _ => w.wf
  | .clz w _ => w.wf
  | .setp w _ => w.wf
  | .sel w _ => w.wf
  | .bfe w _ => w.wf
  | .bfi w _ => w.wf
  | .fadd w _ => w.wf
  | .fsub w _ => w.wf
  | .fmul w _ => w.wf
  | .ffma w _ => w.wf
  | .fmin w _ => w.wf
  | .fmax w _ => w.wf
  | .fabs w _ => w.wf
  | .fneg w _ => w.wf
  | .fsetp w _ => w.wf
  | .cvt w _ => w.wf
  | .rcp w _ => w.wf
  | .rsq w _ => w.wf
  | .ex2 w _ => w.wf
  | .lg2 w _ => w.wf
  | .sin w _ => w.wf
  | .cos w _ => w.wf
  | .mov w _ => w.wf
  | .movi w _ => w.wf
  | .sreg w _ => w.wf
  | .pmov w _ => w.wf
  | .lds w _ => w.wf
  | .sts w _ => w.wf
  | .ld w _ => w.wf
  | .st w _ => w.wf
  | .atoms w _ => w.wf
  | .atom w _ => w.wf
  | .fenceAcquire w _ => w.wf
  | .fenceRelease w _ => w.wf
  | .fenceBoth w _ => w.wf
  | .fenceComplete w => w.wf
  | .bra w _ => w.wf
  | .brx w _ => w.wf
  | .call w _ => w.wf
  | .ret w _ => w.wf
  | .exitLane w _ => w.wf
  | .yieldIssue w _ => w.wf
  | .nop w _ => w.wf
  | .barGroup w _ => w.wf
  | .barBlock w _ => w.wf
  | .barrierTimeout w lane => w.wf && decide (lane < 32)
  | .shfl w _ => w.wf
  | .any w _ => w.wf
  | .all w _ => w.wf
  | .uni w _ => w.wf
  | .ballot w _ => w.wf
  | .matchVote w _ => w.wf
  | .mxi w _ => w.wf
  | .chi w _ => w.wf
  | .fxi w _ => w.wf
  | .waitc w _ => w.wf
  | .waita w _ => w.wf
  | .counterWaitTimeout w lane => w.wf && decide (lane < 32)
  | .storeAck w _ _ => w.wf
  | .matrixOpStart cluster _ _ => decide (cluster < 256)
  | .matrixOpComplete cluster _ => decide (cluster < 256)
  | .matrixReadPoison cluster _ => decide (cluster < 256)
  | .tileCheck cluster _ => decide (cluster < 256)
  | .chainOpStart core _ => decide (core < 2048)
  | .chainOpComplete core => decide (core < 2048)
  | .chainReadPoison core => decide (core < 2048)
  | .layerGridsEnd => true
  | .hbmRead _ _ _ => true
  | .llcEccError _ _ _ => true
  | .scrubGranule _ => true
  | .granuleRetireDone _ => true
  | .dieLoss stack die _ => decide (stack < 12) && decide (die < 16)
  | .dieRehomeDone => true
  | .prefetchFill core _ => decide (core < 2048)
  | .accAddI32 _ _ => true
  | .accAddI64 _ _ => true
  | .accAddF32 _ _ => true
  | .accAddBf16 _ _ => true
  | .accAddFp16 _ _ => true
  | .accMaxF32 _ _ => true
  | .accMinF32 _ _ => true
  | .combineWriteback _ _ => true
  | .cxlTimeout port => decide (port < 2)
  | .cxlRetrain port _ _ rate width => decide (port < 2) && linkFormed rate width
  | .cxlFailTime port => decide (port < 2)
  | .deviceNumberWrite p _ => p.wf
  | .create p ctx _ => p.wf && decide (ctx < 64)
  | .teardown p ctx _ => p.wf && decide (ctx < 64)
  | .localRegionWrite p ctx slot _ _ _ => p.wf && decide (ctx < 64) && decide (slot < 64)
  | .insert p _ _ _ => p.wf
  | .remove p _ _ _ => p.wf
  | .setrights p _ _ _ => p.wf
  | .removeContext p ctx _ => p.wf && decide (ctx < 64)
  | .fttBulkInsert p _ => p.wf
  | .fttCommandDone => true
  | .doorbellPost _ core queue ctx _ => decide (core < 2048) && decide (queue < 4) && decide (ctx < 64)
  | .doorbellStatusRead _ core queue ctx => decide (core < 2048) && decide (queue < 4) && decide (ctx < 64)
  | .store _ => true
  | .flaggedStore _ => true
  | .atomic _ => true
  | .accum _ => true
  | .copy _ => true
  | .fabricOpIssue core queue => decide (core < 2048) && decide (queue < 4)
  | .packetSend _ _ => true
  | .requestArrival p _ => p.wf
  | .responseArrival r => r.wf
  | .fabricOpComplete _ => true
  | .planePortChange _ dev _ => decide (dev < 32768)
  | .hotHoldExpiry dev _ => decide (dev < 32768)
  | .packetAgeDiscard port place => decide (port < 32) && decide (place.1 < 2)
  | .replayEntryExpiry _ slot _ => decide (slot < 16384)
  | .busyResend _ _ => true
  | .txTimeout _ _ => true
  | .lostCompletion _ _ => true
  | .drainEnd ctx => decide (ctx < 64)
  | .quietEnd ctx => decide (ctx < 64)
  | .p1OrderHoldExpiry _ => true
  | .topologyWrite p index sb _ => p.wf && decide (index < 65536) && decide (sb < 256)
  | .flitReceive port _ _ _ => decide (port < 32)
  | .nak port _ => decide (port < 32)
  | .ackTimeout port => decide (port < 32)
  | .linkGiveUp port => decide (port < 32)
  | .laneDegrade port lane beyond => decide (port < 32) && decide (lane < 4) && decide (beyond < 32704)
  | .laneMove port lane _ => decide (port < 32) && decide (lane < 5)
  | .laneFail port lane => decide (port < 32) && decide (lane < 5)
  | .retrain port => decide (port < 32)
  | .portOutage port => decide (port < 32)
  | .outageHoldExpiry port _ => decide (port < 32)
  | .laserInputLow engine _ => decide (engine < 8)
  | .portTraining port _ _ => decide (port < 32)
  | .trainingRetry port => decide (port < 32)
  | .hostBar0Access edge _ size w => decide (edge < 2) && hostFormed size w
  | .hostBar2Access edge _ size w => decide (edge < 2) && hostFormed size w
  | .hostReadComplete _ => true
  | .run _ => true
  | .slot8L _ _ => true
  | .slot8R _ _ => true
  | .slot16L _ _ => true
  | .slot16R _ _ => true
  | .slot32L _ _ => true
  | .slot32R _ _ => true
  | .antlerUpChunk _ tree => decide (tree < 2)
  | .antlerDownChunk _ tree => decide (tree < 2)
  | .markList _ tree => decide (tree < 2)
  | .repairPass _ tree => decide (tree < 2)
  | .runComplete _ => true
  | .antlerWaitTimeout _ => true
  | .load p _ _ => p.wf
  | .start p _ _ => p.wf
  | .stop p _ => p.wf
  | .unload p _ => p.wf
  | .stepOpen => true
  | .launchItem _ => true
  | .postItem _ => true
  | .waitItem _ => true
  | .layerItem _ => true
  | .lowrankItem _ => true
  | .pipelineUnit => true
  | .gateVote => true
  | .voteReceive _ rank v => decide (rank < 64) && v.wf
  | .heritageVote _ _ => true
  | .verdictApply => true
  | .gateWaitExpiry => true
  | .serviceFailover sq => decide (sq < 4)
  | .admitGroup p group _ _ _ _ => p.wf && decide (group < 4096)
  | .admissionDone group _ => decide (group < 4096)
  | .release p group _ => p.wf && decide (group < 4096)
  | .configure p _ _ _ => p.wf
  | .partner p dev _ _ => p.wf && decide (dev < 32768)
  | .partnerTimeout => true
  | .unpair p _ => p.wf
  | .refresh p _ => p.wf
  | .restore p _ _ _ _ _ => p.wf
  | .restoreRouting => true
  | .restorePosition => true
  | .restoreTensors => true
  | .takeover p dev _ => p.wf && decide (dev < 32768)
  | .copyChunkReceive _ _ _ => true
  | .copyRequest => true
  | .sealReport _ _ _ => true
  | .jobSealNotice _ _ => true
  | .refetch _ _ => true
  | .refetchNotice _ => true
  | .probeTimeout => true
  | .spareClaim _ _ => true
  | .takeoverNotice _ _ _ => true
  | .engineHang _ => true
  | .heartbeatMissed sq => decide (sq < 4)
  | .engineResetDone _ => true
  | .resetEscalation _ => true
  | .clusterMoveDone cluster _ _ => decide (cluster < 256)
  | .kickTurnDone _ => true
  | .fullRestartDone => true
  | .fenceDrainExpiry => true
  | .engineReset p _ _ => p.wf
  | .clusterMove p cluster _ => p.wf && decide (cluster < 256)
  | .kickTurn p _ => p.wf
  | .fullRestart p _ => p.wf
  | .powerPhaseFault die => decide (die < 16)
  | .lockstepMismatch _ _ => true
  | .simplexSelfTest _ => true
  | .managementWatchdog _ _ => true
  | .sensorSample _ _ _ => true
  | .logEntry _ => true
  | .logReadCursorWrite p _ => p.wf
  | .logReadData p _ _ => p.wf
  | .hello _ _ _ _ => true
  | .finish _ _ _ _ => true
  | .handshakeTimeout _ => true
  | .close _ => true
  | .sessionIdleExpiry _ => true
  | .tagFailure _ => true
  | .fragmentTimeout _ _ => true
  | .read p index sb _ _ _ => p.wf && decide (index < 65536) && decide (sb < 256)
  | .write p index sb _ _ _ _ => p.wf && decide (index < 65536) && decide (sb < 256)
  | .describe p index sb _ => p.wf && decide (index < 65536) && decide (sb < 256)
  | .subscribe p _ _ => p.wf
  | .slotDoorbell slot _ _ => decide (slot < 256)
  | .mailboxDoorbell _ frame => frame.wf
  | .begin p _ _ => p.wf
  | .eraseDone => true
  | .updateDataWrite p _ _ => p.wf
  | .verify p _ => p.wf
  | .verifyDone _ => true
  | .activate p _ _ => p.wf
  | .confirm p _ => p.wf
  | .abort p _ => p.wf
  | .hivanRestart p _ => p.wf
  | .trialRollback => true
  | .ownerRecordInstall p _ => p.wf
  | .attestNonceWrite p _ => p.wf
  | .attestReportRead p _ _ => p.wf
  | .tamperTrip _ _ => true
  | .tamperSelfTest _ _ => true
  | .clear p _ => p.wf
  | .unlock p _ => p.wf
  | .reprovision _ _ _ _ _ => true
  | .input48VRange _ _ => true
  | .input12VRange _ _ => true
  | .powerLimitWindow _ => true
  | .governorWindow _ _ _ => true
  | .discharge _ _ => true
  | .thermalLimit => true
  | .pwrEnAssert _ => true
  | .pwrEnRelease => true
  | .powerCycleRequest => true
  | .serviceInterfaceFrame f => f.wf
  | .hivanStart _ _ _ => true
  | .functionStart _ => true
  | .functionReady _ _ _ => true
  | .hbmInitialised => true
  | .installationWrite p index sb _ => p.wf && decide (index < 65536) && decide (sb < 256)
  | .registerWrite p index sb _ => p.wf && decide (index < 65536) && decide (sb < 256)
  | .edgeLinkStateChange edge state rw _ => decide (edge < 2) && (state != 2 || linkFormed rw.1 rw.2)
  | .fundamentalReset edge _ => decide (edge < 2)
  | .flitTransmit port => decide (port < 32)
  | .restartRetxPeriodEnd => true
  | .managementCoreError _ => true
  | .plcaStatusChange _ => true
  | .icmpv6EchoRequest _ _ => true
  | .neighbourSolicitation _ => true
  | .helperDataErased => true
  | .powerDownComplete => true
  | .sealAcknowledgement _ => true
  | .partnerProposalReceived dev _ _ _ _ => decide (dev < 32768)

end Sys2Proof
end

