-- ==== Sys2Proof/Machine/Memory.lean ====
section
/-!
DEFINITION. The memory system: the line code, corrected and uncorrectable reads, the scrub, retirement, die loss, LLC errors,
the accumulate units, and the CXL ports (R258-R283).
-/

namespace Sys2Proof.Machine

/-! ## GF(2^16) and the line code (R260, R261) -/

/-- A 17-bit value reduced by x^16 + x^12 + x^3 + x + 1. -/
def gfStep (a : Nat) : Nat := let b := a * 2; if b < 2 ^ 16 then b else Nat.xor b 0x1100B

/-- Product in the field: a times the low n bits of b. -/
def gfMulBits (a : Nat) : Nat → Nat → Nat
  | 0, _ => 0
  | n + 1, b => Nat.xor (if b % 2 = 1 then a else 0) (gfMulBits (gfStep a) n (b / 2))

def gfMul (a b : Nat) : Nat := gfMulBits a 16 b

/-- α^n. -/
def alphaPow : Nat → Nat
  | 0 => 1
  | n + 1 => gfStep (alphaPow n)

/-- a^(2^n - 2) by squaring: the inverse for n = 16. -/
def gfInvLoop : Nat → Nat → Nat → Nat
  | 0, _, acc => acc
  | n + 1, sq, acc => let s := gfMul sq sq; gfInvLoop n s (gfMul acc s)

def gfInv (a : Nat) : Nat := gfInvLoop 15 a 1

/-- A codeword or error as its 36 coefficients, that of x^0 first: check symbols 0 to 3, then data symbols 0 to 31. -/
abbrev Symbols := List Nat

/-- Value of a polynomial at a point. -/
def polyAt (x : Nat) : Symbols → Nat
  | [] => 0
  | c :: cs => Nat.xor c (gfMul x (polyAt x cs))

/-- The four syndromes. -/
def syndromes (w : Symbols) : List Nat := (List.range 4).map (fun i => polyAt (alphaPow i) w)

/-- Product of a polynomial, lowest coefficient first, and x + r. -/
def mulRoot (r : Nat) (p : Symbols) : Symbols :=
  (List.range (p.length + 1)).map (fun i =>
    Nat.xor (if i = 0 then 0 else p.getD (i - 1) 0) (gfMul r (p.getD i 0)))

/-- g(x), lowest coefficient first. -/
def genPoly : Symbols := mulRoot 8 (mulRoot 4 (mulRoot 2 (mulRoot 1 [1])))

/-- One step of the division by g: a data symbol comes in at the top. -/
def rsFeed (rem : Symbols) (sym : Nat) : Symbols :=
  let top := Nat.xor (rem.getD 3 0) sym
  (List.range 4).map (fun i => Nat.xor (if i = 0 then 0 else rem.getD (i - 1) 0) (gfMul top (genPoly.getD i 0)))

/-- The check symbols of 32 data symbols: the highest data symbol is divided first. -/
def rsCheck (data : Symbols) : Symbols := data.reverse.foldl rsFeed [0, 0, 0, 0]

/-- Data symbols of a line and back. -/
def symbolsOf (b : Bytes) : Symbols := (List.range 32).map (fun j => leNat ((b.drop (2 * j)).take 2))
def bytesOfSymbols (s : Symbols) : Bytes := s.flatMap (leBytes 2)

/-- The pattern of poison: data zero, check symbols 0xFFFF (R263). -/
def poisonWord : Symbols := [0xFFFF, 0xFFFF, 0xFFFF, 0xFFFF] ++ List.replicate 32 0

/-- A word with errors added: coefficient and pattern. -/
def addErrors (errs : List (Nat × BitVec 16)) (w : Symbols) : Symbols :=
  (List.range 36).map (fun i => errs.foldl (fun v e => if e.1 = i then Nat.xor v e.2.toNat else v) (w.getD i 0))

/-- The error of one symbol, or of two, with given syndromes, if there is one: its places and values. -/
def oneError (s : List Nat) : Option (List (Nat × Nat)) :=
  let g := fun i => s.getD i 0
  ((List.range 36).find? (fun j => g 1 == gfMul (g 0) (alphaPow j) && g 2 == gfMul (g 1) (alphaPow j) &&
    g 3 == gfMul (g 2) (alphaPow j))).map (fun j => [(j, g 0)])

def twoErrors (s : List Nat) : Option (List (Nat × Nat)) :=
  let g := fun i => s.getD i 0
  let pairs := (List.range 36).flatMap (fun k => (List.range k).map (fun j => (j, k)))
  (pairs.find? (fun p =>
    let x := alphaPow p.1
    let y := alphaPow p.2
    let sum := Nat.xor x y
    let prod := gfMul x y
    Nat.xor (g 2) (Nat.xor (gfMul (g 1) sum) (gfMul (g 0) prod)) == 0 &&
    Nat.xor (g 3) (Nat.xor (gfMul (g 2) sum) (gfMul (g 1) prod)) == 0)).map (fun p =>
      let x := alphaPow p.1
      let y := alphaPow p.2
      let yk := gfMul (Nat.xor (g 1) (gfMul (g 0) x)) (gfInv (Nat.xor x y))
      [(p.1, Nat.xor (g 0) yk), (p.2, yk)])

/-- What a controller delivers. -/
inductive Decoded where
  | clean (data : Bytes)
  | poison
  | corrected (symbols : Nat) (data : Bytes)
  | bad
  deriving DecidableEq, Repr

/-- The bounded-distance decoder: the stored line with errors on its symbols, as delivered. -/
def decodeLine (poisoned : Bool) (line : Bytes) (errs : List (Nat × BitVec 16)) : Decoded :=
  let data := symbolsOf line
  let stored := if poisoned then poisonWord else rsCheck data ++ data
  let w := addErrors errs stored
  if w = poisonWord then .poison
  else
    let s := syndromes w
    if s = [0, 0, 0, 0] then .clean (bytesOfSymbols (w.drop 4))
    else
      let fix := fun (l : List (Nat × Nat)) =>
        bytesOfSymbols ((addErrors (l.map (fun e => (e.1, BitVec.ofNat 16 e.2))) w).drop 4)
      match oneError s with
      | some l => .corrected 1 (fix l)
      | none => match twoErrors s with
        | some l => .corrected 2 (fix l)
        | none => .bad

/-! ## Retirement (R265, R266) -/

/-- The controller at a place of HBM, and the port of its base die. -/
def placeController (p : Nat) : Nat := pcOf (256 * p) / 32
def controllerPort (c : Nat) : Nat := bdPort (c / 3)

/-- The next spare: from the top of the reserve down, no spare in use, no retired granule, and not on the lost die. -/
def nextSpare (m : MemState) : Option Nat :=
  (List.range (3 * m.retired.length + 32)).findSome? (fun i =>
    let g := reserveEnd / 256 - 1 - i
    if m.retired.any (fun r => r.spare == g || r.granule == g) || m.lost == some (dieOf (256 * g)) || g < hbmEnd / 256
    then none else some g)

/-- The granule at a place retired: its spare is chosen and its copy begins. A full table retires nothing and raises
EV_2805 once per controller. -/
def retireGranule (p : Nat) (d : Dev) : Dev :=
  let c := placeController p
  if d.mem.retired.any (fun r => r.granule == p) then d
  else if 4096 ≤ (d.mem.retired.filter (fun r => placeController r.granule == c)).length then
    if d.mem.tableFull.contains c then d
    else raise (controllerPort c) 0x2805 c 0 [] { d with mem := { d.mem with tableFull := c :: d.mem.tableFull } }
  else match nextSpare d.mem with
    | some s =>
      { d with mem := { d.mem with retired := d.mem.retired ++ [{ granule := p, spare := s, done := false }] } }
    | none => d

/-- A corrected read of a granule noted at the place that served it: its controller tracks the 1,024 granules with the most
recent ones. -/
def noteCorrected (granule symbols : Nat) (d : Dev) : Dev :=
  let g := physGranule d.mem granule
  let now := d.tick
  let win := rd d OD.retireWindow * 1000000
  let old := ((d.mem.corrected.find? (fun e => e.1 == g)).map (fun e => e.2)).getD []
  let ticks := now :: old.filter (fun t => decide (now ≤ t + win))
  let rest := d.mem.corrected.filter (fun e => e.1 != g)
  let mine := rest.filter (fun e => placeController e.1 == placeController g)
  let kept := if mine.length < 1024 then rest else dropLast1 (fun e => placeController e.1 == placeController g) rest
  let d := inc OD.linesCorrected { d with mem := { d.mem with corrected := (g, ticks) :: kept } }
  if symbols = 2 ∨ rd d OD.retireCount ≤ ticks.length then retireGranule g d else d

/-- The copy of a granule completes, poison kept: the pair stands in the retirement table, and held accesses are served at
the spare. -/
def granuleRetireDone (p : Nat) (d : Dev) : Dev :=
  if d.mem.retired.any (fun r => r.granule == p && !r.done) then
    let c := placeController p
    let done := d.mem.retired.map (fun r => if r.granule = p then { r with done := true } else r)
    raise (controllerPort c) 0x2803 c 0 [] (inc (OD.granulesRetired + c) { d with mem := { d.mem with retired := done } })
  else d

/-- GRANULE_RETIRE_DONE (R265). -/
def execGranuleRetireDone (granule : Nat) (s : State) : Out := onDev (granuleRetireDone granule) s

/-! ## Reads of HBM (R261-R263) -/

/-- An uncorrectable read: EV_2802, counted, and noted toward die loss. -/
def noteUncorrectable (l : Nat) (d : Dev) : Dev :=
  let a := 256 * physGranule d.mem (l / 4)
  let key := 1024 * dieOf a + pcOf a
  let c := controllerOf d.mem (l / 4)
  raise (controllerPort c) 0x2802 c 0 [64 * l]
    (inc OD.linesPoisoned { d with mem := { d.mem with
      uncorrectable := ((key, d.tick) :: d.mem.uncorrectable).filter (fun e => decide (d.tick ≤ e.2 + 1000)) } })

/-- Whether the slice holds a line, and whether it holds it dirty. -/
def heldDirty (m : MemState) (l : Nat) : Bool := m.llc.any (fun e => e.line == l && e.dirty)

/-- What HBM holds of a line, beneath a clean copy of its slice. -/
def hbmCopy (m : MemState) (l : Nat) : LineCopy :=
  match m.llc.find? (fun e => e.line == l && !e.dirty) with
  | some e => e.below.getD (copyOf m l)
  | none => copyOf m l

/-- HBM's copy of a line replaced: a clean copy of its slice stays as it is until it is evicted. -/
def putHbm (l : Nat) (c : LineCopy) (m : MemState) : MemState :=
  if inLlc m l then
    let b := if c = copyOf m l then none else some c
    { m with llc := m.llc.map (fun e => if e.line = l then { e with below := b } else e) }
  else putCopy l c m

/-- A read delivers a line to its slice: what HBM holds is unchanged, and stands beneath the clean copy where it differs.
Where no way takes the line, nothing is kept. -/
def deliverLine (l : Nat) (c : LineCopy) (m : MemState) : MemState :=
  let h := copyOf m l
  let m := touch l false m
  if inLlc m l ∧ c ≠ h then putHbm l h (putCopy l c m) else m

/-- A line delivered as poison: a poisoned copy is written as poison when it is evicted (R263). -/
def deliverPoison (l : Nat) (m : MemState) : MemState :=
  let m := touch l false m
  if inLlc m l then setPoison (storeAt m (64 * l) / 64) m else m

/-- A line of HBM read with errors on its symbols: delivered as the codeword that was read, or corrected and written back,
or as poison (R261-R263). -/
def hbmLine (l : Nat) (errs : List (Nat × BitVec 16)) (d : Dev) : Dev :=
  match decodeLine (poisoned d.mem l) (cellsAt d.mem (64 * l) 64) errs with
  | .clean b => { d with mem := deliverLine l { data := b, poison := false } d.mem }
  | .poison => { d with mem := deliverPoison l d.mem }
  | .corrected n b => noteCorrected (l / 4) n { d with mem := touch l false (putCopy l { data := b, poison := false } d.mem) }
  | .bad => noteUncorrectable l { d with mem := deliverPoison l d.mem }

/-- A line of the CXL window read from its expander, whose poison indication `errs` stands for (R278, log entry 118). -/
def expanderLine (l : Nat) (errs : List (Nat × BitVec 16)) (d : Dev) : Dev :=
  match cxlPortOf d.mem (64 * l) with
  | some e =>
    if (cxlPort d.mem e).st ≠ .up then d
    else { d with mem := if errs = [] then touch l false d.mem else deliverPoison l d.mem }
  | none => d

/-- HBM_READ: a line that neither its slice nor a combining queue holds is read. `onDie` says that the read carries a
severity report. -/
def hbmRead (addr : Nat) (errs : List (Nat × BitVec 16)) (onDie : Bool) (d : Dev) : Dev :=
  let l := addr / 64
  if inLlc d.mem l ∨ queued d.mem l then d
  else match zone addr with
    | .cxl => expanderLine l errs d
    | .hbm => hbmLine l errs (if onDie then inc OD.onDieSeverityReports d else d)
    | .reserve => hbmLine l errs (if onDie then inc OD.onDieSeverityReports d else d)
    | _ => d

def execHbmRead (addr : Nat) (errs : List (Nat × BitVec 16)) (onDie : Bool) (s : State) : Out :=
  onDev (hbmRead addr errs onDie) s

/-- One line of the patrol scrub; a line held dirty is skipped. HBM's copy is corrected or written as poison, that of a line
in a combining queue not, whose write-back comes after (R264). -/
def scrubLine (l : Nat) (errs : List (Nat × BitVec 16)) (report : Bool) (d : Dev) : Dev :=
  if heldDirty d.mem l then d
  else
    let d := if report then inc OD.onDieSeverityReports d else d
    let put := fun (c : LineCopy) (d : Dev) => if queued d.mem l then d else { d with mem := putHbm l c d.mem }
    let h := hbmCopy d.mem l
    match decodeLine h.poison h.data errs with
    | .clean _ => d
    | .poison => d
    | .corrected n b => noteCorrected (l / 4) n (put { data := b, poison := false } d)
    | .bad => noteUncorrectable l (put { data := List.replicate 64 0, poison := true } d)

/-- The scrub of a line of its granule. -/
def scrubRead (g : Nat) (reads : List LineRead) (i : Nat) (d : Dev) : Dev :=
  let mine := reads.filter (fun e => e.line == i)
  scrubLine (4 * g + i) (mine.flatMap (fun e => e.errs)) (mine.any (fun e => e.report)) d

/-- SCRUB_GRANULE: the next granule of the HBM range, reserve included, where it holds one. `reads` names errors and severity
reports by the line of the granule. -/
def scrubGranule (reads : List LineRead) (d : Dev) : Dev :=
  if !works d OD.readyHbm then d
  else
    let p := d.mem.scrubNext
    let d := match heldAt d.mem p with
      | some g => times 4 (scrubRead g reads) d
      | none => d
    { d with mem := { d.mem with scrubNext := (p + 1) % (reserveEnd / 256) } }

def execScrubGranule (reads : List LineRead) (s : State) : Out := onDev (scrubGranule reads) s

/-! ## Die loss (R267) -/

/-- Whether the uncorrectable reads of a die reach the die-loss count on two of its pseudo-channels within 1 ms. -/
def dieFailing (d : Dev) (x : Nat) : Bool :=
  let mine := d.mem.uncorrectable.filter (fun e => e.1 / 1024 == x && decide (d.tick ≤ e.2 + 1000))
  let pcs := (mine.map (fun e => e.1 % 1024)).eraseDups
  decide (2 ≤ (pcs.filter (fun p => decide (rd d OD.dieLossCount ≤ (mine.filter (fun e => e.1 % 1024 == p)).length))).length)

/-- DIE_LOSS: the die's range is held and reads as poison from now on; a second lost die fails the HBM function. An open
step meets a cause of abandonment (R440). -/
def dieLoss (stack die : Nat) (silent : Bool) (d : Dev) : Dev :=
  let x := 16 * stack + die
  if !silent && !dieFailing d x then d
  else
    let d := if inStep d then { d with seq := { d.seq with cause := Nat.max d.seq.cause 4 } } else d
    match d.mem.lost with
    | some y => if y = x then d else setReady OD.readyHbm RS.failed 4 d
    | none => { d with mem := { d.mem with lost := some x, rehoming := true, healed := [], lostPoison := true } }

def execDieLoss (stack die : Nat) (portSilent : Bool) (s : State) : Out := onDev (dieLoss stack die portSilent) s

/-- Granules of the reserve that can take the lost die's: those off the die that serve as no spare. -/
def reserveLeft (m : MemState) (x : Nat) : Nat :=
  (if dieGroup x < 3 then 36864 * 1024 else 36864 * 1024 / 384 * 376) - (spareRanks m x).length

/-- DIE_REHOME_DONE: held accesses are released, EV_2804, and the HBM function reports DEGRADED; too few reserve granules
fail it. -/
def dieRehomeDone (d : Dev) : Dev :=
  match d.mem.lost with
  | some x =>
    if !d.mem.rehoming then d
    else
      let d := raise (controllerPort (x / 16)) 0x2804 (x / 16) x []
        (wr OD.lostDie x { d with mem := { d.mem with rehoming := false } })
      if reserveLeft d.mem x < 2 ^ 25 then setReady OD.readyHbm RS.failed 4 d
      else if works d OD.readyHbm then setReady OD.readyHbm RS.degraded 2 d
      else d
  | none => d

def execDieRehomeDone (s : State) : Out := onDev dieRehomeDone s

/-! ## LLC errors (R259) -/

/-- The device with one way of a set less; its least recently used line makes room. -/
def disableWay (key : Nat) (d : Dev) : Dev :=
  let set := key / 16
  let slice := set / 4096
  let m := { d.mem with llcOff := key :: d.mem.llcOff }
  let held := m.llc.filter (fun x => setKey (64 * x.line) == set)
  let m := if held.length ≤ waysOf m set then m else match victim m set with
    | some e => { evict e m with llc := m.llc.filter (fun x => x.line != e.line) }
    | none => m
  let d := raise (bdPort (slice / 64)) 0x2810 slice 0 [] (inc OD.llcWaysDisabled { d with mem := m })
  if waysOf m set < 8 then setReady OD.readyMemory RS.failed 4 d
  else if readyState d OD.readyMemory = RS.ready then setReady OD.readyMemory RS.degraded 2 d
  else d

/-- A slice whose arrays can no longer be read: its dirty lines are poison, its others are read from memory again, and the
memory function is FAILED. -/
def sliceLost (slice : Nat) (d : Dev) : Dev :=
  let mine := fun (e : LlcLine) => sliceOf (64 * e.line) == slice
  let gone := d.mem.llc.filter mine
  let m := gone.foldl (fun m e =>
    if e.dirty then setPoison (storeAt m (64 * e.line) / 64) m else evict e m) d.mem
  setReady OD.readyMemory RS.failed 4 { d with mem := { m with llc := m.llc.filter (fun e => !mine e) } }

/-- LLC_ECC_ERROR: a single-bit error is corrected, and the second in a way within the retirement window disables it; a
double-bit error poisons the line. -/
def llcEccError (addr way : Nat) (kind : LlcError) (d : Dev) : Dev :=
  let l := addr / 64
  if kind = .unreadable then (if zone addr = .hbm ∨ zone addr = .reserve ∨ zone addr = .cxl then sliceLost (sliceOf addr) d else d)
  else if !inLlc d.mem l ∨ 12 ≤ way then d
  else if kind = .double then { d with mem := setPoison (storeAt d.mem (64 * l) / 64) d.mem }
  else
    let key := 16 * setKey (64 * l) + way
    if d.mem.llcOff.contains key then d
    else
      let win := rd d OD.retireWindow * 1000000
      let ticks := d.tick :: (mget [] d.mem.llcErrs key).filter (fun t => decide (d.tick ≤ t + win))
      let d := { d with mem := { d.mem with llcErrs := mput [] d.mem.llcErrs key ticks } }
      if 2 ≤ ticks.length then disableWay key d else d

def execLlcEccError (addr way : Nat) (kind : LlcError) (s : State) : Out := onDev (llcEccError addr way kind) s

/-! ## Accumulates (R271-R275) -/

/-- An accumulate operation of a code reaching a line of this device. -/
def accCode (code addr : Nat) (operand : Bytes) (d : Dev) : Dev := (accumulate code addr operand d).2

def execAccAddI32 (addr : Nat) (operand : Bytes) (s : State) : Out := onDev (accCode 0x01 addr operand) s
def execAccAddI64 (addr : Nat) (operand : Bytes) (s : State) : Out := onDev (accCode 0x02 addr operand) s
def execAccAddF32 (addr : Nat) (operand : Bytes) (s : State) : Out := onDev (accCode 0x03 addr operand) s
def execAccAddBf16 (addr : Nat) (operand : Bytes) (s : State) : Out := onDev (accCode 0x04 addr operand) s
def execAccAddFp16 (addr : Nat) (operand : Bytes) (s : State) : Out := onDev (accCode 0x05 addr operand) s
def execAccMaxF32 (addr : Nat) (operand : Bytes) (s : State) : Out := onDev (accCode 0x06 addr operand) s
def execAccMinF32 (addr : Nat) (operand : Bytes) (s : State) : Out := onDev (accCode 0x07 addr operand) s

/-- COMBINE_WRITEBACK: a line of a combining queue that has been idle, or whose entry is needed, is written back and
leaves the queue; that of a port that is down stays (R280). -/
def execCombineWriteback (line : Nat) (_needed : Bool) (s : State) : Out :=
  onDev (fun d => { d with mem := { d.mem with
    combining := d.mem.combining.filter (fun e => e.line != line || pinned d.mem e.line) } }) s

/-! ## CXL ports (R276-R280) -/

def setCxl (e : Nat) (x : CxlPort) (d : Dev) : Dev :=
  { d with mem := { d.mem with cxl := mput CxlPort.none d.mem.cxl e x } }

/-- Whether a line lies behind an edge port. -/
def behindPort (m : MemState) (e l : Nat) : Bool := decide (zone (64 * l) = .cxl) && cxlPortOf m (64 * l) == some e

/-- EdgeLinkState of an edge port; EV_3120 where it goes down or comes up (R393, R394). -/
def setEdgeLink (e v : Nat) (d : Dev) : Dev :=
  let old := nfld (rd d (OD.edgeLinkState + e)) 2 0
  let d := wr (OD.edgeLinkState + e) v d
  if (old = 2) ≠ (nfld v 2 0 = 2) then raise (ldPort e) 0x3120 e 0 [] d else d

/-- CXL_TIMEOUT: a request to the expander not completed in time completes with poison, and the port is declared down. -/
def cxlTimeout (e : Nat) (d : Dev) : Dev :=
  let x := cxlPort d.mem e
  if x.st ≠ .up then d
  else setReady (edgeFn e) RS.degraded 4 (raise (ldPort e) 0x2820 e 0 []
    (setCxl e { x with st := .down, downSince := d.tick, lastTrain := d.tick } (setEdgeLink e 0 d)))

def execCxlTimeout (port : Nat) (s : State) : Out := onDev (cxlTimeout port) s

/-- What lies beneath lines that are discarded. -/
def discard (ls : List (Nat × Option LineCopy)) (m : MemState) : MemState :=
  ls.foldl (fun m x => match x.2 with
    | some c => putCopy x.1 c m
    | none => m) m

/-- A port declared FAILED: its dirty lines are discarded, those of the combining queues with them, so the expander's contents
are what is left. -/
def cxlFail (e : Nat) (d : Dev) : Dev :=
  let mine := fun (l : Nat) => behindPort d.mem e l
  let m := discard ((d.mem.llc.filter (fun x => mine x.line)).map (fun x => (x.line, x.below)) ++
    (d.mem.combining.filter (fun x => mine x.line)).map (fun x => (x.line, x.below))) d.mem
  let m := { m with llc := m.llc.filter (fun x => !mine x.line), combining := m.combining.filter (fun x => !mine x.line) }
  setReady (edgeFn e) RS.failed 4 (raise (ldPort e) 0x2822 e 0 []
    (setCxl e { cxlPort d.mem e with st := .failed } { d with mem := m }))

/-- EdgeLinkState of a link that is up. -/
def linkWord (rate width : Nat) : Nat := 2 + rate % 8 * 2 ^ 3 + width % 32 * 2 ^ 6

/-- A port up again: its dirty lines are written back. -/
def cxlReturn (e latency rate width : Nat) (d : Dev) : Dev :=
  let clean := fun (x : LlcLine) => if behindPort d.mem e x.line then { x with dirty := false, below := none } else x
  let d1 := { d with mem := { d.mem with
    llc := d.mem.llc.map clean, combining := d.mem.combining.filter (fun x => !behindPort d.mem e x.line) } }
  setReady (edgeFn e) RS.ready 0 (raise (ldPort e) 0x2821 e 0 []
    (wr (OD.cxlExpanderLatency + e) latency (setEdgeLink e (linkWord rate width) (setCxl e { cxlPort d.mem e with st := .up } d1))))

/-- An expander without the contents it held: it has lost its own power, or is another one (R283, log entry 6). What slices
and queues hold of its lines stays. -/
def emptyExpander (e : Nat) (m : MemState) : MemState :=
  let held := (m.llc.map (fun x => x.line) ++ m.combining.map (fun x => x.line)).map (fun l => storeAt m (64 * l) / 64)
  let gone := fun (l : Nat) => decide (cxlStore e ≤ 64 * l) && decide (64 * l < cxlStore (e + 1)) && !held.contains l
  let zero : Option LineCopy := some { data := List.replicate 64 0, poison := false }
  { m with
    cells := m.cells.filter (fun c => !gone (c.1 / 64)), poison := m.poison.filter (fun l => !gone l)
    llc := m.llc.map (fun x => if behindPort m e x.line then { x with below := zero } else x)
    combining := m.combining.map (fun x => if behindPort m e x.line then { x with below := zero } else x) }

/-- The first training of a port in the CXL role: its capacity and serial number are kept. -/
def cxlFirst (e capacity serial latency rate width : Nat) (kept : Bool) (d : Dev) : Dev :=
  let d := if kept then d else { d with mem := emptyExpander e d.mem }
  wr (OD.cxlCapacity + e) capacity (wr (OD.cxlExpanderLatency + e) latency (setEdgeLink e (linkWord rate width)
    (setCxl e { st := .up, capacity, serial, downSince := 0, lastTrain := d.tick } d)))

/-- CXL_RETRAIN: a training of the link, every 100 ms while the port is down, or the first one of a port in the CXL role. -/
def cxlRetrain (e : Nat) (trained : Bool) (y : Expander) (rate width : Nat) (d : Dev) : Dev :=
  let x := cxlPort d.mem e
  match x.st with
  | .off =>
    if trained ∧ edgeRoleOf d e = 2 ∧ readyState d (edgeFn e) ≠ RS.absent
    then cxlFirst e y.capacity y.serial y.latency rate width y.kept d else d
  | .down =>
    if d.tick < x.lastTrain + 100000 then d
    else
      let d := setCxl e { x with lastTrain := d.tick } d
      if !trained then d
      else if y.capacity = x.capacity ∧ y.serial = x.serial then
        cxlReturn e y.latency rate width (if y.kept then d else { d with mem := emptyExpander e d.mem })
      else cxlFail e d
  | _ => d

def execCxlRetrain (port : Nat) (trained : Bool) (expander : Expander) (rate width : Nat) (s : State) : Out :=
  onDev (cxlRetrain port trained expander rate width) s

/-- CXL_FAIL_TIME: a port down for CxlFailTime is declared FAILED. -/
def cxlFailTime (e : Nat) (d : Dev) : Dev :=
  let x := cxlPort d.mem e
  if x.st = .down ∧ x.downSince + rd d OD.cxlFailTime ≤ d.tick then cxlFail e d else d

def execCxlFailTime (port : Nat) (s : State) : Out := onDev (cxlFailTime port) s

/-- Dirty LLC lines written back: all of them (R283), or those of the CXL window (R612). -/
def writeBack (cxlOnly : Bool) (d : Dev) : Dev :=
  let clean := fun (x : LlcLine) =>
    if x.dirty && (!cxlOnly || decide (zone (64 * x.line) = .cxl)) && !pinned d.mem x.line
    then { x with dirty := false, below := none } else x
  { d with mem := { d.mem with llc := d.mem.llc.map clean } }

end Sys2Proof.Machine
end

