-- ==== Sys2Proof/Machine/Resets.lean ====
section
/-!
DEFINITION. How resets begin: the fence of an engine, of a cluster and of the compute domain, a cluster marked failed, the
arithmetic checks, and the fault record (R509-R519, R524, R527).
-/

namespace Sys2Proof.Machine

/-- The fault record (R527). -/
def faultRecord (tier target cause : Nat) (d : Dev) : Dev :=
  wr OD.lastResetTier tier (wr OD.lastResetTarget target (wr OD.lastResetCause cause d))

/-- Kind and index of an engine ID (R506). -/
def engineKind (e : Nat) : Nat := e / 0x1000
def engineIndex (e : Nat) : Nat := e % 0x1000

/-- Whether an engine ID is defined. -/
def engineDefined (e : Nat) : Bool :=
  let i := engineIndex e
  match engineKind e with
  | 1 => decide (i < 256) | 2 => decide (i < 256) | 3 => decide (i < 2048) | 4 => decide (i < 2048)
  | 5 => decide (i < 2048) | 6 => decide (i < 12) | 7 => decide (i < 2) | 8 => decide (i < 4) | _ => false

/-- Logical cluster of an engine of kinds 1 to 5. -/
def engineCluster (e : Nat) : Nat := if engineKind e ≤ 2 then engineIndex e else engineIndex e / 8

/-- Whether a reset of a tier is in progress. -/
def tierActive (d : Dev) (tier : Nat) : Bool := d.faults.resets.any (fun r => r.tier == tier)

/-- A reset enters the list, with the fault record. -/
def pushReset (tier target cause : Nat) (command : Bool) (d : Dev) : Dev :=
  let r : Reset := { tier, target, cause, since := d.tick, command }
  faultRecord tier target cause { d with faults := { d.faults with resets := d.faults.resets ++ [r], drainSince := some d.tick } }

/-- The resets that a test keeps. -/
def keepResets (f : Reset → Bool) (d : Dev) : Dev :=
  { d with faults := { d.faults with resets := d.faults.resets.filter f } }

/-! ## What a fence does to groups and operations -/

/-- Every block on a core faults; the fault is recorded at the program counter of its first group. -/
def faultCore (st : Status) (core : Nat) (d : Dev) : Dev :=
  (coreBlocks d core).foldl (fun d b =>
    let g := b.groups.headD
      { lanes := [], issues := 0, issuedAt := 0, stores := [], awaits := [], storeError := none, fences := [] }
    let pc := (selectPc g).getD 0
    groupFault { grid := b.grid, block := b.no, group := 0 } st pc (subsetAt g pc) d) d

/-- Every block of a cluster's cores faults, and every operation of its units completes. -/
def dropCluster (c : Nat) (group queued running : Status) (d : Dev) : Dev :=
  let d := times 8 (fun i => faultCore group (8 * c + i)) d
  let d := dropMatrix (2 * c + 1) queued running (dropMatrix (2 * c) queued running d)
  times 8 (fun i => dropChain (8 * c + i) queued running) d

/-- A logical cluster marked failed for want of a spare (R514). -/
def failCluster (c : Nat) (d : Dev) : Dev :=
  let d := dropCluster c ST.fenced ST.fenced ST.fenced d
  let d := { d with faults := { d.faults with failedClusters := d.faults.failedClusters ++ [c] } }
  let d := raise (cdPort (c / 64)) 0x4004 c 0 [] d
  if readyState d (computeFn (8 * c)) = RS.ready then setReady (computeFn (8 * c)) RS.degraded 2 d else d

/-- Whether an engine belongs to a cluster. -/
def inCluster (c e : Nat) : Bool := decide (1 ≤ engineKind e) && decide (engineKind e ≤ 5) && engineCluster e == c

/-- The pending fault command completes with a status. -/
def faultAnswer (st : Status) (d : Dev) : Dev :=
  if commandPending d OD.faultCommand then setCommandStatus OD.faultCommand st d else d

/-- A reset that is absorbed by one in progress; a command that asked for it is done. -/
def absorbed (command : Bool) (d : Dev) : Dev := if command then faultAnswer ST.ok d else d

/-- The resets in progress that end in a larger one: whether the fault command waits for one of them, and the device
without them. -/
def takeOver (ends : Reset → Bool) (d : Dev) : Bool × Dev :=
  (d.faults.resets.any (fun r => ends r && r.command), keepResets (fun r => !ends r) d)

/-- A cluster move begins: its fence goes up, its engines' own resets end in it; without a spare the cluster is marked
failed. A move inside a domain being reset is absorbed (R517). -/
def beginMove (c cause : Nat) (command : Bool) (d : Dev) : Dev :=
  if tierActive d 3 ∨ tierActive d 4 ∨ clusterFenced d c then absorbed command d
  else
    let r := takeOver (fun r => r.tier == 1 && inCluster c r.target) d
    let command := command || r.1
    if rd d (OD.sparesRemaining + c / 64) = 0 then absorbed command (failCluster c (faultRecord 2 c cause r.2))
    else pushReset 2 c cause command r.2

/-! ## Spare clusters (R22, R511) -/

/-- The map of a compute die: the repair record's once a move has rewritten it (R21, R511), else the initial map of the factory
record. -/
def clusterMapOf (d : Dev) (die : Nat) : Bytes :=
  (rdBytes d (OD.clusterMap + die)).getD (mget ((List.range 64).map (BitVec.ofNat 8)) d.sec.factory.maps die)

/-- The unused spares of a die, 0 and 1 for physical clusters 64 and 65. -/
def unusedSpares (d : Dev) (die : Nat) : List Nat := [0, 1].filter (fun i => !d.faults.usedSpares.contains (2 * die + i))

/-- A spare leaves the unused ones: it is taken, or has failed its test. -/
def takeSpare (die i : Nat) (d : Dev) : Dev :=
  let d := { d with faults := { d.faults with usedSpares := d.faults.usedSpares ++ [2 * die + i] } }
  wr (OD.sparesRemaining + die) (rd d (OD.sparesRemaining + die) - 1) d

/-- A logical cluster served by a spare from now on: the map rewritten, EV_4003, its count. -/
def remap (c i : Nat) (d : Dev) : Dev :=
  let die := c / 64
  let m := lset (clusterMapOf d die) (c % 64) (BitVec.ofNat 8 (64 + i))
  raise (cdPort die) 0x4003 c 0 [] (inc OD.clusterMoves (wrBytes (OD.clusterMap + die) m (takeSpare die i d)))

/-- A cluster moved without state, or marked failed where its die has no spare left. -/
def moveStateless (c : Nat) (d : Dev) : Dev :=
  match unusedSpares d (c / 64) with
  | i :: _ => remap c i d
  | [] => failCluster c d

/-! ## Arithmetic checks (R510) -/

/-- A chunk or row whose check failed and which is computed once more: EV_4009, its count, and a move at the second error
within the reset window. -/
def arithmeticError (c : Nat) (d : Dev) : Dev :=
  let d := raise (cdPort (c / 64)) 0x4009 c 0 [] (inc OD.arithmeticCheckErrors d)
  let second := match mfind d.faults.lastArith c with
    | some t => decide (d.tick < t + rd d OD.resetWindow)
    | none => false
  let d := { d with faults := { d.faults with lastArith := mset d.faults.lastArith c d.tick } }
  if second then beginMove c 0x4009 false d else d

/-! ## Engine reset (R515, R523-R526) -/

/-- What flagged stores of a core's queues cover begins anew (R318). -/
def forgetQueues (core : Nat) (d : Dev) : Dev :=
  times 4 (fun q d => setQueue (4 * core + q) { queueOf d (4 * core + q) with fails := [], lastFlag := [] } d) d

/-- Controller whose combining queue holds a line. -/
def lineController (m : MemState) (l : Nat) : Nat := accUnit m l

/-- An engine reset begins: its fence goes up; the groups of a core whose engine or queues are reset fault; an accumulate
unit's combining queue is written back first; a sequencer processor reports FENCED. -/
def startEngine (e cause : Nat) (command : Bool) (d : Dev) : Dev :=
  let i := engineIndex e
  let d := pushReset 1 e cause command
    { d with faults := { d.faults with lastReset := mset d.faults.lastReset e d.tick } }
  match engineKind e with
  | 4 => faultCore ST.fenced i { d with mem := { d.mem with prefetch := mdel d.mem.prefetch i } }
  | 5 => forgetQueues i (faultCore ST.fenced i d)
  | 6 => { d with mem := { d.mem with combining := d.mem.combining.filter (fun x => lineController d.mem x.line != i || pinned d.mem x.line) } }
  | 8 => setReady (sequencerFn i) RS.fenced 3 d
  | _ => d

/-! ## Kick turn (R519, R520) -/

/-- Steps 1 and 2 of R519: the compute dies are fenced, every group faults, every grid completes, descriptors that have not
started complete with ST_FENCED and operations in progress with ST_POISON; an OPEN step is to be abandoned. -/
def fenceCompute (d : Dev) : Dev :=
  let d := computeFns.foldl (fun d f => if works d f then setReady f RS.fenced 3 d else d) d
  let d := (d.blocks.map (fun b => b.core)).eraseDups.foldl (fun d c => faultCore ST.fenced c d) d
  let d := { d with grids := mmap (fun _ g =>
    if g.complete then g else { g with fault := some (g.fault.getD ST.fenced) }) d.grids }
  let d := d.grids.foldl (fun d g => gridComplete g.1 d) d
  let d := (d.units.map (fun u => u.1)).foldl (fun d k => dropMatrix k ST.fenced ST.poison d) d
  let d := (d.piste.map (fun u => u.1)).foldl (fun d k => dropChain k ST.fenced ST.poison d) d
  let d := (List.range 64).foldl (fun d c => fenceQueues c d) d
  if d.seq.st = .open then { d with seq := { d.seq with cause := Nat.max d.seq.cause 4 } } else d

/-- A kick turn begins. Engine resets of the compute domain end in it; a cluster being moved takes the spare chosen for it,
without its state (R517). -/
def beginKick (cause : Nat) (command : Bool) (d : Dev) : Dev :=
  if tierActive d 3 ∨ tierActive d 4 then absorbed command d
  else
    let moving := (d.faults.resets.filter (fun r => r.tier == 2)).map (fun r => r.target)
    let r := takeOver (fun r => r.tier == 2 || (r.tier == 1 && decide (engineKind r.target ≤ 5))) d
    fenceCompute (moving.foldl (fun d c => moveStateless c d) (pushReset 3 0 cause (command || r.1) r.2))

end Sys2Proof.Machine
end

