-- ==== Sys2Proof/Machine/Matrix.lean ====
section
/-!
DEFINITION. Matrix operations on the arrays and skate paths: chunks (R141, R142), the start, completion and failure of an
operation (R151-R154, R164, R166), and the shadow tile checker (R212-R215). A start performs the operation's whole effect
on memory, chunk by chunk; completion publishes the record and the counter (log entry 18).
-/

namespace Sys2Proof.Machine

/-! ## Chunks -/

/-- Rows of a chunk: M_c. -/
def chunkRows (w : List W64) : Nat := if mxNarrow w then 1024 else 3072
/-- Row chunks of an N tile, N tiles, and the number of chunks. -/
def rowChunks (w : List W64) : Nat := (mxM w + chunkRows w - 1) / chunkRows w
def colTiles (w : List W64) : Nat := (mxN w + 127) / 128
def chunkCount (w : List W64) : Nat := if mxM w = 0 ∨ mxN w = 0 then 0 else colTiles w * rowChunks w

/-- A part of C that a unit computes and writes at once: rows and columns, first and past the last. -/
structure Part where
  m0 : Nat
  m1 : Nat
  n0 : Nat
  n1 : Nat
  deriving DecidableEq, Repr

/-- First and past-the-last row and column of chunk i, numbered from 0 in the order of R142. -/
def chunkM0 (w : List W64) (i : Nat) : Nat := i % rowChunks w * chunkRows w
def chunkM1 (w : List W64) (i : Nat) : Nat := Nat.min (mxM w) (chunkM0 w i + chunkRows w)
def chunkN0 (w : List W64) (i : Nat) : Nat := i / rowChunks w * 128
def chunkN1 (w : List W64) (i : Nat) : Nat := Nat.min (mxN w) (chunkN0 w i + 128)

/-- Row groups of the skate path: up to 16 rows each (R160). -/
def skateGroups (w : List W64) : Nat := (mxM w + 15) / 16

/-- How many parts an operation has on a unit: the array's chunks (R142); on the skate path 128 columns of a row group (R160). -/
def partCount (skate : Bool) (w : List W64) : Nat :=
  if skate then (if mxM w = 0 ∨ mxN w = 0 then 0 else skateGroups w * colTiles w) else chunkCount w

/-- Part i of an operation on a unit. The skate path takes its row groups in ascending order, and for each group the columns. -/
def partAt (skate : Bool) (w : List W64) (i : Nat) : Part :=
  if skate then
    let g := i / colTiles w
    let n := i % colTiles w
    { m0 := 16 * g, m1 := Nat.min (mxM w) (16 * g + 16), n0 := 128 * n, n1 := Nat.min (mxN w) (128 * n + 128) }
  else { m0 := chunkM0 w i, m1 := chunkM1 w i, n0 := chunkN0 w i, n1 := chunkN1 w i }

/-- Whether chunk i of R141 is written in full once so many parts are. -/
def chunkFull (skate : Bool) (w : List W64) (parts i : Nat) : Bool :=
  if skate then
    decide (chunkM1 w i ≤ 16 * (parts / colTiles w + (if i / rowChunks w < parts % colTiles w then 1 else 0)))
  else decide (i < parts)

/-- Chunks of R141 written in full: CHUNKS_DONE. On the skate path too the record counts them, as its records are the
array's (R159; DEDUCED, log entry 112). -/
def chunksDone (skate : Bool) (w : List W64) (parts : Nat) : Nat :=
  ((List.range (chunkCount w)).filter (chunkFull skate w parts)).length

/-- The bytes of elements lo to hi of a row. -/
def rowPart (base bits lo hi : Nat) : Nat × Nat :=
  (base + lo * bits / 8, if lo < hi then (hi * bits + 7) / 8 - lo * bits / 8 else 0)

/-- What a part reads: addresses and lengths. -/
def partReads (w : List W64) (p : Part) : List (Nat × Nat) :=
  let m0 := p.m0
  let m1 := p.m1
  let n0 := p.n0
  let n1 := p.n1
  let k := mxK w
  let ms := (List.range (m1 - m0)).map (· + m0)
  let ns := (List.range (n1 - n0)).map (· + n0)
  let bk := blocks32 k
  (if mxTransA w then (List.range k).map (fun j => rowPart (mxAAddr w + j * mxLdA w) (codeBits (mxA w)) m0 m1)
   else ms.map (fun m => (mxAAddr w + m * mxLdA w, rowBytes (mxA w) k))) ++
  (if mxTransB w then ns.map (fun n => (mxBAddr w + n * mxLdB w, rowBytes (mxB w) k))
   else (List.range k).map (fun j => rowPart (mxBAddr w + j * mxLdB w) (codeBits (mxB w)) n0 n1)) ++
  (if isMx (mxA w) then [(mxAScale w + m0 * bk, (m1 - m0) * bk)] else []) ++
  (if isMx (mxB w) then [(mxBScale w + n0 * bk, (n1 - n0) * bk)] else []) ++
  (if mxAccIn w then ms.map (fun m => rowPart (mxCInAddr w + m * mxLdCIn w) (codeBits (mxC w)) n0 n1) else []) ++
  (if mxAccIn w && isMx (mxC w)
   then ms.map (fun m => (mxCInScale w + m * blocks32 (mxN w) + n0 / 32, blocks32 (n1 - n0))) else [])

/-- Writes made one after another, until one is not ST_OK. -/
def writeAll : List (Nat × Bytes) → Dev → Status × Dev
  | [], d => (ST.ok, d)
  | (a, bs) :: l, d =>
    let r := writeMem a bs d
    if r.1 = ST.ok then writeAll l r.2 else (r.1, d)

/-- The writes of a drained row. -/
def rowWrites (w : List W64) (m n0 : Nat) (r : List Drained × List Nat) : List (Nat × Bytes) :=
  let bits := codeBits (mxC w)
  (mxCAddr w + m * mxLdC w + n0 * bits / 8, packBits bits (r.1.map (fun e => e.bits))) ::
  (if r.2 = [] then [] else [(mxCScale w + m * blocks32 (mxN w) + n0 / 32, r.2.map (BitVec.ofNat 8))])

/-- Whether an operation's outputs overlap its inputs (R166). -/
def anyOverlap (ins outs : List (Nat × Nat)) : Bool :=
  ins.any (fun i => outs.any (fun o => i.2 != 0 && o.2 != 0 && overlaps i.1 i.2 o.1 o.2))

/-- The memory an operation reads while it runs: the device's, or, where outputs overlap inputs, element by element either
that or what it was before, as a free value says. -/
def opMem (mixed : Bool) (before d : Dev) : Mem :=
  { now := byteAt d, before := byteAt before, old := fun b => mixed && Config.mix d.free b }

/-- Flags and counts of drained elements added to a run. -/
def countDrained (es : List Drained) (r : UnitRun) : UnitRun :=
  let ovf := (es.filter (fun e => e.ovf)).length
  let non := (es.filter (fun e => e.non)).length
  { r with
    ovf := r.ovf || decide (0 < ovf), inx := r.inx || es.any (fun e => e.inx),
    nan := r.nan || es.any (fun e => e.non && e.nan), inf := r.inf || es.any (fun e => e.non && !e.nan),
    ovfCount := r.ovfCount + ovf, nanInfCount := r.nanInfCount + non }

/-! ## Sampling (R212) -/

/-- The draw for chunk i, numbered from 0. -/
def sampleDraw (d : Dev) (op : UnitOp) (i : Nat) : Quad :=
  let c := mxCAddr op.words
  draw d (rd d OD.checkStream) op.by_.step op.by_.mb
    (Nat.xor (Nat.xor (nfld c 31 0) (nfld c 48 32)) (4099 * (i + 1)) % 2 ^ 32)

/-- Whether a chunk is sampled. -/
def sampled (d : Dev) (op : UnitOp) (i : Nat) : Bool :=
  let h := rd d OD.checkShift
  mxNarrow op.words && mxC op.words != 11 && h != 255 && decide ((sampleDraw d op i).x0.toNat < 2 ^ (32 - h))

/-- The checked column of a chunk. -/
def sampleColumn (d : Dev) (op : UnitOp) (i : Nat) : Nat :=
  let w := op.words
  chunkN0 w i + (sampleDraw d op i).x1.toNat % 128 % (chunkN1 w i - chunkN0 w i)

/-! ## Running an operation -/

/-- One part: read, computed, written in full, counted; or the operation ends at it, and nothing of it is written (R164). A
chunk of R141 that it completes is checked where it is sampled (R215). -/
def runPart (skate mixed : Bool) (before : Dev) (s : UnitRun × Dev) (i : Nat) : UnitRun × Dev :=
  let r := s.1
  let d := s.2
  let w := r.op.words
  if r.status ≠ ST.ok then s
  else
    let p := partAt skate w i
    let reads := partReads w p
    if reads.any (fun p => poisonedIn d p.1 p.2)
    then ({ r with status := ST.poison }, reads.foldl (fun d p => reach p.1 p.2 d) d)
    else
      let d := reads.foldl (fun d p => touchRead p.1 p.2 d) d
      let mem := opMem mixed before d
      let u := fun e => (draw d (mxStream w) r.op.by_.step r.op.by_.mb e).x0
      let rows := (List.range (p.m1 - p.m0)).map (fun j => (p.m0 + j, drainRow mem u w (p.m0 + j) p.n0 p.n1))
      let x := writeAll (rows.flatMap (fun q => rowWrites w q.1 p.n0 q.2)) d
      if x.1 ≠ ST.ok then ({ r with status := x.1 }, d)
      else
        let c := countDrained (rows.flatMap (fun q => q.2.1)) r
        let full := (List.range (chunkCount w)).filter (fun k => chunkFull skate w (i + 1) k && !chunkFull skate w i k)
        ({ c with done := chunksDone skate w (i + 1), checks := r.checks ++ full.filter (sampled d r.op) },
         if mixed then drew x.2 else x.2)

/-- The whole effect of an operation on memory. -/
def runMatrix (skate : Bool) (op : UnitOp) (d : Dev) : UnitRun × Dev :=
  let mixed := anyOverlap (mxInputs op.words) (mxOutputs op.words)
  (List.range (partCount skate op.words)).foldl (runPart skate mixed d) (UnitRun.fresh op, d)

/-- Whether a unit may take its next descriptor: it is idle and not fenced, and the checks of its cluster that the skate
path has to serve come first (R215). -/
def unitIdle (d : Dev) (cluster : Nat) (skate : Bool) : Bool :=
  let k := unitKey cluster skate
  decide (cluster < 256) && (unitOf d k).run.isNone && engineUse d (unitEngine k) cluster == ST.ok &&
  (!skate || match (unitOf d (unitKey cluster false)).run with
    | some r => r.checks.isEmpty
    | none => true)

/-- MATRIX_OP_START: the oldest accepted descriptor of a unit, which leaves its queue: the running one takes none of the eight
places (DESIGN CHOICE, log entry 111). `checkFailed` says that an arithmetic check failed on some
chunk, which was then computed once more (R510). -/
def matrixStart (cluster : Nat) (skate checkFailed : Bool) (d : Dev) : Dev :=
  let k := unitKey cluster skate
  match (unitOf d k).queue with
  | [] => d
  | op :: rest =>
    if !unitIdle d cluster skate then d
    else
      let x := runMatrix skate op d
      let d := setUnit k { queue := rest, run := some x.1 } x.2
      if checkFailed ∧ 0 < chunkCount op.words then arithmeticError cluster d else d

def execMatrixOpStart (cluster : Nat) (skate checkFailed : Bool) (s : State) : Out :=
  onDev (matrixStart cluster skate checkFailed) s

/-- The end of the running operation, once its checks are served and its engine is not being reset. -/
def matrixEnd (ok : Bool) (cluster : Nat) (skate : Bool) (d : Dev) : Dev :=
  let k := unitKey cluster skate
  match (unitOf d k).run with
  | none => d
  | some r =>
    if (r.status == ST.ok) = ok ∧ r.checks = [] ∧ engineInReset d (unitEngine k) = false ∧ clusterFenced d cluster = false
    then closeMatrix k r (setUnit k { unitOf d k with run := none } d)
    else d

/-- MATRIX_OP_COMPLETE: the operation wrote every chunk. -/
def execMatrixOpComplete (cluster : Nat) (skate : Bool) (s : State) : Out := onDev (matrixEnd true cluster skate) s

/-- MATRIX_READ_POISON: the operation met poison, or a write of it failed. -/
def execMatrixReadPoison (cluster : Nat) (skate : Bool) (s : State) : Out := onDev (matrixEnd false cluster skate) s

/-! ## The tile checker (R213, R214) -/

/-- A value rounded to BF16. -/
def toBf16 (v : Val) : Val := decode .bf16 (round .bf16 RMode.rne false v).bits

/-- The reference of element (m, n), in the order of R194, which starts from C_in where the operation does (DEDUCED, log
entry 113). -/
def reference (mem : Mem) (w : List W64) (m n : Nat) : W32 :=
  (List.range ((mxK w + 15) / 16)).foldl (fun acc j =>
    let ps := (groupIx 16 (mxK w) j).map (fun k =>
      vmul (toBf16 (scaled (aAt mem w m k) (if isMx (mxA w) || isTensor8 (mxA w) then aScale mem w m (k / 32) else 127)))
           (toBf16 (scaled (bAt mem w k n) (if isMx (mxB w) || isTensor8 (mxB w) then bScale mem w n (k / 32) else 127))))
    rne32 (vadd (f32 acc) (f32 (rne32 (vsum ps))))) (if mxAccIn w then rne32 (cInNarrow mem w m n) else 0)

/-- The written element (m, n), decoded (R173). -/
def writtenAt (mem : Mem) (w : List W64) (m n : Nat) : Val :=
  let v := valAt mem (mxC w) (mxCAddr w + m * mxLdC w) n
  if isMx (mxC w) then scaled v (mem.byte (mxCScale w + m * blocks32 (mxN w) + n / 32)).toNat
  else vscale v ((mxCSexp w : Int) - 127)

/-- Mantissa bits of the C format in the threshold. -/
def checkMant (c : Nat) : Nat := if c = 10 then 6 else (codeFmt c).manBits

/-- A finite value as a rational number. -/
def valRat (v : Val) : ℚ :=
  match v with
  | .fin s n e =>
    let q : ℚ := if 0 ≤ e then ((n * 2 ^ e.toNat : Nat) : ℚ) else mkRat n (2 ^ (-e).toNat)
    if s then -q else q
  | _ => 0

def absRat (x : ℚ) : ℚ := if x < 0 then -x else x

/-- The verdict on a slice: none when it is not compared, else whether it mismatches and its largest ratio, none where that is
a division by zero or has no finite value. -/
def sliceVerdict (tau : ℚ) (pairs : List (Val × Val)) : Option (Bool × Option W32) :=
  if pairs.any (fun p => !p.2.isFin) then none
  else
    let top := pairs.foldl (fun m p => max m (absRat (valRat p.2))) 0
    let diffs := pairs.map (fun p => absRat (valRat p.1 - valRat p.2))
    let bad := pairs.any (fun p => !p.1.isFin) || diffs.any (fun x => decide (tau * top < x)) ||
      (decide (top = 0) && pairs.any (fun p => !p.1.isZero))
    let big := diffs.foldl max 0
    some (bad, if top = 0 ∨ pairs.any (fun p => !p.1.isFin) then none else some (f32OfRat (big / top)))

/-- A saturating count in half of a word of the layer's entry. -/
def bumpEntry (a i : Nat) (high : Bool) (d : Dev) : Dev :=
  let w := wordAt d (a + 8 * i)
  let lo := fld w 31 0
  let hi := fld w 63 32
  let up := fun n => if n < 0xFFFFFFFF then n + 1 else n
  putWord (a + 8 * i) (BitVec.ofNat 64 ((if high then lo else up lo) + (if high then up hi else hi) * 2 ^ 32)) d

/-- A mismatching slice; a ratio that has no value is a free one (log entry 2). -/
def noteMismatch (cluster : Nat) (layer : Option Nat) (grid : Nat) (ratio : Option W32) (d : Dev) : Dev :=
  let free := (freeBits d).toNat % 2 ^ 32
  let d := match ratio with
    | some x => wr OD.lastMismatchRatio x.toNat d
    | none => drew (wr OD.lastMismatchRatio free d)
  let d := wr OD.lastMismatchCluster cluster (inc OD.sliceMismatches d)
  let d := modGrid grid (fun g => { g with mismatch := true }) d
  match layer with
  | none => raise (cdPort (cluster / 64)) 0x2620 cluster 0 [] d
  | some l =>
    let d := bumpEntry l 5 true d
    if d.seq.mismatched.contains l then d
    else raise (cdPort (cluster / 64)) 0x2620 cluster 0 []
      { d with seq := { d.seq with mismatched := l :: d.seq.mismatched } }

/-- Whether a skate path is between descriptors: it runs none, or its own has been carried out and waits for its checks. -/
def skateBetween (d : Dev) (cluster : Nat) : Bool :=
  match (unitOf d (unitKey cluster true)).run with
  | some r => !r.checks.isEmpty
  | none => true

/-- TILE_CHECK: the skate path serves, between descriptors, the oldest check of a unit's running operation. -/
def tileCheck (cluster : Nat) (skate : Bool) (d : Dev) : Dev :=
  let k := unitKey cluster skate
  match (unitOf d k).run with
  | none => d
  | some r =>
    match r.checks with
    | [] => d
    | i :: rest =>
      if clusterFenced d cluster ∨ engineInReset d (0x2000 + cluster) ∨ !skateBetween d cluster then d
      else
        let w := r.op.words
        let n := sampleColumn d r.op i
        let mem := Mem.plain (byteAt d)
        let ms := (List.range (chunkM1 w i - chunkM0 w i)).map (· + chunkM0 w i)
        let pairs := ms.map (fun m => (writtenAt mem w m n, f32 (reference mem w m n)))
        let tau := ratBits (rd d OD.checkThresholdMult) * 2 / 2 ^ checkMant (mxC w)
        let layer := (gridOf d r.op.by_.grid).bind (fun g => g.layer)
        let d := setUnit k { unitOf d k with run := some { r with checks := rest } } d
        match sliceVerdict tau pairs with
        | none => inc OD.slicesUnchecked d
        | some (bad, ratio) =>
          let d := inc OD.slicesChecked d
          let d := match layer with
            | some l => bumpEntry l 5 false d
            | none => d
          if bad then noteMismatch cluster layer r.op.by_.grid ratio d else d

def execTileCheck (cluster : Nat) (skate : Bool) (s : State) : Out := onDev (tileCheck cluster skate) s

end Sys2Proof.Machine
end

