-- ==== Sys2Proof/Machine/Table.lean ====
section
/-!
DEFINITION. Stage tables: their fields (R448-R450), the fields of low-rank entries (R421), and what LOAD validates
(R197, R421, R433, R442, R452).
-/

namespace Sys2Proof.Machine

/-! ## The header (R448) -/

def stP (h : List W64) : Nat := fld (word h 0) 6 0
def stV (h : List W64) : Nat := fld (word h 0) 10 7
def stM (h : List W64) : Nat := fld (word h 0) 22 11
def stD (h : List W64) : Nat := fld (word h 0) 28 23
def stRegions (h : List W64) : Nat := fld (word h 0) 35 29
def stAgree (h : List W64) : Nat := fld (word h 0) 44 36
def stGate (h : List W64) : Nat := fld (word h 1) 11 0
def stPipe (h : List W64) : Nat := fld (word h 1) 23 12
def stCnt (h : List W64) : Nat := fld (word h 1) 39 24
def stCtx (h : List W64) : Nat := fld (word h 1) 45 40
def stSendCore (h : List W64) : Nat := fld (word h 1) 56 46
def stSendQueue (h : List W64) : Nat := fld (word h 1) 58 57
def stLoss (h : List W64) : Nat := fld (word h 2) 48 0
def stVstages (h : List W64) : Nat := fld (word h 3) 48 0
def stRegionBase (h : List W64) : Nat := fld (word h 4) 48 0
def stAgreeBase (h : List W64) : Nat := fld (word h 5) 48 0
def stPre (h : List W64) : Nat := fld (word h 6) 48 0
def stPost (h : List W64) : Nat := fld (word h 7) 48 0
def stInfo (h : List W64) : Nat := fld (word h 8) 48 0
def stHvote (h : List W64) : Nat := fld (word h 9) 48 0

/-- Virtual stage entry (R449). -/
def vsList (e : List W64) (bwd : Bool) : Nat := fld (word e (if bwd then 1 else 0)) 48 0
def vsSend (e : List W64) (bwd : Bool) : Nat := fld (word e (if bwd then 3 else 2)) 48 0
def vsStride (e : List W64) : Nat := fld (word e 4) 31 0
def vsSendStride (e : List W64) : Nat := fld (word e 4) 63 32

/-- List item (R450). -/
def liKind (w : List W64) : Nat := fld (word w 0) 3 0
def liAfter (w : List W64) : Bool := bit (word w 0) 4
def liQueue (w : List W64) : Nat := fld (word w 0) 6 5
def liCore (w : List W64) : Nat := fld (word w 0) 17 7
def liAddr (w : List W64) : Nat := fld (word w 1) 48 0
def liValue (w : List W64) : Nat := fld (word w 2) 31 0

def liReserved (w : List W64) : Bool :=
  fld (word w 0) 63 18 != 0 || fld (word w 1) 63 49 != 0 || fld (word w 2) 63 32 != 0 || word w 3 != 0

/-- Low-rank entry (R421). -/
def lrM (w : List W64) : Nat := fld (word w 0) 31 0
def lrK (w : List W64) : Nat := fld (word w 0) 63 32
def lrRank (w : List W64) : Nat := fld (word w 1) 6 0
def lrN (w : List W64) : Nat := fld (word w 1) 12 7 + 1
def lrPhase (w : List W64) : Nat := fld (word w 1) 18 13
/-- G, E, Q, P, QN, OUT, REC_P and REC_Q are words 2 to 9. -/
def lrAddr (w : List W64) (i : Nat) : Nat := fld (word w i) 48 0

/-- The items of a list from an address up to END, none where one cannot be read; at most 4,097 are read. -/
def listItems (d : Dev) (a : Nat) : Nat → Option (List (List W64))
  | 0 => some []
  | n + 1 =>
    let r := readMem d a 32
    if r.1 ≠ ST.ok then none
    else
      let w := wordsOf 4 r.2
      if liKind w = 0 then some [] else (listItems d (a + 32) n).map (fun l => w :: l)

/-! ## Validation (R452) -/

/-- A refusal: the status and the structure's address; refusals of ST_INVALID come first, then ST_STATE, then those of
access (log entry 21). -/
structure Refuse where
  cat : Nat
  st : Status
  addr : Nat
  deriving DecidableEq, Repr

def bad (b : Bool) (cat : Nat) (st : Status) (a : Nat) : List Refuse := if b then [⟨cat, st, a⟩] else []

/-- A range that must lie in usable HBM and be granted RD and WR. -/
def spanBad (d : Dev) (c a n : Nat) : List Refuse :=
  if n = 0 then []
  else if a + n ≤ hbmEnd then bad (!grantedFor d c Need.atomic a n) 2 ST.access a
  else [⟨2, if a < hbmEnd then ST.length else ST.access, a⟩]

/-- Whether words i to j of a structure are zero above bit 48. -/
def upperBad (w : List W64) (i j : Nat) : Bool := (List.range (j + 1 - i)).any (fun k => fld (word w (i + k)) 63 49 != 0)

def headerBad (h : List W64) : Bool :=
  fld (word h 0) 63 45 != 0 || fld (word h 1) 63 59 != 0 || upperBad h 2 9 ||
  (List.range 6).any (fun i => word h (10 + i) != 0) ||
  stP h == 0 || decide (64 < stP h) || stV h == 0 || decide (8 < stV h) || stM h == 0 || decide (2048 < stM h) ||
  decide (64 < stRegions h) || decide (256 < stAgree h) || decide (stP h ≤ stD h) ||
  (decide (1 < stV h) && stM h % stP h != 0) || decide (65536 < stCnt h + 2 * stV h * stM h)

/-- Misaligned fields of the header. -/
def headerAlign (h : List W64) : List Refuse :=
  bad (stVstages h % 64 != 0) 0 ST.invalid (stVstages h) ++ bad (stRegionBase h % 32 != 0) 0 ST.invalid (stRegionBase h) ++
  bad (stAgreeBase h % 8 != 0) 0 ST.invalid (stAgreeBase h) ++ bad (stInfo h % 64 != 0) 0 ST.invalid (stInfo h) ++
  bad (stHvote h % 64 != 0) 0 ST.invalid (stHvote h) ++ bad (stLoss h % 4 != 0) 0 ST.invalid (stLoss h)

/-- The groups, the context and the vote area. -/
def headerState (d : Dev) (t : Nat) (h : List W64) : List Refuse :=
  let g := mfind d.seq.groups (stGate h)
  let gens := (g.map (fun g => g.members.map (fun m => m.gen))).getD []
  let n := gens.length
  let pipe := match mfind d.seq.groups (stPipe h) with
    | some p => p.st == .admitted && p.members.length == stP h && p.rank == stD h
    | none => false
  let top := if gens.contains 1 then 2 ^ 40 else 2 ^ 44
  bad (!(g.map (fun g => g.st == .admitted)).getD false) 1 ST.state t ++
  bad (decide (1 < stP h) && !pipe) 1 ST.state t ++
  bad (ctxRefusal d (stCtx h) != ST.ok) 1 ST.state t ++
  bad ((gens.contains 1 || gens.contains 2) && (stHvote h == 0 || decide (top < stHvote h + 8 * n))) 1 ST.state t

/-- A finite FP32 encoding with a clear sign bit. -/
def finitePos (x : Nat) : Bool := decide (x ≤ 0x7F7FFFFF)
/-- A positive normal FP32 encoding. -/
def normalPos (x : Nat) : Bool := decide (0x00800000 ≤ x) && decide (x ≤ 0x7F7FFFFF)

/-- The refusals of a scale record (R197, R198). -/
def recordBad (d : Dev) (r : List W64) : Bool :=
  rcMode r == 3 || fld (word r 0) 7 5 != 0 || fld (word r 0) 63 22 != 0 || fld (word r 1) 63 40 != 0 ||
  decide (32 < rcHlen r) || rcFmt r == 0 || decide (10 < rcFmt r) ||
  ((rcFmt r == 1 || rcFmt r == 2) && rcClass r != 3) ||
  rcSexp r == 255 || decide (histLen d r < rcFilled r) || decide (histLen d r ≤ rcHead r) ||
  !finitePos (rcCur r) || !finitePos (rcPass r) || (List.range 32).any (fun i => !finitePos (rcHist r i)) ||
  (rcHm2 r && (!normalPos (rcS r).toNat || !normalPos (rcSInv r).toNat))

/-- The refusals of a layer numerics entry (R196, R197). -/
def layerBad (l : List W64) : Bool :=
  lnPolicy l == 3 || fld (word l 0) 63 32 != 0 || upperBad l 1 3 || fld (word l 6) 63 32 != 0 || word l 7 != 0 ||
  (lnLrScale l && decide (lnNrec l ≤ lnUpdRec l)) || lnRecBase l % 32 != 0 ||
  decide (lnEl l < -64) || decide (64 < lnEl l)

/-- The refusals of a low-rank entry and its records (R421). -/
def lowrankBad (d : Dev) (w : List W64) : Bool :=
  let rec_ := fun (i : Nat) =>
    let r := wordsAt d (lrAddr w i) 16
    arKind r != 1 || !arFactor r || arN r != 1 || arSrcBf16 r || arOutBf16 r
  lrM w == 0 || lrK w == 0 || lrRank w == 0 || decide (64 < lrRank w) || decide (lrN w ≤ lrPhase w) ||
  fld (word w 1) 63 19 != 0 || upperBad w 2 9 || rec_ 8 || rec_ 9

/-- Structures that a list names, with what each refuses. `inner` says that a layer entry names the list. -/
def itemRefusals (d : Dev) (c : Nat) (p2 inner : Bool) (a : Nat) (w : List W64) : List Refuse :=
  let k := liKind w
  bad (liReserved w || decide (5 < k) || (inner && (k == 4 || k == 5))) 0 ST.invalid a ++
  (if k = 4 then
    let la := liAddr w
    let l := wordsAt d la 8
    bad (la % 64 != 0) 0 ST.invalid la ++ spanBad d c la 64 ++ bad (layerBad l) 0 ST.invalid la ++
    bad (lnPolicy l == 1 && !p2) 1 ST.state la ++
    (layerRecords l).flatMap (fun r => spanBad d c r 160 ++ bad (recordBad d (wordsAt d r 20)) 0 ST.invalid r)
   else if k = 5 then
    bad (liAddr w % 16 != 0) 0 ST.invalid (liAddr w) ++ spanBad d c (liAddr w) 80 ++
    bad (lowrankBad d (wordsAt d (liAddr w) 10)) 0 ST.invalid (liAddr w)
   else [])

/-- One list: its alignment, its length, its items with the END item's reserved fields; and how many items it has. -/
def listRefusals (d : Dev) (c : Nat) (p2 inner : Bool) (a : Nat) : List Refuse × Nat :=
  if a % 32 ≠ 0 then ([⟨0, ST.invalid, a⟩], 0)
  else match listItems d a 4097 with
    | none => ([⟨2, ST.access, a⟩], 0)
    | some its =>
      (bad (decide (4096 < its.length) || liReserved (wordsAt d (a + 32 * its.length) 4)) 0 ST.invalid a ++ spanBad d c a (32 * (its.length + 1)) ++
        (List.range its.length).flatMap (fun i => itemRefusals d c p2 inner (a + 32 * i) (its.getD i [])), its.length)

/-- Lists that the layer entries of a list name. -/
def innerLists (d : Dev) (a : Nat) : List Nat :=
  ((listItems d a 4097).getD []).flatMap (fun w =>
    if liKind w = 4 then
      let l := wordsAt d (liAddr w) 8
      lnPrimary l :: (if lnRepeat l = 0 then [] else [lnRepeat l])
    else [])

/-- Lists that the header and the virtual stage entries name. -/
def outerLists (h : List W64) (vs : List (List W64)) : List Nat :=
  ((if stPre h = 0 then [] else [stPre h]) ++ (if stPost h = 0 then [] else [stPost h]) ++
   vs.flatMap (fun e => [vsList e false, vsList e true])).eraseDups

def vstageBad (e : List W64) : Bool := upperBad e 0 3 || word e 5 != 0 || word e 6 != 0 || word e 7 != 0

/-- A region entry (R433). -/
def regionOfWords (w : List W64) : Shadow :=
  { base := fld (word w 0) 48 0, length := fld (word w 1) 48 0, half1 := fld (word w 2) 48 0, map := fld (word w 3) 48 0,
    zero := bit (word w 0) 49 }

def regionEntryBad (w : List W64) : Bool :=
  let r := regionOfWords w
  fld (word w 0) 63 50 != 0 || upperBad w 1 3 || r.base % 4096 != 0 || r.length == 0 || r.length % 4096 != 0 ||
  r.half1 % 4096 != 0 || r.map % 64 != 0

/-- The three ranges of a region. -/
def regionRanges (r : Shadow) : List (Nat × Nat) := [(r.base, r.length), (r.half1, r.length), (r.map, r.length / 256)]

/-- Whether two ranges of a list overlap. -/
def rangesClash : List (Nat × Nat) → Bool
  | [] => false
  | p :: ps => ps.any (fun q => overlaps p.1 p.2 q.1 q.2) || rangesClash ps

def vstagesOf (d : Dev) (h : List W64) : List (List W64) :=
  (List.range (stV h)).map (fun i => wordsAt d (stVstages h + 64 * i) 8)
def regionsOf (d : Dev) (h : List W64) : List (List W64) :=
  (List.range (stRegions h)).map (fun i => wordsAt d (stRegionBase h + 32 * i) 4)

/-- Every refusal of a stage table. -/
def tableRefusals (d : Dev) (t : Nat) : List Refuse :=
  let h := wordsAt d t 16
  let c := stCtx h
  let vs := vstagesOf d h
  let rs := regionsOf d h
  let gens := ((mfind d.seq.groups (stGate h)).map (fun g => g.members.map (fun m => m.gen))).getD []
  let outer := outerLists h vs
  let inner := (outer.flatMap (innerLists d)).eraseDups
  let lists := outer.map (listRefusals d c (gens.contains 2) false) ++ inner.map (listRefusals d c (gens.contains 2) true)
  bad (t % 64 != 0) 0 ST.invalid t ++ spanBad d c t 128 ++ bad (headerBad h) 0 ST.invalid t ++ headerAlign h ++
  headerState d t h ++
  spanBad d c (stVstages h) (64 * stV h) ++ spanBad d c (stRegionBase h) (32 * stRegions h) ++
  spanBad d c (stAgreeBase h) (8 * stAgree h) ++ spanBad d c (stInfo h) 2112 ++
  (if stLoss h = 0 then [] else spanBad d c (stLoss h) (4 * stM h)) ++
  (if gens.contains 1 || gens.contains 2 then spanBad d c (stHvote h) (8 * gens.length) else []) ++
  (List.range vs.length).flatMap (fun i => bad (vstageBad (vs.getD i [])) 0 ST.invalid (stVstages h + 64 * i)) ++
  (List.range rs.length).flatMap (fun i =>
    bad (regionEntryBad (rs.getD i [])) 0 ST.invalid (stRegionBase h + 32 * i) ++
    (regionRanges (regionOfWords (rs.getD i []))).flatMap (fun p => spanBad d c p.1 p.2)) ++
  bad (rangesClash (rs.flatMap (fun w => regionRanges (regionOfWords w)))) 0 ST.invalid t ++
  lists.flatMap (fun l => l.1) ++ bad (decide (65536 < (lists.map (fun l => l.2)).sum)) 0 ST.invalid t

/-- The refusal that decides the status, if any. -/
def tableRefusal (d : Dev) (t : Nat) : Option Refuse :=
  let rs := if (readMem d t 128).1 ≠ ST.ok ∧ t % 64 = 0 ∧ t + 128 ≤ hbmEnd
    then [⟨2, (readMem d t 128).1, t⟩] else tableRefusals d t
  match rs.find? (fun r => r.cat == 0) with
  | some r => some r
  | none => match rs.find? (fun r => r.cat == 1) with
    | some r => some r
    | none => rs.head?

end Sys2Proof.Machine
end

