-- ==== Sys2Proof/Machine/Copies.lean ====
section
/-!
DEFINITION. What the step sequencer and the checkpoint service share: the gate tree (R441), the end of a step's shadow
(R435), committed reads (R479), the image of a device (R473, R474, R485), and the making, sealing and failing of copies
(R478-R487).
-/

namespace Sys2Proof.Machine

/-! ## Services and their events (R429) -/

/-- The port of the die whose sequencer processor runs a service. -/
def svcPort (d : Dev) (s : Nat) : Nat := cdPort (d.seq.services.getD s 0)

/-- An event of a service. -/
def svcEvent (s id detail0 : Nat) (d : Dev) : Dev := raise (svcPort d s) id 0 detail0 [] d

/-! ## The gate tree (R395, R441) -/

/-- The P3 members of the gate group by ascending rank, each rank and device, and this device's position. -/
structure GateTree where
  members : List (Nat × Nat)
  pos : Nat
  deriving DecidableEq, Repr

/-- The gate group of the loaded table. -/
def gateGroup (d : Dev) : Option GroupRec := if d.seq.st = .idle then none else mfind d.seq.groups (stGate d.seq.header)

/-- Members of a group of a generation test: rank and device. -/
def membersWhere (f : Nat → Bool) (g : GroupRec) : List (Nat × Nat) :=
  (List.range g.members.length).filterMap (fun r =>
    match g.members[r]? with
    | some m => if f m.gen then some (r, m.dev) else none
    | none => none)

def treeOf (g : GroupRec) : GateTree :=
  let ms := membersWhere (fun k => k == 3) g
  { members := ms, pos := (ms.findIdx? (fun m => m.1 == g.rank)).getD 0 }

def gateTree (d : Dev) : Option GateTree := (gateGroup d).map treeOf

def GateTree.kids (t : GateTree) : List (Nat × Nat) := [2 * t.pos + 1, 2 * t.pos + 2].filterMap (fun i => t.members[i]?)
def GateTree.parent (t : GateTree) : Option (Nat × Nat) := if t.pos = 0 then none else t.members[(t.pos - 1) / 2]?

/-! ## The shadow of a step (R435) -/

/-- The step's shadow discarded: W becomes 0 for every line. -/
def discardLines (d : Dev) : Dev := { d with seq := { d.seq with written := [] } }

/-- The step's shadow committed: C becomes 1 - C for every line written. -/
def commitLines (d : Dev) : Dev :=
  let h := d.seq.half
  let w := d.seq.written
  { d with seq := { d.seq with half := h.filter (fun l => !w.contains l) ++ w.filter (fun l => !h.contains l), written := [] } }

/-- The pipeline counters of the table (R456). -/
def zeroPipeline (d : Dev) : Dev := zeroCounters (stCnt d.seq.header) (2 * stV d.seq.header * stM d.seq.header) d

/-- A STOP that waited for the gate has taken effect. -/
def settleStop (d : Dev) : Dev :=
  if d.seq.stopPending then setCommandStatus OD.stepCommand ST.ok { d with seq := { d.seq with stopPending := false } } else d

/-- The fields of a gate cleared. -/
def clearGate (d : Dev) : Dev :=
  { d with seq := { d.seq with items := [], vote := none, verdict := none, votes := [], heritage := [], cause := 0,
                               phase := .over, sentUp := false, runs := [], runRanges := [] } }

/-- The step ends without another attempt: its shadow is discarded and the sequencer HALTED. -/
def enterHalted (d : Dev) : Dev :=
  let d := settleStop (clearGate (discardLines d))
  { d with seq := { d.seq with st := .halted, opening := false } }

/-! ## Committed reads (R479) -/

/-- Storage of a location's committed value. -/
def committedPlace (d : Dev) (a : Nat) : Nat :=
  match shadowOf d a with
  | some r => halfAddr r (d.seq.half.contains (a / 64)) a
  | none => a

def committedBytes (d : Dev) (a n : Nat) : Bytes := (List.range n).map (fun i => cellAt d.mem (storeAt d.mem (committedPlace d (a + i))))

def committedPoison (d : Dev) (a n : Nat) : Bool := (pieces a n).any (fun p => poisoned d.mem (storeAt d.mem (committedPlace d p.1) / 64))

/-- A line written into the committed half; poison ends. -/
def putCommitted (l : Nat) (bs : Bytes) (d : Dev) : Dev :=
  { d with mem := lineWrite (committedPlace d (64 * l) / 64) { data := bs, poison := false } d.mem }

/-! ## The image (R469-R474, R485) -/

/-- Classes of R470. -/
abbrev clsParam : Nat := 0
abbrev clsState : Nat := 1
abbrev clsMeta : Nat := 2
abbrev clsConst : Nat := 3

/-- The service block (R474). -/
def serviceBlock (d : Dev) : Bytes :=
  leBytes 8 (rd d OD.stepNumber) ++ leBytes 8 (rd d OD.jobDataPosition) ++ leBytes 8 (rd d OD.globalBatch) ++
  leBytes 8 d.seq.table ++ rdFull d OD.streamState ++ rdFull d OD.jobSeed ++ rdFull d OD.shardCursors ++
  List.replicate 1984 0

def Region.none : Region := { rd := false, wr := false, ex := false, base := 0, last := 0, valid := false }

def flag (b : Bool) (i : Nat) : Nat := if b then 2 ^ i else 0

def regionBytes (r : Region) : Bytes :=
  leBytes 8 (flag r.valid 0 + flag r.rd 1 + flag r.wr 2 + flag r.ex 3 + r.base * 2 ^ 16) ++ leBytes 8 (r.last * 2 ^ 16)

def entryBytes (e : FttEntry) : Bytes :=
  leBytes 8 (1 + e.size * 2 + e.ctx * 2 ^ 3 + flag e.rd 9 + flag e.wr 10 + flag e.at_ 11 + flag e.cnt 12 + e.key * 2 ^ 16) ++
  leBytes 8 e.tgt

/-- The routing section: LIVE contexts with their regions, then their FTT entries. -/
def routingSection (d : Dev) : Bytes :=
  let live := d.tw.ctxs.filter (fun c => decide (c.2.st = .live))
  let es := d.tw.ftt0.filter (fun e => live.any (fun c => c.1 == e.ctx))
  leBytes 8 live.length ++
  live.flatMap (fun c => leBytes 8 c.1 ++ (List.range 64).flatMap (fun i => regionBytes (mget Region.none c.2.regions i))) ++
  leBytes 8 es.length ++ es.flatMap entryBytes

/-- A member list in memory's form (R464). -/
def memberBytes (ms : List Member) : Bytes := ms.flatMap (fun m => leBytes 4 (m.dev + m.gen * 2 ^ 16))

/-- Bytes filled with zeros to a multiple. -/
def padTo (k : Nat) (bs : Bytes) : Bytes := bs ++ List.replicate ((k - bs.length % k) % k) 0

/-- The membership section. -/
def membershipSection (d : Dev) : Bytes :=
  let gs := d.seq.groups.filter (fun g => decide (g.2.st = .admitted))
  leBytes 8 gs.length ++ gs.flatMap (fun g =>
    leBytes 8 (g.1 + g.2.members.length * 2 ^ 12 + g.2.rank * 2 ^ 28) ++ padTo 8 (memberBytes g.2.members))

def tandemBytes (e : TandemEntry) : Bytes :=
  leBytes 8 (e.addr + e.cls * 2 ^ 49 + flag e.ride 51) ++ leBytes 8 e.length ++ leBytes 8 e.desc ++ leBytes 8 0

/-- What comes before the entries' data. -/
def bodyHead (d : Dev) (service : Bytes) : Bytes :=
  service ++ routingSection d ++ membershipSection d ++ d.ckpt.table.flatMap tandemBytes

/-- Data of an entry as a copy of a snapshot's step holds it. -/
def entryData (d : Dev) (sn : Snapshot) (e : TandemEntry) : Bytes :=
  if e.cls < 2 then committedBytes d e.addr e.length
  else if e.cls = 2 then ((sn.meta_.find? (fun m => m.1 == e.addr)).map (fun m => m.2)).getD []
  else bytesAt d e.addr e.length

def bodyOf (d : Dev) (sn : Snapshot) : Bytes := bodyHead d sn.service ++ d.ckpt.table.flatMap (entryData d sn)

def chunkBytes : Nat := 2 ^ 20
def chunkTotal (n : Nat) : Nat := (n + chunkBytes - 1) / chunkBytes
def chunkAt (body : Bytes) (i : Nat) : Bytes := (body.drop (chunkBytes * i)).take chunkBytes
def chunkDigests (body : Bytes) : List Bytes := (List.range (chunkTotal body.length)).map (fun i => Config.sha3_512 (chunkAt body i))
def digestTable (ds : List Bytes) : Bytes := padTo 4096 (ds.flatMap (fun x => (x ++ List.replicate 64 0).take 64))

/-- A header (R473) with a root. -/
def headOf (dev step body : Nat) (root : Bytes) : Bytes :=
  leBytes 8 (0x54444D43 + 3 * 2 ^ 32) ++ leBytes 8 dev ++ leBytes 8 step ++ leBytes 8 (chunkTotal body) ++ leBytes 8 body ++
  List.replicate 24 0 ++ (root ++ List.replicate 64 0).take 64 ++ List.replicate 384 0

/-- A header with ROOT as zero. -/
def rootless (h : Bytes) : Bytes := h.take 64 ++ List.replicate 64 0 ++ h.drop 128

/-- The root of a header and a digest table (R485). -/
def rootOf (h : Bytes) (ds : List Bytes) : Bytes := Config.sha3_512 (rootless h ++ digestTable ds)

def headWord (h : Bytes) (i : Nat) : Nat := leNat ((h.drop (8 * i)).take 8)
def headRoot (h : Bytes) : Bytes := (h.drop 64).take 64
def headStep (h : Bytes) : Nat := headWord h 2 % 2 ^ 48
def headGen (h : Bytes) : Nat := nfld (headWord h 0) 33 32
def headDev (h : Bytes) : Nat := headWord h 1 % 2 ^ 15

def imageOf (d : Dev) (sn : Snapshot) : CopyImage :=
  let body := bodyOf d sn
  let ds := chunkDigests body
  let h := headOf (devNo d) sn.step body.length []
  { head := headOf (devNo d) sn.step body.length (rootOf h ds), digests := ds, body }

/-- Bytes of this device's image (OD 0x3620.07): none before CONFIGURE. -/
def imageBytes (d : Dev) : Nat :=
  if rd d OD.checkpointState = 0 then 0
  else
    let b := (bodyHead d (serviceBlock d)).length + (d.ckpt.table.map (fun e => e.length)).sum
    512 + (64 * chunkTotal b + 4095) / 4096 * 4096 + b

/-! ## A copy's messages and its failure (R480, R483, R486, R487) -/

/-- Offset and length of each entry's data in the body. -/
def entrySpans : Nat → List TandemEntry → List (TandemEntry × Nat)
  | _, [] => []
  | o, e :: es => (e, o) :: entrySpans (o + e.length) es

/-- Whether a chunk holds bytes that the source sends of itself: everything but PARAM that rides, and CONST that is not
due. -/
def sentOfItself (all const : Bool) (start : Nat) (table : List TandemEntry) (i : Nat) : Bool :=
  all || decide (chunkBytes * i < start) ||
  (entrySpans start table).any (fun e => overlaps (chunkBytes * i) chunkBytes e.2 e.1.length &&
    !(e.1.ride || (e.1.cls == clsConst && !const)))

def modCopy (f : OwnCopy → OwnCopy) (d : Dev) : Dev := { d with ckpt := { d.ckpt with copy := d.ckpt.copy.map f } }

/-- Seal waiting ends: the time it held the step up is counted (R484). -/
def endWait (d : Dev) : Dev :=
  let t := match d.ckpt.waitSince with
    | some t => d.tick - t
    | none => 0
  let d := if t = 0 then d else addTo OD.sealWaitTime t d
  { d with ckpt := { d.ckpt with holds := false, waitSince := none } }

/-- Poison that a copy would read at its source. -/
def sourcePoison (d : Dev) : Bool :=
  d.ckpt.table.any (fun e => if e.cls < 2 then committedPoison d e.addr e.length else poisonedIn d e.addr e.length)

/-- The copy of the latest snapshot's step is begun: header, digests and the chunks the source sends go to the partner; the
waits of R482 and R483 begin. -/
def sendCopy (stopMode failedOnce : Bool) (d : Dev) : Dev :=
  match d.ckpt.snaps.head? with
  | none => d
  | some sn =>
    let im := imageOf d sn
    let partner := rd d OD.partnerDevice
    let due := d.ckpt.constDue
    let start := (bodyHead d sn.service).length
    let d := sendAs 4 (.copyHead partner im.head (digestTable im.digests)) d
    let d := (List.range im.digests.length).foldl (fun d i =>
      if sentOfItself stopMode due start d.ckpt.table i then sendAs 4 (.copyChunk partner i (chunkAt im.body i)) d else d) d
    let bad := sourcePoison d
    let c : OwnCopy :=
      { step := sn.step, stopMode, sealed := false, failed := bad, failedOnce, reported := false, table := d.ckpt.table,
        start, digests := im.digests }
    let d := if bad then inc OD.copiesFailed d else d
    { d with ckpt := { d.ckpt with copy := some c, constDue := false, holds := true } }

/-- FAIL reaches this member (R487): the step is abandoned and the copy made again in STOP mode; a second failure halts
the sequencer. -/
def redoCopy (c : OwnCopy) (d : Dev) : Dev :=
  let d := svcEvent 4 0x3620 0 d
  if c.failedOnce then svcEvent 0 0x3602 0 (enterHalted (endWait (modCopy (fun c => { c with failed := true }) d)))
  else
    let d := if d.seq.st = .gate then
        let v := d.seq.verdict.getD { step := rd d OD.stepNumber, attempt := d.seq.attempt, verdict := 4, sexp := [] }
        { d with seq := { d.seq with verdict := some { v with verdict := Nat.max 4 v.verdict } } }
      else if d.seq.st = .open then { d with seq := { d.seq with cause := Nat.max d.seq.cause 4 } }
      else d
    sendCopy true true { d with ckpt := { d.ckpt with reports := [] } }

/-- The job seal notice of a step, or FAIL, at this member: it goes on to the children, and takes effect. -/
def takeNotice (step : Nat) (failed : Bool) (d : Dev) : Dev :=
  match d.ckpt.copy with
  | none => d
  | some c =>
    if c.step ≠ step then d
    else
      let kids := ((gateTree d).map GateTree.kids).getD []
      let d := kids.foldl (fun d k => sendAs 4 (.notice k.2 step failed) d) d
      if failed then redoCopy c d
      else endWait (wr OD.jobSealedStep step d)

/-- The seal report goes up once the own copy is sealed or has failed and every child has reported; the root answers it
with the notice. -/
def reportUp (d : Dev) : Dev :=
  match d.ckpt.copy, gateTree d with
  | some c, some t =>
    let rep := fun (k : Nat × Nat) => (mfind d.ckpt.reports k.1).filter (fun r => r.1 == c.step)
    if (c.sealed || c.failed) && !c.reported && t.kids.all (fun k => (rep k).isSome) then
      let failed := c.failed || t.kids.any (fun k => ((rep k).map (fun r => r.2)).getD false)
      let d := modCopy (fun c => { c with reported := true }) d
      match t.parent with
      | some p => sendAs 4 (.seal_ p.2 c.step failed) d
      | none => takeNotice c.step failed d
    else d
  | _, _ => d

/-- This member's copy fails. -/
def failCopy (d : Dev) : Dev :=
  match d.ckpt.copy with
  | none => d
  | some c =>
    if c.failed || (c.sealed && c.reported) then d
    else reportUp (modCopy (fun c => { c with failed := true }) (inc OD.copiesFailed d))

/-! ## What a commit tells the checkpoint service (R478) -/

def inEntry (e : TandemEntry) (l : Nat) : Bool := decide (e.addr ≤ 64 * l) && decide (64 * l < e.addr + e.length)

/-- META and the service block as they stand after a verdict. -/
def snapshotOf (step : Nat) (d : Dev) : Snapshot :=
  { step, service := serviceBlock d,
    meta_ := (d.ckpt.table.filter (fun e => e.cls == clsMeta)).map (fun e => (e.addr, bytesAt d e.addr e.length)) }

/-- Step 4 of R443, with the lines that the commit flipped. -/
def notifyCommit (step : Nat) (flipped : List Nat) (d : Dev) : Dev :=
  if rd d OD.checkpointState = 0 then d
  else
    let mine := flipped.filter (fun l => d.ckpt.table.any (fun e => decide (e.cls < 2) && inEntry e l))
    let inc_ := d.ckpt.incoming.map (fun i => { i with segments := [] })
    let d := { d with ckpt := { d.ckpt with
      flipLog := mine, snaps := (snapshotOf step d :: d.ckpt.snaps).take 2, incoming := inc_, copy := none } }
    if rd d OD.tandemMode = 2 ∨ rd d OD.partnerDevice = 0xFFFF then d
    else reportUp (sendCopy (rd d OD.tandemMode == 1) false d)

/-- A copy that is not sealed when the next step's gate casts its vote has failed. -/
def lateCopy (d : Dev) : Dev :=
  match d.ckpt.copy with
  | some c => if d.ckpt.holds && !c.stopMode && !c.sealed && !c.failed then failCopy d else d
  | none => d

/-- A RESTORE ends with a status (R490). -/
def restoreEnd (st : Status) (d : Dev) : Dev :=
  let d := wr OD.restoreStatus st.toNat { d with ckpt := { d.ckpt with restore := none } }
  if commandPending d OD.checkpointCommand then setCommandStatus OD.checkpointCommand st d else d

/-- Whether the wait of R483 keeps a step from opening. -/
def stopModeHolds (d : Dev) : Bool := d.ckpt.holds && (d.ckpt.copy.map (fun c => c.stopMode)).getD false

end Sys2Proof.Machine
end

