-- ==== Sys2Proof/Machine/Steps.lean ====
section
/-!
DEFINITION. The step sequencer up to the gate: its commands (R431, R438, R452), the opening of a step (R453, R608), list
items (R450, R451), layers (R205-R211), low-rank procedures (R422), pipeline units (R454-R456).
-/

namespace Sys2Proof.Machine

/-! ## Commands (R431) -/

def seqCode : SeqSt → Nat
  | .idle => 0 | .loaded => 1 | .open => 2 | .gate => 3 | .committing => 4 | .halted => 5

def seqUnit (d : Dev) : Nat := seqCode d.seq.st

/-- A range of memory written zero. -/
def zeroMem (a n : Nat) (m : MemState) : MemState :=
  { m with cells := mfilter (fun p _ => decide (p < a) || decide (a + n ≤ p)) m.cells,
           poison := m.poison.filter (fun l => decide (64 * l < a) || decide (a + n ≤ 64 * l)) }

/-- A stage table that passes: its regions are mapped with C and W zero, the sequencer is LOADED. -/
def mapTable (t : Nat) (d : Dev) : Dev :=
  let h := wordsAt d t 16
  let rs := (regionsOf d h).map regionOfWords
  let m := rs.foldl (fun m r => zeroMem r.map (r.length / 256) m) d.mem
  { d with mem := m, seq := { d.seq with
      st := .loaded, table := t, header := h, regions := rs, half := [], written := [], committed := false, attempt := 0,
      opening := false, items := [], phase := .over, layers := [], clamped := [], mismatched := [] } }

def loadOp (t : Nat) : WriteOp := fun d =>
  if d.seq.st ≠ .idle then (ST.state, d)
  else match tableRefusal d t with
    | some r =>
      (r.st, svcEvent 0 0x3604 0 (wr OD.loadStatus r.st.toNat (wr OD.loadFailAddress r.addr d)))
    | none =>
      let d := mapTable t d
      (ST.ok, setCommandStatus OD.stepCommand ST.ok
        (wr OD.loadStatus 0 (wr OD.shadowBytes ((d.seq.regions.map (fun r => r.length)).sum % 2 ^ 64) d)))

/-- LOAD (R452). -/
def execLoad (p : Path) (table : Nat) (reserved : Bool) (s : State) : Out :=
  execCommand OD.stepCommand 16 .rws p [1, table] (reserved || decide (2 ^ 49 ≤ table)) seqUnit (loadOp table) s

def startOp (n : Nat) : WriteOp := fun d =>
  if d.seq.st = .loaded ∨ d.seq.st = .halted then
    (ST.ok, setCommandStatus OD.stepCommand ST.pending (wr OD.stepsRemaining (if n = 0 then 2 ^ 64 - 1 else n)
      { d with seq := { d.seq with opening := true, attempt := 0, endless := n == 0 } }))
  else (ST.state, d)

/-- START (R431). -/
def execStart (p : Path) (count : Nat) (reserved : Bool) (s : State) : Out :=
  execCommand OD.stepCommand 16 .rws p [2, count] (reserved || decide (2 ^ 64 ≤ count)) seqUnit (startOp count) s

def stopOp : WriteOp := fun d =>
  match d.seq.st with
  | .open | .gate =>
    (ST.ok, setCommandStatus OD.stepCommand ST.pending { d with seq := { d.seq with stopPending := true } })
  | .committing =>
    (ST.ok, setCommandStatus OD.stepCommand ST.ok { d with seq := { d.seq with st := .loaded, opening := false } })
  | _ => (ST.state, d)

/-- STOP (R431). -/
def execStop (p : Path) (reserved : Bool) (s : State) : Out :=
  execCommand OD.stepCommand 16 .rws p [3] reserved seqUnit stopOp s

/-- The committed value of a line with C = 1 moved to BASE, poison with it. -/
def settleLine (l : Nat) (d : Dev) : Dev :=
  match shadowOf d (64 * l) with
  | none => d
  | some r =>
    let src := halfAddr r true (64 * l) / 64
    { d with mem := lineWrite l (copyOf d.mem src) (use src false d.mem) }

/-- Bytes of a map as UNLOAD leaves them: the manual does not say (log entry 2). -/
def freeMap (r : Shadow) (d : Dev) : Dev :=
  (List.range (r.length / 2048)).foldl (fun d i =>
    let m := use ((r.map + 8 * i) / 64) true d.mem
    drew { d with mem := cellsPut (storeAt m (r.map + 8 * i)) (leBytes 8 (freeBits d).toNat) m }) d

/-- UNLOAD's effect (R438). -/
def unloadTable (d : Dev) : Dev :=
  let d := d.seq.half.foldl (fun d l => settleLine l d) d
  let d := d.seq.regions.foldl (fun d r => freeMap r d) d
  let q : StepState := { d.seq with
    st := .idle, table := 0, header := [], regions := [], half := [], written := [], items := [], opening := false,
    phase := .over, layers := [] }
  wr OD.shadowBytes 0 { d with seq := q }

def unloadOp : WriteOp := fun d =>
  if d.seq.st = .loaded ∨ d.seq.st = .halted then (ST.ok, setCommandStatus OD.stepCommand ST.ok (unloadTable d)) else (ST.state, d)

/-- UNLOAD (R438). -/
def execUnload (p : Path) (reserved : Bool) (s : State) : Out :=
  execCommand OD.stepCommand 16 .rws p [4] reserved seqUnit unloadOp s

/-! ## Lists (R450) -/

/-- MB_STRIDE of the unit that runs, and its micro-batch (R449). -/
structure Unit_ where
  bwd : Bool
  vstage : Nat
  mb : Nat
  deriving DecidableEq, Repr

/-- Unit k of stage d (R455). -/
def unitAt (h : List W64) (i : Nat) : Unit_ :=
  let p := stP h
  let v := stV h
  let m := stM h
  let u := v * m
  let warm := if v = 1 then Nat.min m (p - stD h - 1) else Nat.min u (2 * (p - stD h - 1) + (v - 1) * p)
  let fwd := fun (k : Nat) => ({ bwd := false, vstage := k % (p * v) / p, mb := k / (p * v) * p + k % p } : Unit_)
  let bwd := fun (k : Nat) => ({ bwd := true, vstage := v - 1 - k % (p * v) / p, mb := k / (p * v) * p + k % p } : Unit_)
  if i < warm then fwd i
  else if i < 2 * u - warm then (if (i - warm) % 2 = 0 then fwd (warm + (i - warm) / 2) else bwd ((i - warm) / 2))
  else bwd (i - u)

def unitCount (h : List W64) : Nat := 2 * stV h * stM h

/-- Virtual stage entry of a unit. -/
def vstageAt (d : Dev) (x : Unit_) : List W64 := wordsAt d (stVstages d.seq.header + 64 * x.vstage) 8

/-- A cause of abandonment met (R440). -/
def abandonFor (code : Nat) (d : Dev) : Dev := { d with seq := { d.seq with cause := Nat.max d.seq.cause code } }

def newItem (o : ListOf) (mb stride i : Nat) (w : List W64) : ItemRun :=
  let strided := liKind w == 1 || liKind w == 2
  { owner := o, index := i, kind := liKind w, after := liAfter w || decide (4 ≤ liKind w), core := liCore w,
    queue := liQueue w, addr := if strided then (liAddr w + stride * mb) % 2 ^ 49 else liAddr w, value := liValue w, mb,
    st := .waiting, grid := none, op := none }

/-- A list begins: its items wait. A list that cannot be read is a cause of abandonment. -/
def loadList (o : ListOf) (a mb stride : Nat) (d : Dev) : Dev :=
  match listItems d a 4097 with
  | none => abandonFor 4 d
  | some ws =>
    (List.range ws.length).foldl (fun d i =>
      { d with seq := { d.seq with
          items := mset d.seq.items d.seq.nextItem (newItem o mb stride i (ws.getD i [])), nextItem := d.seq.nextItem + 1 } }) d

/-- The items of a list. -/
def itemsOf (d : Dev) (o : ListOf) : Map ItemRun := mfilter (fun _ i => decide (i.owner = o)) d.seq.items
def listDone (d : Dev) (o : ListOf) : Bool := (itemsOf d o).all (fun i => decide (i.2.st = .done))

/-- Whether an item may begin: the items before it have begun, and have completed where AFTER is set or one of them is a
LAYER or LOWRANK item (R451); a member that met a cause of abandonment begins none (R439). -/
def mayBegin (d : Dev) (it : ItemRun) : Bool :=
  let before := (itemsOf d it.owner).filter (fun i => decide (i.2.index < it.index))
  d.seq.st == .open && decide (d.seq.cause < 2) && decide (it.st = .waiting) &&
  before.all (fun i => if it.after || decide (4 ≤ i.2.kind) then decide (i.2.st = .done) else decide (i.2.st ≠ .waiting))

def modItem (k : Nat) (f : ItemRun → ItemRun) (d : Dev) : Dev :=
  { d with seq := { d.seq with items := mmap (fun j i => if j = k then f i else i) d.seq.items } }

def itemSt (k : Nat) (st : ItemSt) (d : Dev) : Dev := modItem k (fun i => { i with st }) d

/-- An item that was rejected or failed. -/
def itemFailed (k : Nat) (d : Dev) : Dev := abandonFor 4 (itemSt k .done d)

/-- An item of a kind begins, where it may. -/
def beginItem (k kind : Nat) (go : ItemRun → Dev → Dev) (d : Dev) : Dev :=
  match mfind d.seq.items k with
  | some it => if it.kind = kind ∧ mayBegin d it then go it d else d
  | none => d

/-! ## The opening of a step (R453, R608) -/

/-- The step information block. -/
def stepInfo (d : Dev) : Bytes :=
  leBytes 8 (rd d OD.stepNumber + d.seq.attempt * 2 ^ 48) ++ leBytes 8 (rd d OD.jobDataPosition) ++ List.replicate 48 0 ++
  rdFull d OD.shardCursors

/-- The current that a step waits for. -/
def openCurrent (d : Dev) : ℚ :=
  ratBits (rd d (if d.seq.committed then OD.lastStepPeakCurrent else OD.firstStepCurrent)) - ratBits (rd d OD.stepOpenHeadroom)

/-- Whether nothing but the input current keeps a step from opening: the services of a step work, no reset of the compute
domain or of the device is in progress, and no notice is awaited in STOP mode (R483, R517, R612). -/
def openable (d : Dev) : Bool :=
  d.seq.opening && (useAll d [serviceFn 0, serviceFn 2, serviceFn 3] == ST.ok) &&
  !d.faults.resets.any (fun r => decide (3 ≤ r.tier)) && d.pow.down == .none

/-- A wait for current: counted once, its event at most once per second. -/
def openWaits (d : Dev) : Dev :=
  let d := if d.pow.waiting then d else inc OD.stepOpenWaits { d with pow := { d.pow with waiting := true } }
  raiseRated 0x2132 1000000 hivanPort 0x2132 0 0 [] d

/-- The fields of an attempt as it opens. -/
def freshStep (d : Dev) : Dev :=
  { d with
    pow := { d.pow with waiting := false }
    seq := { d.seq with
      st := .open, opening := false, phase := .pre, unit := 0, unitBegun := false, items := [], vote := none,
      verdict := none, sentUp := false, cause := 0, skipLayers := [], overflowed := [], exhausted := [], repeated := [],
      layers := [], runs := [], runRanges := [], peakThis := 0 } }

/-- A step opens: the information block is written, PRE_LIST begins. -/
def openStep (d : Dev) : Dev :=
  let d := if commandPending d OD.stepCommand then setCommandStatus OD.stepCommand ST.ok d else d
  let d := freshStep d
  let r := writeMem (stInfo d.seq.header) (stepInfo d) d
  let d := if r.1 = ST.ok then r.2 else abandonFor 4 r.2
  if stPre d.seq.header = 0 then d else loadList .pre (stPre d.seq.header) 0xFFFF 0 d

/-- STEP_OPEN. -/
def stepOpen (d : Dev) : Dev :=
  if !openable d then d
  else if stopModeHolds d then noteWait d
  else if ratBits d.pow.windowCurrent.toNat < openCurrent d then openWaits d
  else openStep d

def execStepOpen (s : State) : Out := onDev stepOpen s

/-! ## LAUNCH, POST, WAIT (R432, R451) -/

/-- Layer numerics entry of the LAYER item that runs a list. -/
def layerOfOwner (d : Dev) : ListOf → Option Nat
  | .layer n _ => (mfind d.seq.items n).map (fun i => i.addr)
  | _ => none

def launchItem (k : Nat) : Dev → Dev :=
  beginItem k 1 (fun it d =>
    let r := launchGrid it.addr (rd d OD.stepNumber) it.mb (some k) (layerOfOwner d it.owner) d
    if r.1 ≠ ST.ok then itemFailed k r.2.2
    else match r.2.1 with
      | none => itemSt k .done r.2.2
      | some g => modItem k (fun i => { i with st := .begun, grid := some g }) r.2.2)

/-- The first LAUNCH item that may begin whose launch descriptor stands at an address, for a micro-batch. -/
def launchItemOf (d : Dev) (addr mb : Nat) : Option Nat :=
  (d.seq.items.find? (fun i => i.2.kind == 1 && i.2.addr == addr && i.2.mb == mb && mayBegin d i.2)).map (fun i => i.1)

/-- The launch descriptor at an address posted: only the step sequencer posts one, from a LAUNCH item of a loaded table (R432). -/
def launch (addr mb : Nat) (d : Dev) : Dev :=
  match launchItemOf d addr mb with
  | some k => launchItem k d
  | none => d

/-- LAUNCH: the descriptor is checked and its grid accepted, or nothing starts. -/
def execLaunch (addr mb : Nat) (s : State) : Out := onDev (launch addr mb) s

/-- LAUNCH_ITEM. -/
def execLaunchItem (item : Nat) (s : State) : Out := onDev (launchItem item) s

/-- An item's fabric descriptor posted through the doorbell of its queue. -/
def postAs (k : Nat) (it : ItemRun) (d : Dev) : Dev :=
  let r := bellPostAs it.core it.queue (stCtx d.seq.header) it.addr (.item k) (rd d OD.stepNumber) it.mb d
  if r.1 ≠ ST.ok then itemFailed k r.2 else itemSt k .begun r.2

/-- POST_ITEM. -/
def execPostItem (item : Nat) (s : State) : Out := onDev (beginItem item 2 (postAs item)) s

def waitItem (k : Nat) (d : Dev) : Dev :=
  match mfind d.seq.items k with
  | some it =>
    if it.kind = 3 ∧ (mayBegin d it ∨ (it.st = .begun ∧ d.seq.st = .open)) then
      itemSt k (if reached (counterAt d (it.addr % 2 ^ 16)) (BitVec.ofNat 32 it.value) then .done else .begun) d
    else d
  | none => d

/-- WAIT_ITEM. -/
def execWaitItem (item : Nat) (s : State) : Out := onDev (waitItem item) s

/-! ## LAYER (R205-R211) -/

/-- MB_STRIDE in force, 0 outside units. -/
def strideOf (d : Dev) (mb : Nat) : Nat := if mb = 0xFFFF then 0 else vsStride (vstageAt d (unitAt d.seq.header d.seq.unit))

def addOnce (a : Nat) (l : List Nat) : List Nat := if l.contains a then l else l ++ [a]

def layerItem (k : Nat) : Dev → Dev :=
  beginItem k 4 (fun it d =>
    let l := layerAt d it.addr
    let d := itemSt k .begun { d with seq := { d.seq with layers := addOnce it.addr d.seq.layers } }
    loadList (.layer k false) (lnPrimary l) it.mb (strideOf d it.mb) d)

/-- LAYER_ITEM: the primary list begins. -/
def execLayerItem (item : Nat) (s : State) : Out := onDev (layerItem item) s

/-- Whether a LAYER item's repeat list has been begun. -/
def repeatBegun (d : Dev) (k : Nat) : Bool := !(itemsOf d (.layer k true)).isEmpty

/-- The summary bits of the grids that a list ran: OVF, or MISMATCH where it counts, and a NAN or INF bit. -/
def layerSummary (d : Dev) (o : ListOf) (check : Bool) : Bool × Bool :=
  let gs := (itemsOf d o).filterMap (fun i => i.2.grid.bind (gridOf d))
  (gs.any (fun g => g.ovf || (check && g.mismatch)), gs.any (fun g => g.nan || g.inf))

/-- The policy of a layer is exhausted (R208). -/
def exhaustLayer (k a : Nat) (again : Bool) (d : Dev) : Dev :=
  let d := svcEvent 0 0x2611 0 (inc OD.repeatsExhausted d)
  let d := if again then bumpEntry a 6 false d else d
  abandonFor 2 (itemSt k .done { d with seq := { d.seq with exhausted := addOnce a d.seq.exhausted } })

/-- The layer runs once more, one format wider (R206). -/
def repeatLayer (k : Nat) (it : ItemRun) (l : List W64) (d : Dev) : Dev :=
  let d := svcEvent 0 0x2610 0 (inc OD.layerRepeats (bumpEntry it.addr 4 false d))
  let d := { d with seq := { d.seq with repeated := addOnce it.addr d.seq.repeated } }
  let d := loadList (.layer k true) (lnRepeat l) it.mb (strideOf d it.mb) d
  if (itemsOf d (.layer k true)).isEmpty then itemSt k .done d else d

/-- Under POLICY NONE an overflow is counted for the layer, and nothing else happens (R211, log entry 116). -/
def countNone (a : Nat) (d : Dev) : Dev :=
  { d with seq := { d.seq with
      noneOverflows := mset d.seq.noneOverflows a (Nat.min 0xFFFFFFFF (mget 0 d.seq.noneOverflows a + 1)) } }

/-- The overflow policy applied to a LAYER item whose grids have ended. -/
def judgeLayer (k : Nat) (it : ItemRun) (d : Dev) : Dev :=
  let l := layerAt d it.addr
  let again := repeatBegun d k
  let r := layerSummary d (.layer k again) (lnCheckAction l)
  let d := if r.1 then { d with seq := { d.seq with overflowed := addOnce it.addr d.seq.overflowed } } else d
  match lnPolicy l with
  | 0 =>
    if !r.1 then itemSt k .done d
    else if again ∨ lnRepeat l = 0 ∨ d.seq.repeated.contains it.addr
      then exhaustLayer k it.addr (again || d.seq.repeated.contains it.addr) d
    else repeatLayer k it l d
  | 1 => itemSt k .done (if r.1 || r.2 then { d with seq := { d.seq with skipLayers := addOnce it.addr d.seq.skipLayers } } else d)
  | _ => itemSt k .done (if r.1 then countNone it.addr d else d)

/-- LAYER_GRIDS_END: the first LAYER item whose list has run to its end is judged. -/
def layerGridsEnd (d : Dev) : Dev :=
  let ended := fun (i : Nat × ItemRun) =>
    i.2.kind == 4 && decide (i.2.st = .begun) && listDone d (.layer i.1 (repeatBegun d i.1))
  if d.seq.st ≠ .open ∨ 2 ≤ d.seq.cause then d
  else match d.seq.items.find? ended with
    | some i => judgeLayer i.1 i.2 d
    | none => d

def execLayerGridsEnd (s : State) : Out := onDev layerGridsEnd s

/-! ## LOWRANK (R422) -/

/-- A dot product in the wide order of R194. -/
def dotWide (xs ys : List W32) : W32 :=
  let n := Nat.min xs.length ys.length
  let at_ := fun (l : List W32) (i : Nat) => f32 (l.getD i 0)
  (List.range ((n + 15) / 16)).foldl (fun acc j =>
    rne32 (vadd (f32 acc) (f32 (rne32 (vsum ((groupIx 16 n j).map (fun k => vmul (at_ xs k) (at_ ys k)))))))) 0

/-- A matrix of FP32 values as rows. -/
abbrev Rows := List (List W32)

def transposeRows (cols : Nat) (a : Rows) : Rows := (List.range cols).map (fun j => a.map (fun r => r.getD j 0))

/-- a × transpose(b): the rows of b are the columns of the right factor. -/
def mmWide (a bT : Rows) : Rows := a.map (fun r => bT.map (fun c => dotWide r c))

def rowsOf (cols : Nat) : Nat → List W32 → Rows
  | 0, _ => []
  | n + 1, xs => xs.take cols :: rowsOf cols n (xs.drop cols)

def zipF (f : W32 → W32 → W32) (a b : List W32) : List W32 := (a.zip b).map (fun p => f p.1 p.2)

/-- One column of the modified Gram-Schmidt step, against the columns before it. -/
def gramColumn (before : List (List W32)) (c : List W32) : List W32 :=
  let c := before.foldl (fun c p =>
    let dt := dotWide p c
    zipF (fun x y => fsub x (fmul dt y)) c p) c
  let s := frsq (rne32 (vadd (f32 (dotWide c c)) (.fin false 1 (-100))))
  c.map (fun x => fmul x s)

def gramSchmidt (cols : List (List W32)) : List (List W32) := cols.foldl (fun done c => done ++ [gramColumn done c]) []

/-- FP32 values of memory; an effect on them, or the item's failure where they cannot be read. -/
def withF32 (k a n : Nat) (go : List W32 → Dev → Dev) (d : Dev) : Dev :=
  let r := readMem d a (4 * n)
  if r.1 = ST.ok then go ((List.range n).map (fun i => BitVec.ofNat 32 (leNat ((r.2.drop (4 * i)).take 4)))) d else itemFailed k d

def putF32 (k a : Nat) (xs : List W32) (d : Dev) : Dev :=
  let r := writeMem a (xs.flatMap (fun x => leBytes 4 x.toNat)) d
  if r.1 = ST.ok then r.2 else itemFailed k r.2

/-- M = G + E, by rows. -/
def lowM (k : Nat) (w : List W64) (go : Rows → Dev → Dev) : Dev → Dev :=
  let n := lrM w * lrK w
  withF32 k (lrAddr w 2) n (fun g => withF32 k (lrAddr w 3) n (fun e => go (rowsOf (lrK w) (lrM w) (zipF fadd g e))))

/-- The RUN of a factor posted on the item's queue: its contribution at `src`, its record at `rec_`. It waits while the
queue is full. -/
def lowRun (k stage : Nat) (it : ItemRun) (rec_ src bytes : Nat) (d : Dev) : Dev :=
  let own := devNo d
  let q := 4 * it.core + it.queue
  let c := stCtx d.seq.header
  let x : FabDesc :=
    { words := [BitVec.ofNat 64 (3 + runCode * 2 ^ 16), BitVec.ofNat 64 (gAddr own rec_), BitVec.ofNat 64 (gAddr own src),
                BitVec.ofNat 64 bytes, 0, 0, 0, 0],
      ctx := c, origin := .item k, record := wordsAt d rec_ 16, step := rd d OD.stepNumber, mb := it.mb }
  let st := firstBad (useAny d linkDies) (runRefusal d c x x.record)
  if st ≠ ST.ok then itemFailed k d
  else modItem k (fun i => { i with st := .begun, value := stage }) (pushDesc q x d)

/-- The reduced factor that a RUN left in its record's OUT. -/
def lowResult (k rec_ n : Nat) (go : List W32 → Dev → Dev) (d : Dev) : Dev :=
  withF32 k (arOut (wordsAt d rec_ 16)) n go d

/-- First part: M, P, and the RUN of REC_P. -/
def lowFirst (k : Nat) (it : ItemRun) (w : List W64) (d : Dev) : Dev :=
  lowM k w (fun m d =>
    withF32 k (lrAddr w 4) (lrK w * lrRank w) (fun q d =>
      let p := mmWide m (transposeRows (lrRank w) (rowsOf (lrRank w) (lrK w) q))
      let d := putF32 k (lrAddr w 5) p.flatten d
      if 2 ≤ d.seq.cause then d else lowRun k 1 it (lrAddr w 8) (lrAddr w 5) (4 * lrM w * lrRank w) d) d) d

/-- Second part: the orthogonal P, the new Q, and the RUN of REC_Q. -/
def lowSecond (k : Nat) (it : ItemRun) (w : List W64) (d : Dev) : Dev :=
  lowResult k (lrAddr w 8) (lrM w * lrRank w) (fun ps d =>
    lowM k w (fun m d =>
      let cols := gramSchmidt (transposeRows (lrRank w) (rowsOf (lrRank w) (lrM w) ps))
      let qn := mmWide (transposeRows (lrK w) m) cols
      let d := putF32 k (lrAddr w 6) qn.flatten (putF32 k (lrAddr w 5) (transposeRows (lrM w) cols).flatten d)
      if 2 ≤ d.seq.cause then d else lowRun k 3 it (lrAddr w 9) (lrAddr w 6) (4 * lrK w * lrRank w) d) d) d

/-- Third part: the reduced gradient, the residual, Q and G. -/
def lowThird (k : Nat) (w : List W64) (d : Dev) : Dev :=
  let n := ((mfind d.seq.groups (arGroup (wordsAt d (lrAddr w 8) 16))).map (fun g => g.members.length)).getD 1
  let invN := f32OfRat (1 / (n : ℚ))
  lowResult k (lrAddr w 9) (lrK w * lrRank w) (fun qs d =>
    withF32 k (lrAddr w 5) (lrM w * lrRank w) (fun ps d =>
      lowM k w (fun m d =>
        let out := (mmWide (rowsOf (lrRank w) (lrM w) ps) (rowsOf (lrRank w) (lrK w) qs)).flatten
        let e := zipF (fun x o => fsub x (fmul o invN)) m.flatten out
        let d := putF32 k (lrAddr w 6) qs (putF32 k (lrAddr w 4) qs d)
        let d := putF32 k (lrAddr w 3) e (putF32 k (lrAddr w 7) out d)
        itemSt k .done (putF32 k (lrAddr w 2) (List.replicate (lrM w * lrK w) 0) d)) d) d) d

/-- Whether the queue of an item has room for a descriptor. -/
def queueRoom (d : Dev) (it : ItemRun) : Bool := decide ((queueOf d (4 * it.core + it.queue)).accepted.length < 64)

/-- LOWRANK_ITEM: the next part of the procedure, once the RUN before it has completed. Nothing happens on other steps. -/
def lowrankItem (k : Nat) (d : Dev) : Dev :=
  match mfind d.seq.items k with
  | none => d
  | some it =>
    let w := wordsAt d it.addr 10
    if it.kind ≠ 5 ∨ 2 ≤ d.seq.cause ∨ d.seq.st ≠ .open then d
    else if it.st = .waiting then
      (if !mayBegin d it then d
       else if rd d OD.stepNumber % lrN w ≠ lrPhase w then itemSt k .done d
       else if queueRoom d it then lowFirst k it w d else d)
    else if it.st = .begun ∧ it.value = 2 then (if queueRoom d it then lowSecond k it w d else d)
    else if it.st = .begun ∧ it.value = 4 then lowThird k w d
    else d

def execLowrankItem (item : Nat) (s : State) : Out := onDev (lowrankItem item) s

/-! ## Pipeline units (R454-R456) -/

/-- Whether the phase's list has run to its end; the next phase then begins. -/
def settlePhase (d : Dev) : Dev :=
  match d.seq.phase with
  | .pre => if listDone d .pre then { d with seq := { d.seq with phase := .units } } else d
  | .post => if listDone d .post then { d with seq := { d.seq with phase := .over } } else d
  | _ => d

/-- Arrival counter of a unit's input. -/
def unitCounter (h : List W64) (x : Unit_) : Nat := stCnt h + (2 * x.vstage + (if x.bwd then 1 else 0)) * stM h + x.mb

/-- Whether a unit waits on nothing: the forward units of chunk 0, the backward units of the last chunk. -/
def unitFree (h : List W64) (x : Unit_) : Bool :=
  let chunk := x.vstage * stP h + stD h
  if x.bwd then chunk + 1 == stP h * stV h else chunk == 0

/-- The unit's send posted (R449, R455). -/
def unitSend (k : Nat) (x : Unit_) (d : Dev) : Dev :=
  let e := vstageAt d x
  let a := vsSend e x.bwd
  if a = 0 then d
  else
    let it : ItemRun :=
      { owner := .send k, index := 0, kind := 2, after := false, core := stSendCore d.seq.header,
        queue := stSendQueue d.seq.header, addr := (a + vsSendStride e * x.mb) % 2 ^ 49, value := 0, mb := x.mb,
        st := .waiting, grid := none, op := none }
    let n := d.seq.nextItem
    postAs n it { d with seq := { d.seq with items := mset d.seq.items n it, nextItem := n + 1 } }

/-- After the last unit POST_LIST begins. -/
def afterUnits (d : Dev) : Dev :=
  let d := { d with seq := { d.seq with phase := .post } }
  if stPost d.seq.header = 0 then d else loadList .post (stPost d.seq.header) 0xFFFF 0 d

def pipelineUnit (d : Dev) : Dev :=
  let d := settlePhase d
  let h := d.seq.header
  let k := d.seq.unit
  if d.seq.st ≠ .open ∨ 2 ≤ d.seq.cause ∨ d.seq.phase ≠ .units then d
  else
    let x := unitAt h k
    if !d.seq.unitBegun then
      (if unitFree h x || counterAt d (unitCounter h x) != 0 then
        let e := vstageAt d x
        loadList (.unit k) (vsList e x.bwd) x.mb (vsStride e) { d with seq := { d.seq with unitBegun := true } }
       else d)
    else if listDone d (.unit k) then
      let d := unitSend k x d
      let d := { d with seq := { d.seq with unit := k + 1, unitBegun := false } }
      if k + 1 = unitCount h then afterUnits d else d
    else d

/-- PIPELINE_UNIT. -/
def execPipelineUnit (s : State) : Out := onDev pipelineUnit s

end Sys2Proof.Machine
end

