-- ==== Sys2Proof/Machine/Gate.lean ====
section
/-!
DEFINITION. The commit gate (R439-R446): votes, the combined verdict, what each verdict does to records, positions and the
sequencer; the gate wait limit; the failover of services (R430).
-/

namespace Sys2Proof.Machine

/-! ## The records of a step (R200, R208-R210, R412) -/

/-- Records that the layers of the step name. -/
def recordsOfLayers (d : Dev) (ls : List Nat) : List Nat := (ls.flatMap (fun a => layerRecords (layerAt d a))).eraseDups

/-- Scale records of the step's RUNs on the native wire. -/
def runRecords (d : Dev) : List Nat := (d.seq.runs.map (fun r => r.1)).eraseDups

/-- Every record of the step. -/
def stepRecords (d : Dev) : List Nat := (recordsOfLayers d d.seq.layers ++ runRecords d).eraseDups

/-- CLEAN of a record that layers name (R210). -/
def countLayerClean (d0 : Dev) (a : Nat) (d : Dev) : Dev :=
  let mine := d0.seq.layers.filter (fun l => (layerRecords (layerAt d0 l)).contains a)
  if mine.any (fun l => d0.seq.repeated.contains l) then countClean true a d
  else if mine.any (fun l => !d0.seq.overflowed.contains l) then countClean false a d
  else d

/-- Step 1 of R412 for the record of a RUN. -/
def countRunClean (d0 : Dev) (a : Nat) (d : Dev) : Dev :=
  if d0.seq.runs.any (fun r => r.1 == a && r.2.2) then raiseBackoff true a d else countClean false a d

def rollAll (as : List Nat) (d : Dev) : Dev := as.foldl (fun d a => rollRecord (svcPort d 0) a d) d

/-- R210, step 1 of R412, and the rolls, at a COMMIT. -/
def commitRecords (d : Dev) : Dev :=
  let runs := runRecords d
  let others := (recordsOfLayers d d.seq.layers).filter (fun a => !runs.contains a)
  let all := stepRecords d
  let e := runs.foldl (fun e a => countRunClean d a e) d
  let e := others.foldl (fun e a => countLayerClean d a e) e
  rollAll all e

/-- The rise of R209 in the records of the layers that marked the skip here, and the rolls, at a NULL. -/
def nullRecords (rise : Bool) (d : Dev) : Dev :=
  let mine := if rise then recordsOfLayers d d.seq.skipLayers else []
  rollAll (stepRecords d) (mine.foldl (fun d a => raiseBackoff true a d) d)

/-- Addresses of the agreed-scale list. -/
def agreedRecords (d : Dev) : List Nat :=
  (List.range (stAgree d.seq.header)).map (fun i => fld (wordAt d (stAgreeBase d.seq.header + 8 * i)) 48 0)

def sexpAt (d : Dev) (a : Nat) : Nat := rcSexp ((recordAt d a).getD [])

/-- The agreed SEXP written (R412 step 3). -/
def putAgreed (v : Vote) (d : Dev) : Dev :=
  ((agreedRecords d).zip v.sexp).foldl (fun d p =>
    match recordAt d p.1 with
    | some r => putRec p.1 (putFld r 1 7 0 p.2) d
    | none => d) d

/-! ## The own vote (R439-R441) -/

/-- Whether an operation or a queued descriptor belongs to the open step: posted by it, or any RUN of its step number. -/
def ofStep (d : Dev) (x : FabDesc) : Bool :=
  x.step == rd d OD.stepNumber && (isRun x || decide (x.origin ≠ .doorbell))

/-- Numbers of the operations of queues that belong to the open step. -/
def stepOps (d : Dev) : List Nat :=
  (d.tw.ops.filter (fun o => ofStep d o.2.desc && (match o.2.use_ with | .queue => true | .antler _ => true | _ => false))).map
    (fun o => o.1)

def gridsEnded (d : Dev) : Bool := d.grids.all (fun g => g.2.complete || g.2.step != rd d OD.stepNumber)

/-- Whether every grid and fabric operation of the step has ended. -/
def stepQuiet (d : Dev) : Bool :=
  gridsEnded d && (stepOps d).isEmpty && d.tw.queues.all (fun q => q.2.accepted.all (fun x => !ofStep d x))

/-- The verdict of the loss values (R440). -/
def lossCode (d : Dev) : Nat :=
  let h := d.seq.header
  if stLoss h = 0 then 0
  else
    let r := readMem d (stLoss h) (4 * stM h)
    if r.1 ≠ ST.ok then 4
    else if (List.range (stM h)).any (fun i => f32NonFinite (BitVec.ofNat 32 (leNat ((r.2.drop (4 * i)).take 4)))) then 3 else 0

/-- The vote of this member with a code: the SEXP that each agreed record would take, computed without being written. With
a code of ABANDON that is the SEXP of a null commit without the rise of R209, which the NaN action may make of it (R444;
DEDUCED, log entry 127). -/
def ownVote (code : Nat) (d : Dev) : Vote :=
  let e := if code = 0 then commitRecords d else nullRecords (code == 1) d
  { step := rd d OD.stepNumber, attempt := d.seq.attempt, verdict := code, sexp := (agreedRecords d).map (sexpAt e) }

/-- WAIT items and outstanding RUNs of an abandoned step end with ST_FENCED. -/
def endWork (d : Dev) : Dev :=
  let items : Map ItemRun := mmap (fun _ (i : ItemRun) => if i.kind = 3 ∧ i.st = .begun then { i with st := .done } else i) d.seq.items
  let d : Dev := { d with seq := { d.seq with items } }
  let runs := (d.tw.ops.filter (fun o => decide (o.2.use_ = .queue) && isRun o.2.desc && ofStep d o.2.desc)).map (fun o => o.1)
  let d := runs.foldl (fun d i => runComplete i (failRun i ST.fenced d)) d
  d.tw.queues.foldl (fun d q =>
    let mine := fun (x : FabDesc) => isRun x && ofStep d x
    let fq := queueOf d q.1
    let out := fq.accepted.filter mine
    let d := setQueue q.1 { fq with accepted := fq.accepted.filter (fun x => !mine x) } d
    out.foldl (fun d x => fenceDesc q.1 x d) d) d

/-! ## Combining (R441, R442) -/

def joinVotes (a b : Vote) : Vote :=
  { a with verdict := Nat.max a.verdict b.verdict,
           sexp := (List.range (Nat.max a.sexp.length b.sexp.length)).map (fun i => Nat.max (a.sexp.getD i 0) (b.sexp.getD i 0)) }

/-- The verdict decided, and sent down. -/
def decideVerdict (v : Vote) (kids : List (Nat × Nat)) (d : Dev) : Dev :=
  kids.foldl (fun d k => sendAs 0 (.vote k.2 v) d) { d with seq := { d.seq with verdict := some v } }

/-- Ranks of the P1 and P2 members, whose votes the root takes from its vote area. -/
def heritageRanks (d : Dev) : List Nat := ((gateGroup d).map (fun g => (membersWhere (fun k => k != 3) g).map (fun m => m.1))).getD []

/-- What this member holds of votes is combined: an ABANDON goes on at once, anything else once every vote is here. -/
def settleVotes (d : Dev) : Dev :=
  match gateTree d with
  | none => d
  | some t =>
    let root := t.parent.isNone
    let base : Vote := { step := rd d OD.stepNumber, attempt := d.seq.attempt, verdict := 0, sexp := [] }
    let kids := t.kids.filterMap (fun k => mfind d.seq.votes k.1)
    let her := if root then heritageRanks d else []
    let hv := her.filterMap (fun r => mfind d.seq.heritage r)
    let all := hv.foldl (fun v c => { v with verdict := Nat.max v.verdict c }) ((d.seq.vote.toList ++ kids).foldl joinVotes base)
    let whole := d.seq.vote.isSome && kids.length == t.kids.length && hv.length == her.length
    if d.seq.verdict.isSome ∨ !(whole || decide (2 ≤ all.verdict)) then d
    else match t.parent with
      | none => decideVerdict all t.kids d
      | some p => if d.seq.sentUp then d else sendAs 0 (.vote p.2 all) { d with seq := { d.seq with sentUp := true } }

/-- The own vote cast: the gate begins. -/
def castVote (code : Nat) (d : Dev) : Dev :=
  let v := ownVote code d
  settleVotes (lateCopy { d with seq := { d.seq with vote := some v, votedAt := d.tick, st := .gate } })

/-- GATE_VOTE. -/
def gateVote (d : Dev) : Dev :=
  let d := settlePhase d
  if d.seq.st ≠ .open then d
  else if 2 ≤ d.seq.cause then castVote d.seq.cause (endWork d)
  else if d.seq.phase = .over ∧ d.seq.items.all (fun i => decide (i.2.st = .done)) ∧ stepQuiet d then
    castVote (Nat.max (Nat.max d.seq.cause (lossCode d)) (if d.seq.skipLayers.isEmpty then 0 else 1)) (zeroPipeline d)
  else d

def execGateVote (s : State) : Out := onDev gateVote s

/-- Whether a step is open or about to open, so that a vote can be for it. -/
def expectsVotes (d : Dev) : Bool := inStep d || d.seq.opening

def voteFits (d : Dev) (step attempt : Nat) : Bool := step == rd d OD.stepNumber && attempt == d.seq.attempt

/-- A vote that is not for this step and attempt counts as ABANDON_FAULT and raises EV_3601. -/
def checkVote (v : Vote) (d : Dev) : Vote × Dev :=
  if voteFits d v.step v.attempt then (v, d) else ({ v with verdict := 4, sexp := [] }, svcEvent 0 0x3601 4 d)

/-- The combined vote reaches a member: it goes on down; an ABANDON ends the member's own work at once. -/
def voteDown (v : Vote) (d : Dev) : Dev :=
  if !inStep d ∨ d.seq.verdict.isSome then d
  else
    let r := checkVote v d
    let kids := ((gateTree d).map GateTree.kids).getD []
    let d := decideVerdict r.1 kids r.2
    if d.seq.st = .open ∧ 2 ≤ r.1.verdict then castVote r.1.verdict (endWork (abandonFor r.1.verdict d)) else d

/-- A child's vote reaches its parent. -/
def voteUp (rank : Nat) (v : Vote) (d : Dev) : Dev :=
  let mine := ((gateTree d).map (fun t => t.kids.any (fun k => k.1 == rank))).getD false
  if !mine ∨ !expectsVotes d ∨ (!inStep d ∧ !voteFits d v.step v.attempt) then d
  else
    let r := checkVote v d
    let d := { r.2 with seq := { r.2.seq with votes := mset r.2.seq.votes rank r.1 } }
    if inStep d then settleVotes d else d

/-- VOTE_RECEIVE. -/
def execVoteReceive (fromRoot : Bool) (rank : Nat) (v : Vote) (s : State) : Out :=
  onDev (if fromRoot then voteDown v else voteUp rank v) s

/-- HERITAGE_VOTE (R442): the store of a P1 or P2 member into the vote area; on the root it is combined. -/
def heritageVote (rank : Nat) (w : W64) (d : Dev) : Dev :=
  match gateGroup d with
  | none => d
  | some g =>
    if !((membersWhere (fun k => k != 3) g).any (fun m => m.1 == rank)) then d
    else
      let d := putMem (stHvote d.seq.header + 8 * rank) (leBytes 8 w.toNat) d
      if (treeOf g).pos ≠ 0 ∨ !expectsVotes d then d
      else
        let code := fld w 51 48
        let good := voteFits d (fld w 47 0) (fld w 59 52) && decide (code ≤ 4) && fld w 63 60 == 0
        let d := if good then d else svcEvent 0 0x3601 4 d
        let d := { d with seq := { d.seq with heritage := mset d.seq.heritage rank (if good then code else 4) } }
        if inStep d then settleVotes d else d

def execHeritageVote (rank : Nat) (w : W64) (s : State) : Out := onDev (heritageVote rank w) s

/-! ## Positions (R460, R461) -/

/-- A cursor after one step. -/
def stepCursor (b : Bytes) : Bytes :=
  let w := wordsOf 4 b
  let i := (word w 1).toNat + fld (word w 0) 63 32
  let n := (word w 2).toNat
  let p := (word w 3).toNat
  b.take 8 ++ leBytes 8 (if n = 0 then i else i % n) ++ (b.drop 16).take 8 ++ leBytes 8 (if n = 0 then p else p + i / n)

/-- G, the cursors, the step number and the stream state advance. -/
def advance (d : Dev) : Dev :=
  let g := (rd d OD.jobDataPosition + rd d OD.globalBatch) % 2 ^ 64
  let n := (rd d OD.stepNumber + 1) % 2 ^ 48
  let cs := rdFull d OD.shardCursors
  let cs' := (List.range 64).flatMap (fun i => stepCursor ((cs.drop (32 * i)).take 32))
  wrBytes OD.streamState (leBytes 8 n ++ leBytes 8 g) (wrBytes OD.shardCursors cs'
    (wr OD.jobDataPosition g (wr OD.stepNumber n d)))

/-! ## Applying the verdict (R443-R445) -/

/-- The root writes zero to every heritage vote word. -/
def zeroHeritage (d : Dev) : Dev :=
  match gateGroup d with
  | some g =>
    if (treeOf g).pos = 0
    then (membersWhere (fun k => k != 3) g).foldl (fun d m => putMem (stHvote d.seq.header + 8 * m.1) (leBytes 8 0) d) d
    else d
  | none => d

/-- After COMMIT or NULL: one step fewer remains; the next opens, or the sequencer enters LOADED. -/
def nextStep (d : Dev) : Dev :=
  let rem := rd d OD.stepsRemaining
  let endless := d.seq.endless
  let d := if endless then d else wr OD.stepsRemaining (rem - 1) d
  let last := !endless && decide (rem ≤ 1)
  let stop := d.seq.stopPending
  let d := settleStop (clearGate d)
  let d := { d with seq := { d.seq with attempt := 0, clamped := [], mismatched := [] } }
  if last || stop then
    let d := { d with seq := { d.seq with st := .loaded, opening := false } }
    if last then svcEvent 0 0x3606 0 d else d
  else { d with seq := { d.seq with st := .committing, opening := true } }

def applyCommit (v : Vote) (d : Dev) : Dev :=
  let s := rd d OD.stepNumber
  let w := d.seq.written
  let layers := d.seq.layers
  let peak := d.seq.peakThis
  let d := putAgreed v (commitRecords (commitLines d))
  let d := layers.foldl (fun d a => updateEl (svcPort d 0) a d) d
  let d := inc OD.stepsCommitted (wr OD.lastStepPeakCurrent peak (advance d))
  let d := { d with seq := { d.seq with committed := true } }
  nextStep (notifyCommit s w (zeroHeritage d))

/-- A null commit: of a skip (R209) or of the NaN action (R444). -/
def applyNull (skip : Bool) (v : Vote) (d : Dev) : Dev :=
  let s := rd d OD.stepNumber
  let mine := d.seq.skipLayers
  let d := putAgreed v (nullRecords skip (discardLines d))
  let d := if skip then
      svcEvent 0 0x2612 (if mine.isEmpty then 0 else 1) (inc OD.stepsSkipped (mine.foldl (fun d a => bumpEntry a 4 true d) d))
    else d
  let d := inc OD.nullCommits (advance d)
  nextStep (notifyCommit s [] (zeroHeritage d))

/-- BACKOFF raised after an exhausted policy, and the scales derived again without a roll (R208). -/
def backOffLayer (d : Dev) : Dev :=
  (recordsOfLayers d d.seq.exhausted).foldl (fun d a =>
    let d := raiseBackoff false a d
    if modeOf d ((recordAt d a).getD []) = 2 then d else rederive (svcPort d 0) a d) d

/-- The step opens again with one attempt more, or the sequencer halts (R445). -/
def retryStep (d : Dev) : Dev :=
  let a := d.seq.attempt + 1
  if rd d OD.attemptLimit < a then svcEvent 0 0x3602 0 (enterHalted d)
  else
    let stop := d.seq.stopPending
    let d := settleStop (clearGate d)
    if stop then { d with seq := { d.seq with st := .loaded, opening := false } }
    else { d with seq := { d.seq with st := .committing, opening := true, attempt := a } }

def applyAbandon (v : Vote) (d : Dev) : Dev :=
  let code := v.verdict
  let d := svcEvent 0 0x3601 code d
  if code = 3 ∧ rd d OD.nanAction = 2 then applyNull false v d
  else
    let d := inc OD.stepsAbandoned (discardLines d)
    let d := (stepRecords d).foldl (fun d a => clearRecord a d) d
    let d := if code = 2 then backOffLayer d else d
    let d := d.seq.runRanges.foldl (fun d r => zeroCounters r.1 r.2 d) (zeroPipeline d)
    let d := zeroHeritage d
    if code = 3 ∧ rd d OD.nanAction = 0 then enterHalted d else retryStep d

/-- VERDICT_APPLY: once the grids of the step have ended. A COMMIT or NULL awaits the job seal notice (R482); an ABANDON
whose RUNs may still be written to awaits T_drain (R443). -/
def verdictApply (d : Dev) : Dev :=
  match d.seq.verdict, d.seq.vote with
  | some v, some _ =>
    if d.seq.st ≠ .gate ∨ !gridsEnded d then d
    else if v.verdict ≤ 1 ∧ d.ckpt.holds then noteWait d
    else if 2 ≤ v.verdict ∧ !d.seq.runRanges.isEmpty ∧ d.tick < d.seq.votedAt + tDrain d then d
    else
      let d := wr OD.lastVerdict v.verdict d
      if v.verdict = 0 then applyCommit v d else if v.verdict = 1 then applyNull true v d else applyAbandon v d
  | _, _ => d

def execVerdictApply (s : State) : Out := onDev verdictApply s

/-! ## The gate wait limit (R446, R495) -/

/-- GATE_WAIT_EXPIRY: the step is discarded, and the checkpoint service of the partner is probed. -/
def gateWaitExpiry (d : Dev) : Dev :=
  if d.seq.st ≠ .gate ∨ d.seq.vote.isNone ∨ d.seq.verdict.isSome ∨ d.tick < d.seq.votedAt + rd d OD.gateWaitLimit then d
  else
    let d := (stepRecords d).foldl (fun d a => clearRecord a d) (discardLines d)
    let d := svcEvent 0 0x3603 0 (enterHalted d)
    let p := rd d OD.partnerDevice
    if p = 0xFFFF then d else sendAs 4 (.probe p) { d with ckpt := { d.ckpt with probeAt := some d.tick } }

def execGateWaitExpiry (s : State) : Out := onDev gateWaitExpiry s

/-! ## Failover (R429, R430) -/

/-- Home of a service. -/
def homeOf (s : Nat) : Nat := [0, 1, 2, 2, 3].getD s 0

/-- One service leaves a failed sequencer processor. -/
def moveService (sq : Nat) (s : Nat) (d : Dev) : Dev :=
  if d.seq.services.getD s 4 ≠ sq then d
  else
    let next := (sq + 1) % 4
    if sq = homeOf s ∧ works d (sequencerFn next) then
      let d := { d with seq := { d.seq with services := lset d.seq.services s next } }
      raise (cdPort next) 0x3605 s 0 [] (setReady (serviceFn s) RS.degraded 2 d)
    else setReady (serviceFn s) RS.failed 4 d

/-- The services of a sequencer processor that has failed or is fenced move to their standbys; an open step is
abandoned. -/
def failover (sq : Nat) (d : Dev) : Dev :=
  let d := (List.range 5).foldl (fun d s => moveService sq s d) d
  if d.seq.st = .open then abandonFor 4 d
  else if d.seq.st = .gate ∧ d.seq.vote.isNone then abandonFor 4 d else d

/-- SERVICE_FAILOVER: where the processor runs a service and no longer works. -/
def serviceFailover (sq : Nat) (d : Dev) : Dev :=
  let down := !works d (sequencerFn sq) || engineInReset d (0x8000 + sq)
  if sq < 4 ∧ down ∧ d.seq.services.any (fun x => x == sq) then
    let d := if [RS.failed, RS.absent, RS.fenced].contains (readyState d (sequencerFn sq)) then d
      else setReady (sequencerFn sq) RS.failed 4 d
    failover sq d
  else d

def execServiceFailover (sq : Nat) (s : State) : Out := onDev (serviceFailover sq) s

end Sys2Proof.Machine
end

