-- ==== Sys2Proof/Machine/Groups.lean ====
section
/-!
DEFINITION. The membership service (R463-R465): admission of communication groups and their release.
-/

namespace Sys2Proof.Machine

/-- STATE of a group's entry. -/
def groupCode (d : Dev) (g : Nat) : Nat :=
  match mfind d.seq.groups g with
  | none => 0
  | some r => if r.st = .admitted then 2 else 1

/-- WIRE of a member list (R30, R407). -/
def wireOf (ms : List Member) : Nat := if ms.any (fun m => m.gen == 1) then 2 else if ms.any (fun m => m.gen == 2) then 1 else 0

/-- A list of n entries of 4 bytes; none where a reserved bit is set. -/
def groupList : Nat → Bytes → Option (List Member)
  | 0, _ => some []
  | n + 1, bs =>
    let e := leNat (bs.take 4)
    if nfld e 15 15 ≠ 0 ∨ nfld e 31 18 ≠ 0 then none
    else (groupList n (bs.drop 4)).map (fun ms => { dev := nfld e 14 0, gen := nfld e 17 16 } :: ms)

def anyTwice : List Nat → Bool
  | [] => false
  | x :: xs => xs.contains x || anyTwice xs

/-- Whether a list may be admitted with this device at a rank (R464 1). -/
def listGood (d : Dev) (rank : Nat) (ms : List Member) : Bool :=
  decide (ms[rank]? = some { dev := devNo d, gen := 3 }) && ms.all (fun m => m.gen != 0) && !anyTwice (ms.map (fun m => m.dev))

/-- The entry becomes ADMITTING: generations recorded, the digest of the list sent. -/
def startAdmission (g rank : Nat) (ms : List Member) (d : Dev) : Dev :=
  let r : GroupRec := { st := .admitting, wire := wireOf ms, rank, members := ms, since := d.tick }
  let d := ms.foldl (fun d m => setPeerGen m.dev m.gen d) { d with seq := { d.seq with groups := mset d.seq.groups g r } }
  sendAs 1 (.digest g (Config.sha3_512 (memberBytes ms))) d

def admitOp (g n rank a : Nat) : WriteOp := fun d =>
  if n = 0 ∨ 32768 < n ∨ n ≤ rank then (ST.invalid, d)
  else if (mfind d.seq.groups g).isSome then (ST.state, d)
  else
    let r := readMem d a (4 * n)
    if r.1 ≠ ST.ok then (r.1, d)
    else match groupList n r.2 with
      | none => (ST.invalid, d)
      | some ms =>
        if listGood d rank ms then (ST.ok, setCommandStatus OD.groupCommand ST.pending (startAdmission g rank ms d))
        else (ST.invalid, d)

/-- ADMIT (R464). -/
def execAdmitGroup (p : Path) (group n rank list : Nat) (reserved : Bool) (s : State) : Out :=
  execCommand OD.groupCommand 24 .rws p [1 + group * 2 ^ 4, n % 2 ^ 16 + rank % 2 ^ 15 * 2 ^ 16, list] (reserved || decide (4096 ≤ group) || decide (2 ^ 49 ≤ list))
    (fun d => groupCode d group) (admitOp group n rank list) s

/-- A command that waits for a group's admission completes. -/
def groupAnswer (g : Nat) (st : Status) (d : Dev) : Dev :=
  if commandPending d OD.groupCommand ∧ nfld (rd d OD.groupCommand) 15 4 = g then setCommandStatus OD.groupCommand st d else d

/-- A survivor of a takeover whose groups are admitted again loads its stage table, and starts unless it leads (R497). -/
def afterAdmission (d : Dev) : Dev :=
  match d.ckpt.takeover with
  | none => d
  | some t =>
    if t.spare.isNone ∨ d.seq.st ≠ .idle ∨ d.seq.groups.any (fun g => decide (g.2.st = .admitting)) then d
    else
      let r := loadOp t.table d
      if r.1 ≠ ST.ok ∨ t.leads then r.2
      else { r.2 with seq := { r.2.seq with opening := true, attempt := 0 }, ckpt := { r.2.ckpt with takeover := none } }

/-- The end of an admission: FREE again with a status, which also ends a RESTORE (R491). -/
def refuseGroup (g : Nat) (st : Status) (d : Dev) : Dev :=
  let d := if d.ckpt.restore.isSome then restoreEnd st d else d
  groupAnswer g st (raise (svcPort d 1) 0x3611 g st.toNat [] { d with seq := { d.seq with groups := mdel d.seq.groups g } })

/-- ADMISSION_DONE: the digests of the P3 members, or none when the gate wait limit has passed without them. -/
def admissionDone (g : Nat) (digests : Option (List Bytes)) (d : Dev) : Dev :=
  match mfind d.seq.groups g with
  | none => d
  | some r =>
    if r.st ≠ .admitting then d
    else match digests with
      | none => if r.since + rd d OD.gateWaitLimit ≤ d.tick then refuseGroup g ST.timeout d else d
      | some ds =>
        if ds.all (fun x => x == Config.sha3_512 (memberBytes r.members)) then
          afterAdmission (groupAnswer g ST.ok (raise (svcPort d 1) 0x3610 g 0 []
            { d with seq := { d.seq with groups := mset d.seq.groups g { r with st := .admitted } } }))
        else refuseGroup g ST.groupMismatch d

def execAdmissionDone (group : Nat) (digests : Option (List Bytes)) (s : State) : Out := onDev (admissionDone group digests) s

/-- Whether the loaded table or an outstanding RUN names a group (R465). -/
def groupUsed (d : Dev) (g : Nat) : Bool :=
  let h := d.seq.header
  let run := fun (x : FabDesc) => isRun x && arGroup x.record == g
  (d.seq.st != .idle && (stGate h == g || (decide (1 < stP h) && stPipe h == g))) ||
  d.tw.ops.any (fun o => decide (o.2.use_ = .queue) && run o.2.desc) || d.tw.queues.any (fun q => q.2.accepted.any run)

def releaseOp (g : Nat) : WriteOp := fun d =>
  if groupCode d g ≠ 2 ∨ groupUsed d g then (ST.state, d)
  else (ST.ok, setCommandStatus OD.groupCommand ST.ok { d with seq := { d.seq with groups := mdel d.seq.groups g } })

/-- RELEASE (R465). -/
def execRelease (p : Path) (group : Nat) (reserved : Bool) (s : State) : Out :=
  execCommand OD.groupCommand 24 .rws p [2 + group * 2 ^ 4] (reserved || decide (4096 ≤ group)) (fun d => groupCode d group)
    (releaseOp group) s

end Sys2Proof.Machine
end

