-- ==== Sys2Proof/Machine/Checkpoint.lean ====
section
/-!
DEFINITION. The checkpoint service: the tandem table (R469-R472), pairing (R475-R477), the incoming copy and its seal
(R480, R485-R487), the rewind (R488), the refetch after poison (R489), RESTORE (R490-R494), and the takeover (R495-R499).
-/

namespace Sys2Proof.Machine

/-- The command that waits completes. -/
def ckptAnswer (st : Status) (d : Dev) : Dev :=
  if commandPending d OD.checkpointCommand then setCommandStatus OD.checkpointCommand st d else d

def ckptUnit (d : Dev) : Nat := rd d OD.checkpointState

/-- A command of the checkpoint object. -/
def ckptCommand (p : Path) (ws : List Nat) (reserved : Bool) (op : WriteOp) (s : State) : Out :=
  execCommand OD.checkpointCommand 32 .rws p ws reserved ckptUnit op s

/-! ## CONFIGURE (R472) -/

def tandemOf (w : List W64) : TandemEntry :=
  { addr := fld (word w 0) 48 0, cls := fld (word w 0) 50 49, ride := bit (word w 0) 51, length := fld (word w 1) 48 0,
    desc := fld (word w 2) 48 0 }

/-- Whether RIDE_DESC is the descriptor of the all-gather of the range. -/
def rideGood (d : Dev) (e : TandemEntry) : Bool :=
  let x : FabDesc := { words := wordsAt d e.desc 8, ctx := 0, origin := .doorbell, record := [], step := 0, mb := 0 }
  isRun x && arKind (wordsAt d (gLocal (fdDst x)) 16) == 5 && gLocal (fdSrc x) == e.addr && fdLen x == e.length

def tandemBad (d : Dev) (w : List W64) : Bool :=
  let e := tandemOf w
  fld (word w 0) 63 52 != 0 || fld (word w 1) 63 49 != 0 || fld (word w 2) 63 49 != 0 || word w 3 != 0 ||
  e.addr % 64 != 0 || e.length == 0 || e.length % 64 != 0 || (e.ride && (e.cls != clsParam || !rideGood d e))

/-- Whether an entry lies where its class must (R470). -/
def tandemPlaced (d : Dev) (e : TandemEntry) : Bool :=
  if e.cls < 2 then d.seq.regions.any (fun r => decide (r.base ≤ e.addr) && decide (e.addr + e.length ≤ r.base + r.length))
  else d.seq.regions.all (fun r => (regionRanges r).all (fun p => !overlaps p.1 p.2 e.addr e.length))

def classTotal (es : List TandemEntry) (c : Nat) : Nat := ((es.filter (fun e => e.cls == c)).map (fun e => e.length)).sum

/-- The pairing ends on this device (R475): both held copies are discarded. -/
def endPairing (d : Dev) : Dev :=
  if rd d OD.partnerDevice = 0xFFFF then d
  else
    let d := sendAs 4 (.unpair (rd d OD.partnerDevice)) d
    let d := toDefault OD.partnerDevice (toDefault OD.heldCopyStep (toDefault OD.sealedStep (toDefault OD.durabilityClass d)))
    let d := endWait d
    svcEvent 4 0x3621 0 { d with ckpt := { d.ckpt with held := none, incoming := none, copy := none, sealedOwn := none, probeAt := none } }

def configureOp (t n : Nat) : WriteOp := fun d =>
  let r := readMem d t (32 * n)
  let ws := (List.range n).map (fun i => wordsOf 4 (r.2.drop (32 * i)))
  let es := ws.map tandemOf
  if n = 0 ∨ 256 < n ∨ t % 32 ≠ 0 then (ST.invalid, d)
  else if d.seq.st ≠ .loaded ∧ d.seq.st ≠ .halted then (ST.state, d)
  else if r.1 ≠ ST.ok then (r.1, d)
  else if ws.any (tandemBad d) then (ST.invalid, d)
  else if es.any (fun e => !tandemPlaced d e) ∨ rangesClash (es.map (fun e => (e.addr, e.length))) then (ST.state, d)
  else if 2 ^ 24 < classTotal es clsMeta ∨ 2 ^ 30 < classTotal es clsConst then (ST.length, d)
  else if es.any (fun e => decide (hbmEnd < e.addr + e.length) || !grantedFor d (stCtx d.seq.header) Need.load e.addr e.length)
  then (ST.access, d)
  else
    let d := endPairing d
    let c : CkptState := { d.ckpt with table := es, snaps := [], flipLog := [] }
    (ST.ok, setCommandStatus OD.checkpointCommand ST.ok (wr OD.checkpointState 1 { d with ckpt := c }))

/-- CONFIGURE. -/
def execConfigure (p : Path) (table count : Nat) (reserved : Bool) (s : State) : Out :=
  ckptCommand p [1, table, count] (reserved || decide (2 ^ 49 ≤ table) || decide (2 ^ 49 ≤ count)) (configureOp table count) s

/-! ## Pairing (R475-R477) -/

/-- Bytes that the tandem store must hold for a partner's image (R477). -/
def storeNeed (d : Dev) (image : Nat) : Nat :=
  let t := d.ckpt.table
  2 * image + (classTotal t clsParam + classTotal t clsState + 511) / 512 + 2 * classTotal t clsMeta + 65536

/-- Feeds that are equal, or of which either is unassigned. -/
def feedShared (d : Dev) (feed : Nat) : Bool :=
  let own := rd d OD.powerFeedId
  own == feed || own == 0 || feed == 0

/-- What follows a pairing made during a takeover (R497 5, 6). -/
def takeoverPaired (d : Dev) : Dev :=
  match d.ckpt.takeover with
  | none => d
  | some _ =>
    let d := svcEvent 4 0x3627 0 (inc OD.takeovers { d with ckpt := { d.ckpt with takeover := none } })
    if d.seq.st = .loaded then { d with seq := { d.seq with opening := true, attempt := 0 } } else d

/-- A takeover ends without success (R496, R499). -/
def takeoverFails (st : Status) (d : Dev) : Dev :=
  ckptAnswer st (svcEvent 4 0x3628 0 { d with ckpt := { d.ckpt with takeover := none, proposal := none } })

/-- Both devices have proposed each other: the pairing completes, or the first check that fails refuses it. -/
def decidePair (own theirs : Proposal) (d : Dev) : Dev :=
  let d : Dev := { d with ckpt := { d.ckpt with proposal := none, theirs := none } }
  let st :=
    if feedShared d theirs.feed ∧ !(own.override && theirs.override) then ST.feedShared
    else if rd d OD.tandemStoreLength < storeNeed d theirs.image ∨ !theirs.fits then ST.length
    else ST.ok
  if st ≠ ST.ok then (if d.ckpt.takeover.isSome then takeoverFails st d else ckptAnswer st d)
  else
    let byOver := own.override || theirs.override
    let d := wr OD.partnerDevice own.dev { d with ckpt := { d.ckpt with partnerOverride := byOver, constDue := true } }
    let d := svcEvent 4 0x3621 0 d
    let d := if byOver then svcEvent 4 0x3622 0 d else d
    takeoverPaired (ckptAnswer ST.ok d)

/-- A proposal made, and decided where the other device's is here. -/
def propose (dev : Nat) (override : Bool) (d : Dev) : Dev :=
  let own : Proposal := { dev, override, at_ := d.tick, feed := rd d OD.powerFeedId, image := imageBytes d, fits := true }
  let d := sendAs 4 (.proposal dev override own.feed own.image) { d with ckpt := { d.ckpt with proposal := some own } }
  match d.ckpt.theirs with
  | some t => if t.dev = dev ∧ d.tick ≤ t.at_ + rd d OD.gateWaitLimit then decidePair own t d else d
  | none => d

/-- Whether a device may be proposed: a P3 member of the gate group, another device, and this one not paired elsewhere. -/
def proposable (d : Dev) (dev : Nat) : Bool :=
  ((gateTree d).map (fun t => t.members.any (fun m => m.2 == dev))).getD false && dev != devNo d &&
  (rd d OD.partnerDevice == 0xFFFF || rd d OD.partnerDevice == dev)

def partnerOp (dev : Nat) (override : Bool) : WriteOp := fun d =>
  if rd d OD.checkpointState = 0 ∨ rd d OD.tandemStoreLength = 0 ∨ (d.seq.st ≠ .loaded ∧ d.seq.st ≠ .halted)
      ∨ !proposable d dev then (ST.state, d)
  else (ST.ok, propose dev override (setCommandStatus OD.checkpointCommand ST.pending d))

/-- PARTNER. -/
def execPartner (p : Path) (dev : Nat) (override reserved : Bool) (s : State) : Out :=
  ckptCommand p [2 + (if override then 16 else 0), dev] (reserved || decide (2 ^ 15 ≤ dev)) (partnerOp dev override) s

/-- PARTNER_PROPOSAL_RECEIVED. -/
def proposalReceived (dev : Nat) (override : Bool) (feed image : Nat) (fits : Bool) (d : Dev) : Dev :=
  let t : Proposal := { dev, override, at_ := d.tick, feed, image, fits }
  match d.ckpt.proposal with
  | some own => if own.dev = dev then decidePair own t d else { d with ckpt := { d.ckpt with theirs := some t } }
  | none => { d with ckpt := { d.ckpt with theirs := some t } }

def execPartnerProposalReceived (dev : Nat) (override : Bool) (feed imageBytes : Nat) (storeFits : Bool) (s : State) : Out :=
  onDev (proposalReceived dev override feed imageBytes storeFits) s

/-- PARTNER_TIMEOUT: a proposal that has not been matched within the gate wait limit. -/
def partnerTimeout (d : Dev) : Dev :=
  match d.ckpt.proposal with
  | some own =>
    if own.at_ + rd d OD.gateWaitLimit ≤ d.tick then
      (if d.ckpt.takeover.isSome then takeoverFails ST.timeout d
       else ckptAnswer ST.timeout { d with ckpt := { d.ckpt with proposal := none } })
    else d
  | none => d

def execPartnerTimeout (s : State) : Out := onDev partnerTimeout s

def unpairOp : WriteOp := fun d =>
  if d.seq.st = .idle ∨ d.seq.st = .loaded ∨ d.seq.st = .halted
  then (ST.ok, setCommandStatus OD.checkpointCommand ST.ok (endPairing d)) else (ST.state, d)

/-- UNPAIR. -/
def execUnpair (p : Path) (reserved : Bool) (s : State) : Out := ckptCommand p [3] reserved unpairOp s

/-- REFRESH (R470): CONST is due with the next copy. -/
def execRefresh (p : Path) (reserved : Bool) (s : State) : Out :=
  ckptCommand p [4] reserved
    (fun d => (ST.ok, setCommandStatus OD.checkpointCommand ST.ok { d with ckpt := { d.ckpt with constDue := true } })) s

/-! ## Reading an image (R473) -/

/-- What an image's body says before its data. -/
structure Sections where
  ctxs : List (Nat × List (W64 × W64))
  ftt : List (W64 × W64)
  groups : List (Nat × Nat × List Member)
  table : List TandemEntry
  start : Nat
  deriving DecidableEq, Repr

def natAt (b : Bytes) (o : Nat) : Nat := leNat ((b.drop o).take 8)
def wordOf (b : Bytes) (o : Nat) : W64 := BitVec.ofNat 64 (natAt b o)

/-- Groups of the membership section from an offset, and where it ends. -/
def groupsFrom (b : Bytes) : Nat → Nat → List (Nat × Nat × List Member) × Nat
  | 0, o => ([], o)
  | n + 1, o =>
    let w := natAt b o
    let k := nfld w 27 12
    let ms := (List.range k).map (fun i =>
      let e := leNat ((b.drop (o + 8 + 4 * i)).take 4)
      ({ dev := nfld e 14 0, gen := nfld e 17 16 } : Member))
    let r := groupsFrom b n (o + 8 + (4 * k + 7) / 8 * 8)
    ((nfld w 11 0, nfld w 42 28, ms) :: r.1, r.2)

/-- The tandem table that, with its data, fills the body from an offset. -/
def tableFrom (b : Bytes) (o : Nat) : Option (List TandemEntry) :=
  ((List.range 257).map (fun n => (List.range n).map (fun i => tandemOf (wordsOf 4 (b.drop (o + 32 * i)))))).find?
    (fun es => !es.isEmpty && o + 32 * es.length + (es.map (fun e => e.length)).sum == b.length)

def sectionsOf (b : Bytes) : Option Sections :=
  let nc := natAt b 4096
  let o := 4104 + 1032 * nc
  let nf := natAt b o
  let o2 := o + 8 + 16 * nf
  let ng := natAt b o2
  if 64 < nc ∨ b.length < o2 + 8 ∨ 4096 < ng then none
  else
    let gs := groupsFrom b ng (o2 + 8)
    (tableFrom b gs.2).map (fun es =>
      { ctxs := (List.range nc).map (fun i =>
          (natAt b (4104 + 1032 * i) % 64,
           (List.range 64).map (fun j => (wordOf b (4112 + 1032 * i + 16 * j), wordOf b (4120 + 1032 * i + 16 * j))))),
        ftt := (List.range nf).map (fun i => (wordOf b (o + 8 + 16 * i), wordOf b (o + 16 + 16 * i))),
        groups := gs.1, table := es, start := gs.2 + 32 * es.length })

/-- The digests of a table of n. -/
def digestsOf (n : Nat) (b : Bytes) : List Bytes := (List.range n).map (fun i => (b.drop (64 * i)).take 64)

/-- Reserved fields and marks of a header. -/
def headGood (h : Bytes) : Bool :=
  let n := chunkTotal (headWord h 4)
  headWord h 0 % 2 ^ 32 == 0x54444D43 && headGen h != 0 && headWord h 0 / 2 ^ 34 == 0 && headWord h 1 / 2 ^ 15 == 0 &&
  headWord h 2 / 2 ^ 48 == 0 && headWord h 3 == n && [5, 6, 7].all (fun i => headWord h i == 0) &&
  (h.drop 128).all (fun x => x == 0)

/-! ## The incoming copy (R480, R485, R486) -/

def setIncoming (i : Option Incoming) (d : Dev) : Dev := { d with ckpt := { d.ckpt with incoming := i } }

/-- A header and digest table arrive: the slot begins anew; captured segments stay. -/
def takeHead (h : Bytes) (d : Dev) : Dev :=
  let old := d.ckpt.incoming.getD Incoming.empty
  let head := h.take 512
  setIncoming (some { Incoming.empty with head, digests := digestsOf (headWord head 3) (h.drop 512), segments := old.segments }) d

def chunkMatches (i : Incoming) (ix : Nat) (c : Bytes) : Bool := i.digests[ix]? == some (Config.sha3_512 c)

/-- The slot sealed once every chunk and the root match: it becomes the sealed slot, and the source is told. -/
def trySeal (d : Dev) : Dev :=
  match d.ckpt.incoming with
  | none => d
  | some i =>
    if i.head.isEmpty ∨ i.chunks.length ≠ i.digests.length then d
    else if rootOf i.head i.digests ≠ headRoot i.head then failCopy d
    else
      let im : CopyImage := { head := i.head, digests := i.digests, body := i.chunks.flatMap (fun c => c.2) }
      let d := { d with ckpt := { d.ckpt with held := some im, incoming := none } }
      sendAs 4 (.sealAck (rd d OD.partnerDevice) (headStep i.head)) (wr OD.heldCopyStep (headStep i.head) d)

/-- A chunk checked: kept where it matches, asked for again up to twice, and then the copy fails. -/
def takeChunk (ix : Nat) (c : Bytes) (d : Dev) : Dev :=
  match d.ckpt.incoming with
  | none => d
  | some i =>
    if i.digests.length ≤ ix ∨ (mfind i.chunks ix).isSome then d
    else if chunkMatches i ix c then trySeal (setIncoming (some { i with chunks := mset i.chunks ix c }) d)
    else
      let n := mget 0 i.retries ix
      if n < 2 then
        sendAs 4 (.chunkRequest (rd d OD.partnerDevice) ix)
          (inc OD.chunksResent (setIncoming (some { i with retries := mset i.retries ix (n + 1) }) d))
      else failCopy d

/-- COPY_CHUNK_RECEIVE: with the first chunk of a copy its header and digest table. -/
def execCopyChunkReceive (head : Option Bytes) (ix : Nat) (chunk : Bytes) (s : State) : Out :=
  onDev (fun d =>
    if rd d OD.partnerDevice = 0xFFFF then d
    else takeChunk ix chunk (match head with
      | some h => takeHead h d
      | none => d)) s

/-- The body as far as it has arrived, zero elsewhere. -/
def partialBody (i : Incoming) : Bytes :=
  (List.range i.digests.length).flatMap (fun ix =>
    let n := Nat.min chunkBytes (headWord i.head 4 - chunkBytes * ix)
    (mget [] i.chunks ix ++ List.replicate n 0).take n)

/-- Bytes laid over a run of bytes that begins at `base`. -/
def overlay (base : Nat) (b : Bytes) (o : Nat) (x : Bytes) : Bytes :=
  (List.range b.length).map (fun j => if o ≤ base + j ∧ base + j < o + x.length then x.getD (base + j - o) 0 else b.getD j 0)

/-- A missing chunk made from what the partner holds: its former sealed slot, or a segment captured for a range that
rides. The flag says that it was captured. -/
def localChunk (d : Dev) (i : Incoming) (ix : Nat) : Option (Bytes × Bool) :=
  let old := (d.ckpt.held.map (fun h => chunkAt h.body ix)).filter (chunkMatches i ix)
  match old with
  | some c => some (c, false)
  | none =>
    let body := partialBody i
    let base := chunkBytes * ix
    match sectionsOf body with
    | none => none
    | some sec =>
      ((entrySpans sec.start sec.table).filter (fun e => e.1.ride && overlaps base chunkBytes e.2 e.1.length)).findSome? (fun e =>
        i.segments.findSome? (fun g =>
          let c := overlay base (chunkAt body ix) e.2 g.2
          if g.2.length = e.1.length ∧ chunkMatches i ix c then some (c, true) else none))

/-- COPY_REQUEST: once the trickle has drained, what this device can make of itself is taken, and the rest requested. -/
def copyRequest (d : Dev) : Dev :=
  match d.ckpt.incoming with
  | none => d
  | some i0 =>
    if i0.head.isEmpty then d
    else
      let d := (List.range i0.digests.length).foldl (fun d ix =>
        match d.ckpt.incoming with
        | none => d
        | some i =>
          if (mfind i.chunks ix).isSome then d
          else match localChunk d i ix with
            | some (c, cap) =>
              let i' : Incoming := { i with chunks := mset i.chunks ix c, captured := if cap then i.captured ++ [ix] else i.captured }
              let d := setIncoming (some i') d
              if cap then inc OD.rideChunksCaptured d else d
            | none => sendAs 4 (.chunkRequest (rd d OD.partnerDevice) ix) d) d
      trySeal d

def execCopyRequest (s : State) : Out := onDev copyRequest s

/-! ## Seals and reports (R486, R487) -/

/-- SEAL_ACKNOWLEDGEMENT: the own copy is sealed. -/
def sealAcknowledged (step : Nat) (d : Dev) : Dev :=
  match d.ckpt.copy with
  | none => d
  | some c =>
    if c.step ≠ step ∨ c.sealed ∨ c.failed then d
    else
      let own : SealedOwn := { table := c.table, start := c.start, digests := c.digests, retries := [] }
      let d := modCopy (fun c => { c with sealed := true }) (inc OD.copiesSealed d)
      let d := { d with ckpt := { d.ckpt with sealedOwn := some own } }
      reportUp (wr OD.sealedStep step (wr OD.durabilityClass (if d.ckpt.partnerOverride then 1 else 2) d))

def execSealAcknowledgement (step : Nat) (s : State) : Out := onDev (sealAcknowledged step) s

/-- SEAL_REPORT from a child. -/
def sealReport (rank step : Nat) (failed : Bool) (d : Dev) : Dev :=
  if ((gateTree d).map (fun t => t.kids.any (fun k => k.1 == rank))).getD false then
    reportUp { d with ckpt := { d.ckpt with reports := mset d.ckpt.reports rank (step, failed) } }
  else d

def execSealReport (rank step : Nat) (failed : Bool) (s : State) : Out := onDev (sealReport rank step failed) s

/-- JOB_SEAL_NOTICE, or FAIL in its place. -/
def execJobSealNotice (step : Nat) (failed : Bool) (s : State) : Out := onDev (fun d => reportUp (takeNotice step failed d)) s

/-! ## Rewind (R488) -/

/-- The service state of a service block. -/
def putService (b : Bytes) (d : Dev) : Dev :=
  let d := wr OD.stepNumber (natAt b 0 % 2 ^ 48) (wr OD.jobDataPosition (natAt b 8) (wr OD.globalBatch (natAt b 16 % 2 ^ 32) d))
  wrBytes OD.streamState ((b.drop 32).take 16) (wrBytes OD.jobSeed ((b.drop 48).take 16)
    (wrBytes OD.shardCursors ((b.drop 64).take 2048) d))

/-- A HALTED member returns from its committed step to the one before: nothing where it holds no snapshot of it. -/
def rewind (step : Nat) (d : Dev) : Dev :=
  match d.ckpt.snaps.find? (fun s => s.step == step) with
  | none => d
  | some sn =>
    let f := d.ckpt.flipLog
    let h := d.seq.half
    let d := { d with seq := { d.seq with half := h.filter (fun l => !f.contains l) ++ f.filter (fun l => !h.contains l) } }
    let d := sn.meta_.foldl (fun d m => putMem m.1 m.2 d) d
    let d := endWait (putService sn.service d)
    svcEvent 4 0x3624 0 (inc OD.rewinds { d with ckpt := { d.ckpt with flipLog := [], snaps := [sn], copy := none } })

/-- REFETCH_NOTICE: a member whose committed step follows the named one discards its open step, rewinds, and runs both
again. -/
def refetchNotice (step : Nat) (d : Dev) : Dev :=
  if rd d OD.stepNumber ≠ step + 2 ∨ d.seq.st = .idle ∨ !(d.ckpt.snaps.any (fun s => s.step == step)) then d
  else
    let d := rewind step (enterHalted d)
    { d with seq := { d.seq with opening := true, attempt := 0 } }

def execRefetchNotice (step : Nat) (s : State) : Out := onDev (refetchNotice step) s

/-! ## Refetch (R489) -/

/-- Bytes of a body that lie in chunks at hand, none where a chunk they need is not among them. -/
def bytesFrom (cs : List (Nat × Bytes)) (o n : Nat) : Option Bytes :=
  let b := (List.range n).filterMap (fun j =>
    (cs.find? (fun c => c.1 == (o + j) / chunkBytes)).bind (fun c => c.2[(o + j) % chunkBytes]?))
  if b.length = n then some b else none

/-- The poisoned lines that chunks of the sealed copy hold whole, written into their committed halves. -/
def putChunks (own : SealedOwn) (cs : List (Nat × Bytes)) (d : Dev) : Dev :=
  (entrySpans own.start own.table).foldl (fun d e =>
    (List.range (e.1.length / 64)).foldl (fun d j =>
      let l := e.1.addr / 64 + j
      match (if poisoned d.mem (committedPlace d (64 * l) / 64) then bytesFrom cs (e.2 + 64 * j) 64 else none) with
      | some b => putCommitted l b d
      | none => d) d) d

/-- Entry of the sealed copy that holds a line. -/
def sealedEntry (d : Dev) (l : Nat) : Option TandemEntry :=
  d.ckpt.sealedOwn.bind (fun own => own.table.find? (fun e => inEntry e l))

/-- A fetched chunk that does not match is asked for again, up to twice; after that the copy that the partner holds is
damaged (R476, R486, R489). -/
def chunkRefused (ix : Nat) (d : Dev) : Dev :=
  match d.ckpt.sealedOwn with
  | none => d
  | some own =>
    let n := mget 0 own.retries ix
    if n < 2 then
      inc OD.chunksResent { d with ckpt := { d.ckpt with sealedOwn := some { own with retries := mset own.retries ix (n + 1) } } }
    else wr OD.durabilityClass 0 d

/-- Fetched chunks, each checked against the digests of the sealed copy, and written. -/
def putFetched (fetched : List (Nat × Bytes)) (d : Dev) : Dev :=
  match d.ckpt.sealedOwn with
  | none => d
  | some own =>
    let ok := fun (c : Nat × Bytes) => own.digests[c.1]? == some (Config.sha3_512 c.2)
    let good := fetched.filter ok
    let d := (fetched.filter (fun c => !ok c)).foldl (fun d c => chunkRefused c.1 d) d
    if good.isEmpty then d else svcEvent 4 0x3625 0 (inc OD.refetches (putChunks own good d))

/-- REFETCH of a poisoned committed line, with the chunks that the partner has sent. -/
def refetch (l : Nat) (fetched : List (Nat × Bytes)) (d : Dev) : Dev :=
  match sealedEntry d l with
  | none => d
  | some e =>
    if rd d OD.partnerDevice = 0xFFFF ∨ !poisoned d.mem (committedPlace d (64 * l) / 64) then d
    else if e.cls = clsConst then putFetched fetched d
    else
      let d := if d.seq.st = .open then abandonFor 4 d else d
      let next := rd d OD.stepNumber
      let own := rd d OD.sealedStep
      if own + 1 = next then putFetched fetched d
      else if own + 2 = next then
        let to_ := ((gateTree d).map (fun t => t.members.map (fun m => m.2))).getD []
        let d := (to_.filter (fun x => x != devNo d)).foldl (fun d x => sendAs 4 (.refetchNotice x own) d) d
        putFetched fetched (refetchNotice own d)
      else d

def execRefetch (line : Nat) (fetched : List (Nat × Bytes)) (s : State) : Out := onDev (refetch line fetched) s

/-! ## RESTORE (R490-R494) -/

/-- An image of bytes: header, digests, body. -/
def imageFrom (b : Bytes) : CopyImage :=
  let h := b.take 512
  let n := chunkTotal (headWord h 4)
  let t := (64 * n + 4095) / 4096 * 4096
  { head := h, digests := digestsOf n (b.drop 512), body := (b.drop (512 + t)).take (headWord h 4) }

/-- The bytes of an image in local memory, with the status of reading them. -/
def imageInMemory (d : Dev) (a : Nat) : Status × Bytes :=
  let r := readMem d a 512
  if r.1 ≠ ST.ok ∨ !headGood r.2 then r
  else
    let b := headWord r.2 4
    readMem d a (512 + (64 * chunkTotal b + 4095) / 4096 * 4096 + b)

/-- The layer at which a RESTORE of an image begins, none where it is refused. -/
def firstLayer (d : Dev) (im : CopyImage) : Option Nat :=
  if d.ckpt.lastRoot = some (headRoot im.head) then some 3
  else if allFree d then some (if headGen im.head = 3 then 1 else 2)
  else if headGen im.head = 3 ∨ d.ckpt.lastRoot.isSome then none
  else some 2

def restoreOp (memory : Bool) (a lost : Nat) (held : Option Bytes) : WriteOp := fun d =>
  if d.seq.st ≠ .idle then (ST.state, d)
  else
    let got : Status × Bytes := if memory then imageInMemory d a else
      match held with
      | some b => (ST.ok, b)
      | none => (ST.noCopy, [])
    let im := imageFrom got.2
    if got.1 ≠ ST.ok then (got.1, d)
    else if !headGood im.head then (ST.invalid, d)
    else if !memory ∧ headDev im.head ≠ lost then (ST.noCopy, d)
    else match firstLayer d im with
      | none => (ST.state, d)
      | some k =>
        if rootOf im.head im.digests ≠ headRoot im.head then (ST.digest, d)
        else
          let d := wr OD.restoreLayer (k - 1) (wr OD.restoreStatus 0 d)
          let d := { d with ckpt := { d.ckpt with restore := some { image := im, layer := k, skew := false } } }
          (ST.ok, setCommandStatus OD.checkpointCommand ST.pending d)

/-- RESTORE. -/
def execRestore (p : Path) (fromMemory : Bool) (arg1 arg2 : Nat) (held : Option Bytes) (reserved : Bool) (s : State) : Out :=
  ckptCommand p [5 + (if fromMemory then 32 else 0), arg1, arg2]
    (reserved || decide ((if fromMemory then 2 ^ 49 else 2 ^ 15) ≤ arg1) || decide (2 ^ 15 ≤ arg2))
    (restoreOp fromMemory arg1 arg2 held) s

/-- The lost device's number replaced by the own one. -/
def ownFor (d : Dev) (src dev : Nat) : Nat := if dev = src then devNo d else dev

/-- One context of the image created, with its regions. -/
def restoreCtx (c : Nat × List (W64 × W64)) (x : Status × Dev) : Status × Dev :=
  if x.1 ≠ ST.ok then x
  else
    let r := createCtx c.1 x.2
    if r.1 ≠ ST.ok then r
    else (List.range 64).foldl (fun (y : Status × Dev) i =>
      let w := c.2.getD i (0, 0)
      if y.1 ≠ ST.ok then y
      else if w.1 = 0 ∧ w.2 = 0 then y
      else if regionBad w.1 w.2 then (ST.invalid, y.2) else setRegion c.1 i w.1 w.2 y.2) r

/-- One FTT entry of the image inserted in both copies. -/
def restoreEntry (src : Nat) (e : W64 × W64) (x : Status × Dev) : Status × Dev :=
  if x.1 ≠ ST.ok then x
  else
    let d := x.2
    let f := entryOf e.1 e.2
    let f := { f with tgt := ownFor d src (f.tgt / 2 ^ 33) * 2 ^ 33 + f.tgt % 2 ^ 33 }
    let st := if entryBad e.1 e.2 true then ST.invalid else insertStatus d.tw.ftt0 f
    if st ≠ ST.ok then (st, noteFull st d)
    else (ST.ok, { d with tw := { d.tw with ftt0 := d.tw.ftt0 ++ [f], ftt1 := d.tw.ftt1 ++ [f] } })

/-- One group of the image whose admission begins. -/
def restoreGroup (src : Nat) (g : Nat × Nat × List Member) (x : Status × Dev) : Status × Dev :=
  if x.1 ≠ ST.ok then x
  else
    let d := x.2
    let ms := g.2.2.map (fun m => { m with dev := ownFor d src m.dev })
    if (mfind d.seq.groups g.1).isSome then (ST.state, d)
    else if ms.isEmpty ∨ !listGood d g.2.1 ms then (ST.invalid, d)
    else (ST.ok, startAdmission g.1 g.2.1 ms d)

/-- RESTORE_ROUTING: layer 1; a refusal of one of its commands ends the restore. -/
def restoreRouting (d : Dev) : Dev :=
  match d.ckpt.restore with
  | none => d
  | some r =>
    if r.layer ≠ 1 ∨ d.tw.fttPending.isSome then d
    else match sectionsOf r.image.body with
      | none => restoreEnd ST.invalid d
      | some sec =>
        let src := headDev r.image.head
        let x := sec.ctxs.foldl (fun x c => restoreCtx c x) (ST.ok, d)
        let x := sec.ftt.foldl (fun x e => restoreEntry src e x) x
        let x := sec.groups.foldl (fun x g => restoreGroup src g x) x
        if x.1 ≠ ST.ok then restoreEnd x.1 x.2
        else { x.2 with ckpt := { x.2.ckpt with restore := some { r with layer := 2 } } }

def execRestoreRouting (s : State) : Out := onDev restoreRouting s

/-- The service block of an image read by its generation (R494); none where a value passes its width. -/
def serviceOf (gen : Nat) (b : Bytes) : Option Bytes :=
  let wide := if gen = 1 then natAt b 0 / 2 ^ 32 != 0 || natAt b 8 / 2 ^ 40 != 0 else natAt b 0 / 2 ^ 48 != 0
  let cursors := if gen = 1 then 16 else if gen = 2 then 32 else 64
  let seed := if gen = 1 then (b.drop 48).take 8 ++ List.replicate 8 0 else (b.drop 48).take 16
  if wide || natAt b 16 / 2 ^ 32 != 0 then none
  else some (b.take 48 ++ seed ++ ((b.drop 64).take (32 * cursors) ++ List.replicate 2048 0).take 2048)

/-- The ranges of a class test written from the body. -/
def writeEntries (f : Nat → Bool) (body : Bytes) (sec : Sections) (d : Dev) : Status × Dev :=
  ((entrySpans sec.start sec.table).filter (fun e => f e.1.cls)).foldl (fun (x : Status × Dev) e =>
    if x.1 ≠ ST.ok then x else writeMem e.1.addr ((body.drop e.2).take e.1.length) x.2) (ST.ok, d)

/-- The streams checked against the position, which wins (R492). -/
def checkStreams (b : Bytes) (d : Dev) : Bool × Dev :=
  if natAt b 32 = natAt b 0 ∧ natAt b 40 = natAt b 8 then (false, d)
  else (true, svcEvent 4 0x3623 0 (wrBytes OD.streamState (leBytes 8 (natAt b 0) ++ leBytes 8 (natAt b 8)) d))

/-- RESTORE_POSITION: layer 2, once every group of the image is admitted. -/
def restorePosition (d : Dev) : Dev :=
  match d.ckpt.restore with
  | none => d
  | some r =>
    let gen := headGen r.image.head
    if r.layer ≠ 2 then d
    else match sectionsOf r.image.body, serviceOf gen r.image.body with
      | some sec, some b =>
        if gen = 3 ∧ sec.groups.any (fun g => groupCode d g.1 != 2) then d
        else
          let x := writeEntries (fun c => decide (2 ≤ c)) r.image.body sec (wr OD.restoreLayer 1 d)
          if x.1 ≠ ST.ok then restoreEnd x.1 x.2
          else
            let y := checkStreams b (putService b x.2)
            let root := some (headRoot r.image.head)
            let c : CkptState := { y.2.ckpt with restore := some { r with layer := 3, skew := y.1 }, lastRoot := root }
            wr OD.restoreLayer 2 { y.2 with ckpt := c }
      | _, _ => restoreEnd ST.invalid d

def execRestorePosition (s : State) : Out := onDev restorePosition s

/-- RESTORE_TENSORS: layer 3; every chunk is checked, PARAM and STATE are written as plain memory, and the image's table is
taken as configured. -/
def restoreTensors (d : Dev) : Dev :=
  match d.ckpt.restore with
  | none => d
  | some r =>
    if r.layer ≠ 3 then d
    else match sectionsOf r.image.body with
      | none => restoreEnd ST.invalid d
      | some sec =>
        if chunkDigests r.image.body ≠ r.image.digests then restoreEnd ST.digest d
        else
          let x := writeEntries (fun c => decide (c < 2)) r.image.body sec d
          if x.1 ≠ ST.ok then restoreEnd x.1 x.2
          else
            let c : CkptState := { x.2.ckpt with table := sec.table, lastRoot := none, snaps := [], flipLog := [] }
            let d := wr OD.restoreLayer 3 (wr OD.checkpointState 1 { x.2 with ckpt := c })
            restoreEnd (if r.skew then ST.streamSkew else ST.ok) d

def execRestoreTensors (s : State) : Out := onDev restoreTensors s

/-! ## Losing a module (R495-R499) -/

/-- A takeover begins: the partner is declared lost. -/
def beginTakeover (lost : Nat) (d : Dev) : Dev :=
  let t : TakeoverRun := { lost, spare := none, table := d.seq.table, leads := true }
  svcEvent 4 0x3626 lost { d with ckpt := { d.ckpt with takeover := some t, probeAt := none } }

/-- PROBE_TIMEOUT: the partner's service has not answered within T_retry. -/
def probeTimeout (d : Dev) : Dev :=
  match d.ckpt.probeAt with
  | none => d
  | some t =>
    if d.seq.st ≠ .halted ∨ d.tick < t + tRetry d ∨ d.ckpt.takeover.isSome then d
    else if rd d OD.autoResume = 1 then beginTakeover (rd d OD.partnerDevice) d
    else { d with ckpt := { d.ckpt with probeAt := none } }

def execProbeTimeout (s : State) : Out := onDev probeTimeout s

def takeoverOp (dev : Nat) : WriteOp := fun d =>
  if dev ≠ rd d OD.partnerDevice ∨ d.seq.st ≠ .halted ∨ d.ckpt.takeover.isSome then (ST.state, d)
  else (ST.ok, beginTakeover dev (setCommandStatus OD.checkpointCommand ST.pending d))

/-- TAKEOVER. -/
def execTakeover (p : Path) (dev : Nat) (reserved : Bool) (s : State) : Out :=
  ckptCommand p [6, dev] (reserved || decide (2 ^ 15 ≤ dev)) (takeoverOp dev) s

/-- FTT entries that name a lost device reach the spare. -/
def retarget (gone : List Nat) (spare : Nat) (t : List FttEntry) : List FttEntry :=
  t.map (fun e => if gone.contains (e.tgt / 2 ^ 33) then { e with tgt := spare * 2 ^ 33 + e.tgt % 2 ^ 33 } else e)

/-- Groups that hold a lost device are released and admitted anew with the spare at its rank. -/
def readmit (gone : List Nat) (spare : Nat) (d : Dev) : Dev :=
  (d.seq.groups.filter (fun g => g.2.members.any (fun m => gone.contains m.dev))).foldl (fun d g =>
    let ms := g.2.members.map (fun m => if gone.contains m.dev then { m with dev := spare } else m)
    startAdmission g.1 g.2.rank ms d) d

/-- What a survivor does (R497 2). One that must rewind and cannot is a second fault (R499). -/
def survive (lost spare target : Nat) (leads : Bool) (d : Dev) : Dev :=
  let old := d.ckpt.takeover.bind (fun t => if t.lost = lost then t.spare else none)
  let table := ((d.ckpt.takeover.filter (fun t => t.lost == lost)).map (fun t => t.table)).getD d.seq.table
  let d := if d.seq.st = .open ∨ d.seq.st = .gate ∨ d.seq.st = .committing then enterHalted d else d
  let above := decide (target + 1 < rd d OD.stepNumber)
  if above ∧ !(rd d OD.stepNumber == target + 2 && d.ckpt.snaps.any (fun s => s.step == target) && d.seq.st == .halted)
  then takeoverFails ST.noCopy d
  else
    let d := if above then rewind target d else d
    let d := if d.seq.st = .idle then d else unloadTable d
    let gone := lost :: old.toList
    let d := readmit gone spare d
    { d with tw := { d.tw with ftt0 := retarget gone spare d.tw.ftt0, ftt1 := retarget gone spare d.tw.ftt1 },
             ckpt := { d.ckpt with takeover := some { lost, spare := some spare, table, leads } } }

/-- TAKEOVER_NOTICE. -/
def execTakeoverNotice (lost spare target : Nat) (s : State) : Out := onDev (survive lost spare target false) s

/-- The first device of the spare table that accepts. -/
def spareChosen (d : Dev) (answers : List Bool) : Option Nat :=
  let t := rdFull d OD.spareTable
  ((List.range 16).map (fun i => (leNat ((t.drop (2 * i)).take 2), answers.getD i false))).findSome? (fun e =>
    if e.2 ∧ e.1 < 2 ^ 15 then some e.1 else none)

/-- SPARE_CLAIM: the answers of the spare table's devices, and what the surviving members report in OD 0x3621.05. -/
def spareClaim (answers : List Bool) (steps : List Nat) (d : Dev) : Dev :=
  match d.ckpt.takeover with
  | none => d
  | some t =>
    if !t.leads then d
    else match spareChosen d answers with
      | none => takeoverFails ST.noSpare d
      | some x =>
        let known := (rd d OD.jobSealedStep :: steps).filter (fun n => decide (n < 2 ^ 48))
        if known.isEmpty then takeoverFails ST.noCopy d
        else
          let target := known.foldl Nat.max 0
          let to_ := ((gateTree d).map (fun g => g.members.map (fun m => m.2))).getD []
          let to_ := to_.filter (fun m => m != devNo d && m != t.lost)
          let d := to_.foldl (fun d m => sendAs 4 (.takeoverNotice m t.lost x target) d) d
          let d := survive t.lost x target true d
          if d.ckpt.takeover.isNone then d
          else
            let held := d.ckpt.held
            let step := rd d OD.heldCopyStep
            let d := endPairing d
            propose x false (wr OD.heldCopyStep step { d with ckpt := { d.ckpt with held } })

def execSpareClaim (answers : List Bool) (sealedSteps : List Nat) (s : State) : Out := onDev (spareClaim answers sealedSteps) s

end Sys2Proof.Machine
end

