-- ==== Sys2Proof/Machine/Links.lean ====
section
/-!
DEFINITION. The optical ports: flits received, NAK and ACK, giving up a link, lanes and the spare, outages, laser inputs,
training and link authentication, edge links (R365-R388, R587, R588).
-/

namespace Sys2Proof.Machine

/-! ## A port goes down (R379) -/

/-- Everything a port still had to deliver. -/
def undelivered (x : Port) : List Item := x.kept.flatMap (fun k => k.items) ++ x.tailItem.toList ++ (x.vc0 ++ x.vc1).map (fun q => q.item)

/-- A port that goes down: EV_3102, lost completions for what it held, and training from the beginning, or a state that
keeps it down. -/
def portDown (st : Nat) (p : Nat) (d : Dev) : Dev :=
  if !portUp d p then d
  else
    let held := undelivered (portOf d p)
    let served := if rd d OD.topologyClass = 0 then [portPeer d p] else (d.tw.planes.filter (fun m => m.2.testBit p)).map (fun m => m.1)
    let d := raise (ldPort (p / 16)) 0x3102 p 0 [] (inc OD.linkGiveUps (setPort p Port.new (wr (OD.portState + p) st d)))
    let d := served.foldl (fun d dev => noteUnreachable dev d) d
    setReady (fabricPortFn p) RS.init 1 (held.foldl (loseItem p) d)

/-- Every port goes down. -/
def allPortsDown (d : Dev) : Dev := times 32 (portDown 1) d

/-- LINK_GIVE_UP: a DATA flit unacknowledged for T_lr. -/
def execLinkGiveUp (port : Nat) (s : State) : Out :=
  onDev (fun d => match (portOf d port).kept with
    | k :: _ => if k.sentAt + rd d OD.replayBudget ≤ d.tick then portDown 1 port d else d
    | [] => d) s

/-- RETRAIN: the port trains again. -/
def execRetrain (port : Nat) (s : State) : Out := onDev (portDown 1 port) s

/-! ## Lanes (R380-R382) -/

/-- LANE_MOVE: a move of a logical lane to the spare is agreed for a pair; it is made when the pairs have come to it. -/
def laneMove (p i pair : Nat) (d : Dev) : Dev :=
  if portUp d p && decide (i < 4) && spareFree d p then
    settleMove p (setPort p { portOf d p with moving := some (i, pair % 2 ^ 16) } d)
  else d

def execLaneMove (port lane pair : Nat) (s : State) : Out := onDev (laneMove port lane pair) s

/-- The pair count of a move that this end asks for: at least 64 beyond the further of its two counts. -/
def movePair (x : Port) (beyond : Nat) : Nat :=
  ((if pairReached x.txPairs x.rxPairs then x.txPairs else x.rxPairs) + 64 + beyond) % 2 ^ 16

/-- LANE_DEGRADE: a logical lane whose pre-FEC error ratio over 1 ms exceeds the limit; the receiver asks for the move,
`beyond` pairs later than R380 makes it choose. A count half the range ahead or more would name a pair that is past. -/
def laneDegrade (p i beyond : Nat) (d : Dev) : Dev :=
  let x := portOf d p
  let above := decide (x.windowAt + 1000 ≤ d.tick) && decide (ratBits (rd d OD.laneDegradeRatio) < laneRatio x i)
  if portUp d p && decide (i < 4) && decide (beyond < 32704) && above && spareFree d p && x.moving.isNone then
    setPort p { x with control := x.control ++ [.laneMove i (movePair x beyond)], moving := some (i, movePair x beyond) } d
  else d

def execLaneDegrade (port lane beyond : Nat) (s : State) : Out := onDev (laneDegrade port lane beyond) s

/-- LANE_FAIL: the receiver of a physical lane loses signal or lock: its logical lane moves to the spare, or the port goes
down. A port in outage makes no move. -/
def laneFail (p k : Nat) (d : Dev) : Dev :=
  if !portUp d p ∨ (portOf d p).outage.isSome ∨ 5 ≤ k ∨ laneFailed d p k then d
  else
    let can := spareFree d p
    let d := wr (OD.laneMap + p) (rd d (OD.laneMap + p) + 2 ^ (12 + k)) d
    match logicalOf d p k with
    | some i => if can then moveLane p i (setPort p { portOf d p with moving := none } d) else portDown 1 p d
    | none => d

def execLaneFail (port lane : Nat) (s : State) : Out := onDev (laneFail port lane) s

/-- PORT_OUTAGE: every lane loses lock together; the port holds. -/
def execPortOutage (port : Nat) (s : State) : Out :=
  onDev (fun d => if portUp d port then setPort port { portOf d port with outage := some d.tick } d else d) s

/-- OUTAGE_HOLD_EXPIRY: the port resumes by replay or goes down. -/
def execOutageHoldExpiry (port : Nat) (relocked : Bool) (s : State) : Out :=
  onDev (fun d => match (portOf d port).outage with
    | none => d
    | some t =>
      if relocked then resendAll port (setPort port { portOf d port with outage := none } d)
      else if t + rd d OD.outageHold ≤ d.tick then portDown 1 port d else d) s

/-! ## Receiving (R370, R371, R378) -/

/-- The effect of a CONTROL flit's body. -/
def takeControl (p : Nat) (body : Bytes) (d : Dev) : Dev :=
  match body with
  | 0x01 :: _ => resendAll p d
  | 0x02 :: lane :: rest => laneMove p lane.toNat (leNat (rest.take 2)) d
  | 0x03 :: _ => portDown 1 p d
  | _ => d

/-- Payload P of the link's generation (R372). -/
def linkPayload (d : Dev) (p : Nat) : Nat := match portGen d p with | 1 => 64 | 2 => 128 | _ => 256

/-- A flit that is good. -/
def takeFlit (p : Nat) (flit : Bytes) (d : Dev) : Dev :=
  let h := leNat (flit.take 8)
  let kind := nfld h 63 62
  if kind = 3 then d
  else
    let d := setPort p (takeCredits (nfld h 37 36) (nfld h 35 24) (takeAck d.tick (nfld h 49 38) (portOf d p))) d
    if kind = 2 then takeControl p (flit.drop 8) d
    else if kind = 1 then d
    else
      let seq := nfld h 61 50
      let gap := (seq + 4096 - (portOf d p).rxNext) % 4096
      if gap = 0 then takeData p (linkPayload d p) (flit.drop 8) d
      else if gap < 2048 then askNak p d
      else d

/-- Levels of each lane in the pair that a port receives next, a marker before it included. -/
def pairLevels (d : Dev) (p : Nat) : Nat :=
  (Fec.markerBits (portOf d p).rxPairs + Fec.codedBits (portInner d p)) / 2

/-- The levels of a received pair on each physical lane; a dark lane reads as zeros. -/
def heardLevels (d : Dev) (p : Nat) (lanes : List (Option Nat)) : List Nat :=
  (List.range 5).map (fun k => ((lanes.getD k none).getD 0) % 4 ^ pairLevels d p)

/-- The bits of the four logical lanes of a received pair: precoding undone, the marker passed over, the inner code decoded. -/
def heardBits (d : Dev) (p : Nat) (lanes : List (Option Nat)) : List Nat :=
  let x := portOf d p
  let n := pairLevels d p
  let heard := heardLevels d p lanes
  (List.range 4).map (fun i =>
    let k := laneNow d p x x.rxPairs i
    let v := heard.getD k 0
    let plain := if x.precode then Fec.unprecode n (x.rxLast.getD k 0) v else v
    Fec.uncodeLane (portInner d p) (Fec.fromLevels plain n >>> Fec.markerBits x.rxPairs))

/-- One pair more has come in: its count, the levels and the scrambled bits it ends with. -/
def pairHeard (p : Nat) (lanes : List (Option Nat)) (scrambled : Nat) (d : Dev) : Dev :=
  let x := portOf d p
  settleMove p (setPort p { x with
    rxPairs := (x.rxPairs + 1) % 2 ^ 16,
    rxLast := (heardLevels d p lanes).map (Fec.lastLevel (pairLevels d p)),
    rxScr := Fec.scrState x.rxScr scrambled Fec.messageBits } d)

/-- The 1,285 message bytes of a pair from its scrambled bits. -/
def flitOf (x : Port) (scrambled : Nat) : Bytes :=
  leBytes (8 + bodySize) (Fec.descramble x.rxScr scrambled Fec.messageBits)

/-- FLIT_RECEIVE: a pair as its levels come on the five physical lanes. Where a codeword is uncorrectable, or the CRC is wrong,
the flit is lost (R370, R371). In an outage only its place is counted. -/
def flitReceive (p : Nat) (lanes : List (Option Nat)) (d : Dev) : Dev :=
  if !portUp d p then d
  else
    let x := portOf d p
    let bits := heardBits d p lanes
    match Fec.decodePair bits with
    | none =>
      let d := pairHeard p lanes (Fec.rawMessage bits) d
      if x.outage.isSome then d else askNak p (inc OD.pairsUncorrectable d)
    | some (scrambled, corrected) =>
      let d := pairHeard p lanes scrambled d
      if x.outage.isSome then d
      else
        let d := countCorrected p corrected d
        let flit := flitOf x scrambled
        if flitGood flit then takeFlit p flit d else askNak p (inc OD.pairsUncorrectable d)

def execFlitReceive (port : Nat) (lanes01 lanes23 : Option Nat × Option Nat) (spare : Option Nat) (s : State) : Out :=
  onDev (flitReceive port [lanes01.1, lanes01.2, lanes23.1, lanes23.2, spare]) s

/-- NAK. -/
def execNak (port _seq : Nat) (s : State) : Out := onDev (fun d => if portUp d port then resendAll port d else d) s

/-- ACK_TIMEOUT: no advance of ACK for 4 µs while flits are outstanding. -/
def execAckTimeout (port : Nat) (s : State) : Out :=
  onDev (fun d =>
    let x := portOf d port
    if portUp d port && !x.kept.isEmpty && decide (x.ackAt + 4 ≤ d.tick) then resendAll port d else d) s

/-! ## Laser inputs (R384) -/

def activeInput (d : Dev) (e : Nat) : Nat := rd d (OD.laserActive + e)

/-- Whether a laser input is at least at the low threshold. -/
def inputGood (d : Dev) (las : Nat) : Bool :=
  match ratOf (BitVec.ofNat 32 (rd d (OD.laserInputPower + las))) with
  | some x => decide (ratBits (rd d OD.laserLowThreshold) ≤ x)
  | none => false

/-- The four ports of an engine. -/
def portsOf (e : Nat) : List Nat := [4 * e, 4 * e + 1, 4 * e + 2, 4 * e + 3]

/-- EV_3111 where the standby input of an engine has fallen below the threshold, once until it is above again (R384). -/
def noteStandby (e : Nat) (low : Bool) (d : Dev) : Dev :=
  let told := d.pow.lowStandby.contains e
  if !low then (if told then { d with pow := { d.pow with lowStandby := d.pow.lowStandby.filter (· != e) } } else d)
  else if told then d
  else raise (ldPort (e / 4)) 0x3111 e 0 [] { d with pow := { d.pow with lowStandby := e :: d.pow.lowStandby } }

/-- After a sample of the laser inputs: each engine that has an active input looks at its standby. -/
def watchStandby (d : Dev) : Dev :=
  (List.range 8).foldl (fun d e =>
    let a := activeInput d e
    if 2 ≤ a then d
    else match ratOf (BitVec.ofNat 32 (rd d (OD.laserInputPower + (2 * e + (1 - a))))) with
      | some x => noteStandby e (decide (x < ratBits (rd d OD.laserLowThreshold))) d
      | none => d) d

/-- LASER_INPUT_LOW: the active input below the threshold for so many µs. -/
def laserInputLow (e held : Nat) (d : Dev) : Dev :=
  let a := activeInput d e
  if 8 ≤ e ∨ 2 ≤ a ∨ held < 1 ∨ inputGood d (2 * e + a) then d
  else
    let port := ldPort (e / 4)
    if inputGood d (2 * e + (1 - a)) then
      let d := raise port 0x3110 e 0 [] (wr (OD.laserActive + e) (1 - a) d)
      let d := setReady (engineFn e) RS.degraded 2 d
      (portsOf e).foldl (fun d p => if portUp d p then setReady (fabricPortFn p) RS.degraded 2 d else d) d
    else
      let d := wr (OD.laserActive + e) 2 (noteStandby e true d)
      setReady (engineFn e) RS.failed 4 ((portsOf e).foldl (fun d p => portDown 1 p d) d)

def execLaserInputLow (engine held : Nat) (s : State) : Out := onDev (laserInputLow engine held) s

/-! ## Training (R386, R588) -/

/-- The message a peer signs: both nonces, the sender's first, its port, both device numbers with the sender's first; a
switch gives 0 for its number. -/
def linkMessage (peerNonce own : Bytes) (port peerDev dev : Nat) : Bytes :=
  peerNonce ++ own ++ leBytes 4 port ++ leBytes 4 peerDev ++ leBytes 4 dev

/-- Whether the topology class expects a switch at a port. -/
def wantsSwitch (d : Dev) : Bool := rd d OD.topologyClass != 0

/-- The checks of R588 on a P3 peer or switch. -/
def peerAuthentic (d : Dev) (x : Peer) (nonce : Bytes) : Bool :=
  let key := rdFull d OD.fabricAuthorityKey
  let h := leNat (x.credential.take 8)
  let sw := h.testBit 15
  x.credential.length == 4699 &&
  Config.mldsaVerify key (ascii "Twizan credential") (x.credential.take 72) (x.credential.drop 72) &&
  decide (rd d OD.minCredentialEpoch ≤ nfld h 63 32) &&
  sw == wantsSwitch d && sw == x.isSwitch &&
  nfld h 14 0 == (if sw then 0 else x.dev) &&
  decide ((x.credential.drop 8).take 64 = Config.sha3_512 x.publicKey) &&
  Config.mldsaVerify x.publicKey (ascii "Twizan link")
    (linkMessage x.nonce nonce x.port (if x.isSwitch then 0 else x.dev) (devNo d)) x.signature

/-- What this end sends: nonce, identity public key, credential, and its signature over both nonces, its own first. -/
def presentLink (p : Nat) (x : Peer) (nonce : Bytes) (d : Dev) : Dev :=
  match d.sec.identity with
  | some s =>
    let m := linkMessage nonce x.nonce p (devNo d) (if x.isSwitch then 0 else x.dev)
    send (.linkAuth p nonce (Config.mldsaPublic s) (rdFull d OD.fabricCredential)
      (Config.mldsaSign s (ascii "Twizan link") m)) d
  | none => d

/-- What authentication answers: whether the port may come up, and the device. -/
def authenticate (p : Nat) (x : Peer) (nonce : Bytes) (d : Dev) : Bool × Dev :=
  let port := ldPort (p / 16)
  if x.gen = 3 ∨ x.isSwitch then
    let d := presentLink p x nonce d
    if peerAuthentic d x nonce then (true, d)
    else (false, raise port 0x6010 p 0 [] (inc OD.linkAuthFailures d))
  else if rd d OD.legacyPeerPolicy = 1 then (true, raise port 0x6010 p (2 ^ 27) [] d)
  else (false, d)

/-- The lane rate of a port and its peer, and whether the inner code is on: agreed by both, at 224 Gbit/s only (R369). -/
def innerOn (d : Dev) (x : Peer) (rate : Nat) : Bool :=
  rate == 3 && x.inner && match rd d OD.innerCodeMode with
    | 0 => false
    | 1 => true
    | _ => match ratOf x.ber with
      | some b => decide (mkRat 1 100000 < b)
      | none => true

/-- The lane map after training: logical lanes on the working lanes, L4 last; none with fewer than four. -/
def trainedMap (bad : Nat) : Option Nat :=
  let good := (List.range 5).filter (fun k => !bad.testBit k)
  let own := (List.range 4).map (fun i => if bad.testBit i then 4 else i)
  if good.length < 4 then none
  else some ((own.zipIdx.map (fun l => l.1 * 2 ^ (3 * l.2))).sum + bad % 32 * 2 ^ 12)

/-- A port that failed training. -/
def trainFailed (p : Nat) (d : Dev) : Dev := setPort p { portOf d p with retryAt := some d.tick } d

/-- The lanes that failed to lock, marked in the map (R386). -/
def markLanes (p bad : Nat) (d : Dev) : Dev :=
  wr (OD.laneMap + p) (rd d (OD.laneMap + p) % 2 ^ 12 + bad % 32 * 2 ^ 12) d

/-- Credits and SEQ 0 that this end gives a peer: those of the link's channels, and the packets it may have outstanding here (R360,
R377). -/
def trainCredits (p : Nat) (x : Peer) (d : Dev) : Dev :=
  send (.trainingCredits p Port.new.credit0 Port.new.credit1 Port.new.txSeq (if x.gen = 1 then 16 else wDst d)) d

/-- A port comes up: its state, its map, what it learns of its peer, fresh sequence numbers and credits, EV_3103. -/
def portComesUp (p : Nat) (x : Peer) (map : Nat) (d : Dev) : Dev :=
  let rate := Nat.min 3 x.rate
  let spare := map / 2 ^ 12 % 16 != 0
  let st := (if spare then 3 else 2) + rate * 2 ^ 3 + x.gen % 4 * 2 ^ 5 + (if innerOn d x rate then 2 ^ 7 else 0) +
    (if x.isSwitch then 0 else x.dev % 2 ^ 15) * 2 ^ 16
  let d := wr (OD.laneMap + p) map (wr (OD.portState + p) st (setPort p { Port.new with ackAt := d.tick, windowAt := d.tick, precode := x.precode } (trainCredits p x d)))
  let d := if x.isSwitch then d else setPeerGen x.dev x.gen d
  let d := if x.gen = 2 ∧ !x.isSwitch then { d with tw := { d.tw with windows := mset d.tw.windows x.dev x.window } } else d
  let d := noteReachable d
  let low := spare || readyState d (engineFn (p / 4)) == RS.degraded
  setReady (fabricPortFn p) (if low then RS.degraded else RS.ready) (if low then 2 else 0)
    (raise (ldPort (p / 16)) 0x3103 p 0 [] d)

/-- PORT_TRAINING: this end's training frame, what the far end presents, none where nothing answers, and this end's nonce. -/
def portTraining (p : Nat) (peer : Option Peer) (nonce : Bytes) (d : Dev) : Dev :=
  if 32 ≤ p ∨ portUp d p ∨ (portOf d p).retryAt.isSome ∨ readyState d (fabricPortFn p) = RS.failed then d
  else if !(rd d OD.portEnable).testBit p then
    setReady (fabricPortFn p) RS.absent 6 (wr (OD.portState + p) 4 d)
  else if !(works d (linkDieFn (p / 16)) && works d (engineFn (p / 4)) && works d OD.readySecurity) then d
  else
    let d := setReady (fabricPortFn p) RS.init 1 (wr (OD.portState + p) 1 d)
    let d := send (.trainingFrame p 3 (devNo d) 3 true true) d
    match peer with
    | none => trainFailed p d
    | some x =>
      let bad := if x.spare && x.gen != 1 then x.lanesBad % 32 else Nat.lor (x.lanesBad % 32) 16
      match trainedMap (if bad % 16 = 0 then x.lanesBad % 32 else bad) with
      | none => trainFailed p (markLanes p x.lanesBad d)
      | some map =>
        let a := authenticate p x nonce d
        if a.1 then portComesUp p x map a.2 else trainFailed p a.2

def execPortTraining (port : Nat) (peer : Option Peer) (nonce : Bytes) (s : State) : Out :=
  onDev (portTraining port peer nonce) s

/-- TRAINING_RETRY: 1 s after a failed training the port tries again. -/
def execTrainingRetry (port : Nat) (s : State) : Out :=
  onDev (fun d => match (portOf d port).retryAt with
    | some t => if t + 1000000 ≤ d.tick then setPort port { portOf d port with retryAt := none } d else d
    | none => d) s

/-! ## Edge links (R388, R628) -/

/-- EDGE_LINK_STATE_CHANGE of an edge port in the PCIe role; it comes up while PERST_N is released, at a rate and width of R388,
its function in D0 or D3hot. The rate and width of a link that is not up read 0. -/
def edgeLink (e state rate width : Nat) (d3hot : Bool) (d : Dev) : Dev :=
  if 2 ≤ e ∨ edgeRoleOf d e ≠ 1 ∨ 2 < state ∨ (state ≠ 0 ∧ !works d (linkDieFn e))
      ∨ (state = 2 ∧ (mget false d.pow.perst e ∨ !linkFormed rate width)) then d
  else
    let d := setEdgeLink e (if state = 2 then linkWord rate width else state) d
    let d := { d with pow := { d.pow with
      d3hot := mput false d.pow.d3hot e (decide (state = 2) && d3hot),
      aer := if state = 2 then d.pow.aer else mput 0 d.pow.aer e 0 } }
    if state = 2 then setReady (edgeFn e) RS.ready 0 d else setReady (edgeFn e) RS.init 1 d

def execEdgeLinkStateChange (edge state : Nat) (rateWidth : Nat × Nat) (d3hot : Bool) (s : State) : Out :=
  onDev (edgeLink edge state rateWidth.1 rateWidth.2 d3hot) s

/-- FUNDAMENTAL_RESET: PERST_N of an edge port in the PCIe role asserted, which takes its link down, or released. -/
def execFundamentalReset (edge : Nat) (asserted : Bool) (s : State) : Out :=
  onDev (fun d =>
    if 2 ≤ edge ∨ edgeRoleOf d edge ≠ 1 then d
    else
      let down := if asserted then edgeLink edge 0 0 0 false d else d
      { down with pow := { down.pow with perst := mput false down.pow.perst edge asserted } }) s

end Sys2Proof.Machine
end

