-- ==== Sys2Proof/Machine/Pace.lean ====
section
/-!
DEFINITION. The guide model, the supply setpoint and its ramp, the pace monitors, the event and trace FIFOs, and the tick
(R36-R46, R52-R59, R62, R600).
-/

namespace Sys2Proof.Machine

/-! ## The guide model -/

/-- floor(n^(1/5)) for n below 2^400. -/
def iroot5 (n : Nat) : Nat :=
  (List.range 80).foldl (fun acc i => let t := acc + 2 ^ (79 - i); if t ^ 5 ≤ n then t else acc) 0

/-- q^1.6, the fifth root of q^8 to 2^-60 (log entry 14). -/
def pow16 (q : ℚ) : ℚ := mkRat (iroot5 (⌊q ^ 8 * 2 ^ 300⌋).toNat) (2 ^ 60)

/-- t_step of the guide model in ns, from volts and °C. -/
def guideModel (v t : ℚ) : ℚ :=
  571 / 1000 * pow16 (75 / 100 / v) * (1 + 11 / 10000 * (t - 70))

/-- An FP32 object that has been measured, as a number. -/
def measured (d : Dev) (key : Nat) : Option ℚ := ratOf (BitVec.ofNat 32 (rd d key))

/-- Die of a monitor: compute dies 0 to 3, link dies 4 and 5 (R41). -/
def monitorDie (i : Nat) : Nat := if i < 32 then i / 8 else 4 + (i - 32) / 4

/-- Object of a monitor's reading. -/
def monitorKey (i : Nat) : Nat := if i < 32 then OD.paceMonitor + i else OD.paceMonitorLink + (i - 32)

/-- Temperature points of a die (R45). -/
def diePoints (die : Nat) : List Nat :=
  if die < 4 then (List.range 16).map (fun k => 16 * die + k) else (List.range 4).map (fun k => 80 + 4 * (die - 4) + k)

/-- The largest of some measured values. -/
def maxOfAll (l : List ℚ) : Option ℚ := l.foldl (fun m x => match m with | some y => some (max y x) | none => some x) none

/-- The measured temperature of a die: its highest working point. -/
def dieTemp (d : Dev) (die : Nat) : Option ℚ :=
  maxOfAll ((diePoints die).filterMap (fun p => measured d (OD.temperature + p)))

/-- The measured voltage of a die: its setpoint rail (R597). -/
def dieVolts (d : Dev) (die : Nat) : Option ℚ :=
  measured d (OD.railVoltage + (if die < 4 then die else 8 + (die - 4)))

/-- The guide model at a die's measured voltage and temperature; none before both are measured. -/
def dieModel (d : Dev) (die : Nat) : Option ℚ :=
  match dieVolts d die, dieTemp d die with
  | some v, some t => if 0 < v then some (guideModel v t) else none
  | _, _ => none

/-! ## The setpoint in force (R40, R600) -/

/-- The setpoint in force: the lowest of the written setpoint and the caps. -/
def setpointNow (d : Dev) : Nat :=
  Nat.min (Nat.min (rd d OD.supplySetpoint) (rd d OD.thermalCap)) (Nat.min (rd d OD.powerCap) d.pow.phaseCap)

/-! ## The reported maximum (R43, R44, R46) -/

/-- The largest reading and the lowest-numbered monitor that has it. -/
def largestReading (d : Dev) : Option (Nat × ℚ) :=
  (List.range 40).foldl (fun m i => match measured d (monitorKey i), m with
    | some x, some (_, y) => if y < x then some (i, x) else m
    | some x, none => some (i, x)
    | none, _ => m) none

/-- The target of a lowering of the rails that no window has measured yet: of the ramp in progress, and of what has come down
since the last window, a dip of the governor among it (R44, R606; log entry 104). -/
def loweringTo (d : Dev) : Option Nat :=
  if setpointNow d < d.pow.rail then some (Nat.min (setpointNow d) (d.pow.loweredTo.getD d.pow.rail)) else d.pow.loweredTo

/-- Highest measured temperature of the compute and link dies. -/
def hottestDie (d : Dev) : Option ℚ := maxOfAll ((List.range 6).filterMap (dieTemp d))

/-- The calibration ratio kept from the last window before a lowering ramp (R44). -/
def keepRatio (d : Dev) : Dev :=
  match largestReading d with
  | none => d
  | some (i, x) =>
    match dieModel d (monitorDie i) with
    | some m =>
      if setpointNow d < d.pow.rail ∨ m ≤ 0 then d
      else { d with pow := { d.pow with ratioNum := (x / m).num.toNat, ratioDen := (x / m).den } }
    | none => d

/-- The reported t_step_max: the measured maximum, and during a lowering no less than the calibrated model at its target and
the highest measured temperature (R44). -/
def reportedMax (x : ℚ) (d : Dev) : ℚ :=
  match hottestDie d, loweringTo d with
  | some t, some v =>
    if 0 < v then max x (guideModel (mkRat v 1000) t * mkRat d.pow.ratioNum d.pow.ratioDen) else x
  | _, _ => x

/-- StepMax, its source and its peak; EV_2112 when it exceeds StepLimit, armed again only once it has fallen below the limit
(R43, R44, R46). -/
def reportMax (d : Dev) : Dev :=
  match largestReading d with
  | none => d
  | some (i, x) =>
    let v := reportedMax x d
    let w := if v = x then rd d (monitorKey i) else (f32OfRat v).toNat
    let d := wr OD.stepMaxSource i (wr OD.stepMax w d)
    let d := if ratBits (rd d OD.stepMaxPeak) < v then wr OD.stepMaxPeak w d else d
    let limit := ratBits (rd d OD.stepLimit)
    let d := if limit < v ∧ d.pow.limitArmed then raise hivanPort 0x2112 0 i [] d else d
    { d with pow := { d.pow with limitArmed := decide (v < limit) || (d.pow.limitArmed && decide (v = limit)) } }

/-! ## The setpoint written, and its ramp (R38-R40, R600) -/

/-- OD 0x2100.03 follows the written setpoint and the caps, and t_step_max what they lower (R44). -/
def applyCaps (d : Dev) : Dev := reportMax (wr OD.setpointInForce (setpointNow d) d)

/-- SUPPLY_SETPOINT_WRITE: range, multiples of 5 mV, an authenticated session (R38). -/
def execSupplySetpointWrite (p : Path) (mv : Nat) (s : State) : Out :=
  onDev (runScalar OD.supplySetpoint p mv (mv % 5 == 0) noUnit
    (fun d => (ST.ok, applyCaps (wr OD.supplySetpoint mv d)))) s

/-- The rails stand at so many mV: OD 0x2100.02 reports it, and t_step_max what has been lowered (R44). -/
def setRail (r : Nat) (d : Dev) : Dev :=
  let low := if r < d.pow.rail then some (Nat.min r (d.pow.loweredTo.getD r)) else d.pow.loweredTo
  reportMax (wr OD.supplyMeasured r { d with pow := { d.pow with rail := r, loweredTo := low } })

/-- The rails moved toward a target by at most so many mV. -/
def moveRail (target delta : Nat) (d : Dev) : Dev :=
  let r := d.pow.rail
  setRail (if r < target then Nat.min target (r + delta) else Nat.max target (r - delta)) d

/-- SETPOINT_RAMP: once the thermal function is READY or DEGRADED (R627), the rails move toward the setpoint in force by what the slew limit allows. -/
def execSetpointRamp (delta : Nat) (s : State) : Out :=
  onDev (fun d => if d.pow.rail = 0 ∨ !works d OD.readyThermal then d else moveRail (setpointNow d) delta d) s

/-! ## Pace monitors (R43-R46) -/

/-- Whether a reading differs from the model by more than 15 %. -/
def deviates (r m : ℚ) : Bool := decide (15 / 100 * m < r - m) || decide (15 / 100 * m < m - r)

def monitorFailed (d : Dev) (i : Nat) : Bool := (rd d OD.monitorFailed).testBit i

/-- Port of the die that carries a monitor. -/
def monitorPort (i : Nat) : Nat := if monitorDie i < 4 then cdPort (monitorDie i) else ldPort (monitorDie i - 4)

/-- The reading that stands for a failed monitor: 1.05 times the model (R45). While its die has no measured voltage or
temperature the model has no value, and the reading stays as it is (DESIGN CHOICE, log entry 105). -/
def putReplacement (i : Nat) (d : Dev) : Dev :=
  match dieModel d (monitorDie i) with
  | some m => wr (monitorKey i) (f32OfRat (105 / 100 * m)).toNat d
  | none => d

/-- A monitor marked failed and replaced. -/
def failMonitor (i : Nat) (d : Dev) : Dev :=
  putReplacement i (raise (monitorPort i) 0x2111 i 0 []
    (wr OD.monitorFailed (Nat.lor (rd d OD.monitorFailed) (2 ^ i)) d))

/-- One monitor at the end of a window: a count of zero, or a third deviation in succession, fails it. -/
def monitorReading (i : Nat) (r : Option W32) (d : Dev) : Dev :=
  if monitorFailed d i then putReplacement i d
  else match r with
    | none => failMonitor i d
    | some w =>
      let d := wr (monitorKey i) w.toNat d
      let bad := match ratOf w, dieModel d (monitorDie i) with
        | some x, some m => deviates x m
        | none, _ => true
        | _, none => false
      let n := if bad then mget 0 d.pow.deviating i + 1 else 0
      let d := { d with pow := { d.pow with deviating := mput 0 d.pow.deviating i n } }
      if !bad then d
      else if 3 ≤ n then failMonitor i d
      else raise (monitorPort i) 0x2110 i 0 [] d

/-- The readings are new: what was lowered before is in them. -/
def windowRead (d : Dev) : Dev := { d with pow := { d.pow with loweredTo := none } }

/-- MONITOR_WINDOW: the readings of a window, one per monitor from 0; none where the count was zero. -/
def execMonitorWindow (readings : List (Option W32)) (s : State) : Out :=
  onDev (fun d => reportMax (keepRatio (windowRead
    ((readings.take 40).zipIdx.foldl (fun d r => monitorReading r.2 r.1 d) d)))) s

/-! ## Event and trace FIFOs (R54-R58) -/

def Fifo.empty : Fifo := { packets := [], dropPkts := 0, dropWords := 0 }

/-- Words a FIFO holds. -/
def Fifo.used (f : Fifo) : Nat := (f.packets.map List.length).sum

/-- The gap marker of R57. -/
def gapMarker (port : Nat) (trace : Bool) (f : Fifo) : W64 :=
  BitVec.ofNat 64 (0xF * 2 ^ 60 + port * 2 ^ 52 + (if trace then 2 ^ 48 else 0) +
    Nat.min f.dropPkts 0xFFFFFF * 2 ^ 24 + Nat.min f.dropWords 0xFFFFFF)

/-- A packet published: whole, one word held in reserve for a gap marker, a gap marker first after drops; or dropped
whole and counted (R56). The free space is exact: the full flag of R51 may lag a read, and the model's never does (DESIGN
CHOICE, log entry 106). -/
def Fifo.publish (port : Nat) (trace : Bool) (depth : Nat) (p : List W64) (f : Fifo) : Fifo :=
  let gap := if f.dropPkts = 0 then [] else [[gapMarker port trace f]]
  if f.used + gap.length + p.length + 1 ≤ depth then
    { packets := f.packets ++ gap ++ [p], dropPkts := 0, dropWords := 0 }
  else { f with dropPkts := f.dropPkts + 1, dropWords := f.dropWords + p.length }

/-- The packet of an event (R536). -/
def eventPacket (e : Event) : List W64 :=
  BitVec.ofNat 64 (2 ^ 60 + e.details.length * 2 ^ 56 + e.id % 2 ^ 16 * 2 ^ 40 + e.inst % 2 ^ 12 * 2 ^ 28 + e.detail0)
    :: e.details.map (BitVec.ofNat 64)

/-- The packet of a trace record of 1 to 16 words: its first word carries KIND 2 and LENGTH (R54); the rest is the die's. -/
def tracePacket : List W64 → List W64
  | [] => []
  | w :: ws => BitVec.ofNat 64 (2 * 2 ^ 60 + ws.length * 2 ^ 56 + fld w 55 0) :: ws

/-- The oldest event that a port has raised leaves the list. -/
def takeRaised (port : Nat) : List (Nat × Event) → Option (Event × List (Nat × Event))
  | [] => none
  | e :: l => if e.1 = port then some (e.2, l) else (takeRaised port l).map (fun r => (r.1, e :: r.2))

/-- PACKET_PUBLISH: a die's oldest raised event enters its event FIFO as a packet of 1 to 16 words, or a trace packet its
trace FIFO while capture is enabled. -/
def packetPublish (port : Nat) (trace : Option (List W64)) (d : Dev) : Dev :=
  if 10 ≤ port then d
  else match trace with
    | some ws =>
      if (rd d OD.traceEnable).testBit port && decide (1 ≤ ws.length) && decide (ws.length ≤ 16) then
        let f := (mget Fifo.empty d.ev.traces port).publish port true 4096 (tracePacket ws)
        { d with ev := { d.ev with traces := mput Fifo.empty d.ev.traces port f } }
      else d
    | none =>
      match takeRaised port d.ev.raised with
      | some (e, rest) =>
        let f := (mget Fifo.empty d.ev.events port).publish port false 512 (eventPacket e)
        { d with ev := { d.ev with raised := rest, events := mput Fifo.empty d.ev.events port f } }
      | none => d

/-- The dies of some ports are reset: what they have raised and not published is discarded and counted as dropped; what they
have published stays (R58). -/
def discardUnpublished (reset : Nat → Bool) (d : Dev) : Dev :=
  let gone := fun (e : Nat × Event) => decide (e.1 < 10) && reset e.1
  let drop := fun (m : Map Fifo) (e : Nat × Event) =>
    let f := mget Fifo.empty m e.1
    mput Fifo.empty m e.1 { f with dropPkts := f.dropPkts + 1, dropWords := f.dropWords + (eventPacket e.2).length }
  { d with ev := { d.ev with raised := d.ev.raised.filter (fun e => !gone e),
                             events := (d.ev.raised.filter gone).foldl drop d.ev.events } }

def execPacketPublish (port : Nat) (trace : Option (List W64)) (s : State) : Out := onDev (packetPublish port trace) s

/-! ## The tick (R62) -/

/-- TICK: one µs; the time under a thermal cap grows with it (R610). -/
def execTick (s : State) : Out :=
  onDev (fun d =>
    let d := inc OD.tickCount { d with tick := d.tick + 1 }
    if rd d OD.thermalCap < 880 then inc OD.thermalCapTime d else d) s

end Sys2Proof.Machine
end

