-- ==== Sys2Proof/Machine/Piste.lean ====
section
/-!
DEFINITION. Chain operations on the Piste engines: the start, completion and failure of an operation, row by row (R228-R232,
R236, R245-R247). A start performs the whole effect on memory (log entry 18).
-/

namespace Sys2Proof.Machine

/-- What row r reads. -/
def rowReads (w : List W64) (r : Nat) : List (Nat × Nat) :=
  let n := chCols w
  [(chIn0 w + r * chLdIn0 w, rowBytes (chFmtIn0 w) n)] ++
  (if isMx (chFmtIn0 w) then [(chIn0Scale w + r * blocks32 n, blocks32 n)] else []) ++
  (if chFmtIn1 w = 15 then [] else match chShape w with
    | 0 => [(chIn1 w + r * chLdIn1 w, rowBytes (chFmtIn1 w) n)]
    | 1 => [(chIn1 w, rowBytes (chFmtIn1 w) n)]
    | 2 => [(chIn1 w, rowBytes (chFmtIn1 w) (2 * n))]
    | _ => [rowPart (chIn1 w) (codeBits (chFmtIn1 w)) r (r + 1)])

/-- What is read once at the start: constants, the layer's entry, the scale record. -/
def startReads (w : List W64) : List (Nat × Nat) :=
  (if usesConst w then [(chConst w, 64)] else []) ++ (if usesLayer w then [(chLayer w, 64)] else []) ++
  (if usesRec w then [(chRec w, 160)] else [])

/-- The writes of a row: outputs, scales, row scalars. -/
def chainWrites (w : List W64) (r : Nat) (st : RowRun) : List (Nat × Bytes) :=
  let out := fun (tap fmt addr ld : Nat) => if tap = 15 then []
    else [(addr + r * ld, packBits (codeBits fmt) ((tapped st tap).map (fun p => outBits fmt p.1 p.2)))]
  out (chTap0 w) (chFmtOut0 w) (chOut0 w) (chLdOut0 w) ++ out (chTap1 w) (chFmtOut1 w) (chOut1 w) (chLdOut1 w) ++
  (if chTap0 w ≠ 15 ∧ isMx (chFmtOut0 w)
   then [(chOut0Scale w + r * blocks32 (chCols w),
     ((st.outs.getD (chTap0 w) { els := [], enc := [], scales := [] }).scales.map (BitVec.ofNat 8)))] else []) ++
  (if chNrs w = 0 then [] else [(chRs w + 4 * chNrs w * r, (st.rs.take (chNrs w)).flatMap (fun x => leBytes 4 x.toNat))])

/-- The elements of a row that an output writes, with their encodings and the output's format. -/
def rowOutputs (w : List W64) (st : RowRun) : List ((El × Nat) × Nat) :=
  let out := fun (tap fmt : Nat) => if tap = 15 then [] else (tapped st tap).map (fun p => (p, fmt))
  out (chTap0 w) (chFmtOut0 w) ++ out (chTap1 w) (chFmtOut1 w)

/-- The flags and counts of a row (R245): OVF_ANY where any conversion of the row overflowed; each output element counts as
overflowed where a conversion on its way did, else by what is written (DEDUCED, log entry 115). -/
def countRow (w : List W64) (st : RowRun) (r : UnitRun) : UnitRun :=
  let es := rowOutputs w st
  let all := (es.filter (fun p => !p.1.1.o)).map (fun p => outClass p.2 p.1.1 p.1.2)
  let ovf := (es.filter (fun p => p.1.1.o)).length
  { r with ovf := r.ovf || st.outs.any (fun o => o.els.any (fun x => x.o)), nan := r.nan || all.any (fun c => c.1), inf := r.inf || all.any (fun c => c.2),
           ovfCount := r.ovfCount + ovf, nanInfCount := r.nanInfCount + (all.filter (fun c => c.1 || c.2)).length }

/-- An output at the address, row distance and element size of an input is exact in place (R247). -/
def inPlace (w : List W64) : List (Nat × Nat) → List (Nat × Nat) := fun outs =>
  let same := fun (a ld fmt : Nat) => (a == chIn0 w && ld == chLdIn0 w && codeBits fmt == codeBits (chFmtIn0 w)) ||
    (chFmtIn1 w != 15 && chShape w == 0 && a == chIn1 w && ld == chLdIn1 w && codeBits fmt == codeBits (chFmtIn1 w))
  outs.filter (fun o => !((chTap0 w != 15 && o.1 == chOut0 w && same (chOut0 w) (chLdOut0 w) (chFmtOut0 w)) ||
    (chTap1 w != 15 && o.1 == chOut1 w && same (chOut1 w) (chLdOut1 w) (chFmtOut1 w))))

/-- Whether outputs overlap inputs other than exactly in place. -/
def chainMixed (w : List W64) : Bool := anyOverlap (chInputs w) (inPlace w (chOutputs w))

/-- One row: read, run, written in full, counted, its contribution made; or the operation ends at it. -/
def runChainRow (mixed : Bool) (before : Dev) (el : Int) (s : UnitRun × Dev) (i : Nat) : UnitRun × Dev :=
  let r := s.1
  let d := s.2
  let w := r.op.words
  if r.status ≠ ST.ok then s
  else
    let reads := rowReads w i
    if reads.any (fun p => poisonedIn d p.1 p.2)
    then ({ r with status := ST.poison }, reads.foldl (fun d p => reach p.1 p.2 d) d)
    else
      let d := reads.foldl (fun d p => touchRead p.1 p.2 d) d
      let e : Env := { w, mem := opMem mixed before d, el, srec := (recordAt d (chRec w)).getD [],
                       draws := fun stream elem => (draw d stream r.op.by_.step r.op.by_.mb elem).x0, r := i }
      let st := runRow e
      let x := writeAll (chainWrites w i st) d
      if x.1 ≠ ST.ok then ({ r with status := x.1 }, x.2)
      else
        let c := match st.amax with
          | none => (ST.ok, x.2)
          | some m => (match recordAt x.2 (chRec w) with
            | some rec => writeMem (chRec w) (bytesOf (contribute m st.pass rec)) x.2
            | none => (ST.poison, x.2))
        if c.1 ≠ ST.ok then ({ r with status := c.1 }, c.2)
        else
          ({ countRow w st r with done := r.done + 1 },
           addTo OD.updateUnderflows st.under (if mixed then drew c.2 else c.2))

/-- The record of a chain in PASS mode is derived before the first element (R202, R239). -/
def passDerive (core : Nat) (w : List W64) (d : Dev) : Dev :=
  let uses := (chStageList w).any (fun s => sgOp s.2 == 0x20 && sgRec s.2)
  match recordAt d (chRec w) with
  | some r => if uses && modeOf d r == 2 then rederive (cdPort (core / 512)) (chRec w) d else d
  | none => d

/-- The whole effect of a chain on memory. -/
def runChain (core : Nat) (op : UnitOp) (d : Dev) : UnitRun × Dev :=
  let w := op.words
  let fresh := UnitRun.fresh op
  if chRows w = 0 ∨ chCols w = 0 then (fresh, d)
  else if (startReads w).any (fun p => poisonedIn d p.1 p.2)
  then ({ fresh with status := ST.poison }, (startReads w).foldl (fun d p => reach p.1 p.2 d) d)
  else
    let d := passDerive core w d
    let l := layerAt d (chLayer w)
    let el := if usesLayer w && lnLrScale l then lnEl l else 0
    (List.range (chRows w)).foldl (runChainRow (chainMixed w) d el) (fresh, d)

/-- CHAIN_OP_START: the oldest accepted descriptor of an engine. `checkFailed` says that an arithmetic check failed on some
row, which was then computed once more. -/
def chainStart (core : Nat) (checkFailed : Bool) (d : Dev) : Dev :=
  match (pisteOf d core).queue with
  | [] => d
  | op :: rest =>
    if 2048 ≤ core ∨ (pisteOf d core).run.isSome ∨ engineUse d (0x3000 + core) (core / 8) ≠ ST.ok then d
    else
      let x := runChain core op d
      let d := setPiste core { queue := rest, run := some x.1 } x.2
      if checkFailed ∧ chRows op.words ≠ 0 ∧ chCols op.words ≠ 0 then arithmeticError (core / 8) d else d

def execChainOpStart (core : Nat) (checkFailed : Bool) (s : State) : Out := onDev (chainStart core checkFailed) s

/-- The end of the running operation. -/
def chainEnd (ok : Bool) (core : Nat) (d : Dev) : Dev :=
  match (pisteOf d core).run with
  | none => d
  | some r =>
    if (r.status == ST.ok) = ok ∧ engineInReset d (0x3000 + core) = false ∧ clusterFenced d (core / 8) = false
    then closeChain core r (setPiste core { pisteOf d core with run := none } d)
    else d

/-- CHAIN_OP_COMPLETE: every row is written. -/
def execChainOpComplete (core : Nat) (s : State) : Out := onDev (chainEnd true core) s

/-- CHAIN_READ_POISON: a read met poison, or a write failed. -/
def execChainReadPoison (core : Nat) (s : State) : Out := onDev (chainEnd false core) s

end Sys2Proof.Machine
end

