-- ==== Sys2Proof/Machine/Faults.lean ====
section
/-!
DEFINITION. Faults and reset tiers: hang detection, engine resets, cluster moves, kick turns, full restarts, their escalation,
and the fault command (R506-R530).
-/

namespace Sys2Proof.Machine

/-! ## Engines (R506) -/

/-- The management-bus port of the die that carries an engine. -/
def enginePort (e : Nat) : Nat :=
  match engineKind e with
  | 6 => controllerPort (engineIndex e)
  | 7 => ldPort (engineIndex e)
  | 8 => cdPort (engineIndex e)
  | _ => cdPort (engineCluster e / 64)

/-- Whether an engine holds accepted work (R507). The work of a digest engine is not part of the state. -/
def holdsWork (d : Dev) (e : Nat) : Bool :=
  let i := engineIndex e
  let busy := fun (u : ExecUnit) => !u.queue.isEmpty || u.run.isSome
  match engineKind e with
  | 1 => busy (unitOf d (unitKey i false))
  | 2 => busy (unitOf d (unitKey i true))
  | 3 => busy (pisteOf d i)
  | 4 => !(coreBlocks d i).isEmpty
  | 5 => (List.range 4).any (fun q => !(queueOf d (4 * i + q)).accepted.isEmpty || !(slotOps d (4 * i + q)).isEmpty)
  | 6 => d.mem.combining.any (fun x => lineController d.mem x.line == i)
  | _ => true

/-! ## The full restart (R283, R521, R573, R574, R627) -/

/-- The objects that a full restart puts back to their defaults (R574). -/
def jobObjects : List Nat :=
  [OD.contextsLive, OD.fttEntriesUsed, OD.peerGenerations, OD.sequencerState, OD.loadStatus, OD.loadFailAddress,
   OD.stepsRemaining, OD.stepNumber, OD.lastVerdict, OD.shadowBytes, OD.jobSeed, OD.streamState, OD.jobDataPosition,
   OD.globalBatch, OD.shardCursors, OD.groupsAdmitted, OD.groupTable, OD.imageBytes, OD.checkpointState,
   OD.partnerDevice, OD.durabilityClass, OD.sealedStep, OD.jobSealedStep, OD.heldCopyStep, OD.restoreStatus,
   OD.restoreLayer] ++ (List.range 64).map (fun c => OD.contextState + c)

/-- Command objects of units that a full restart resets. -/
def unitCommands : List Nat :=
  [OD.contextCommand, OD.fttCommand, OD.localRegionCommand, OD.stepCommand, OD.groupCommand, OD.checkpointCommand]

/-- A command that was pending in a unit that has been reset no longer is; the manual states no status for it. -/
def endCommand (key : Nat) (d : Dev) : Dev :=
  if commandPending d key then setCommandStatus key (freeStatus d) (drew d) else d

/-- The LLC before the restart: dirty lines written back; what a port that is down keeps is lost, and the expander's
contents are left. -/
def emptyLlc (d : Dev) : Dev :=
  let d := writeBack false d
  let m := discard (d.mem.llc.map (fun x => (x.line, x.below)) ++
    (d.mem.combining.filter (fun x => pinned d.mem x.line)).map (fun x => (x.line, x.below))) d.mem
  { d with mem := { m with llc := [], llcErrs := [], combining := [], prefetch := [], corrected := [],
                           uncorrectable := [], cxl := [] } }

/-- The functions that a start of the dies begins, with the functions each needs (R628). -/
def needsOf (d : Dev) (f : FunctionKey) : List FunctionKey :=
  let i := f / 256
  let n := f % 256 - 1
  match i with
  | 0x2001 => [OD.readyMemory, OD.readyThermal]
  | 0x2002 => [OD.readyPower]
  | 0x2003 => [OD.readyMemory]
  | 0x2004 => linkDieFn n :: (if edgeRoleOf d n = 2 then [OD.readyMemory] else [])
  | 0x2005 => [linkDieFn (n / 16), engineFn (n / 4), OD.readySecurity]
  | 0x2006 => [linkDieFn (n / 4)]
  | 0x2007 => [OD.readyPower]
  | 0x2008 => [computeFn (512 * n)]
  | 0x2009 => [sequencerFn (homeOf n), sequencerFn ((homeOf n + 1) % 4), OD.readyHbm]
  | 0x200A => [linkDieFn n]
  | 0x200B => [OD.readyManagement]
  | 0x200C => [OD.readyPower]
  | _ => []

/-- Every function but management and security. -/
def startedFns : List FunctionKey :=
  [OD.readyPower, OD.readyThermal, OD.readyMemory] ++ linkDies ++ (List.range 2).map digestFn ++
  (List.range 8).map engineFn ++ (List.range 32).map fabricPortFn ++ (List.range 2).map edgeFn ++ [OD.readyHbm] ++
  computeFns ++ (List.range 4).map sequencerFn ++ (List.range 5).map serviceFn

/-- The functions that a lost factory record keeps down (R626). -/
def factoryFns : List FunctionKey :=
  computeFns ++ [OD.readyMemory, OD.readyHbm] ++ linkDies ++ (List.range 2).map edgeFn ++
  (List.range 32).map fabricPortFn ++ (List.range 8).map engineFn

/-- The die that carries a function, as a bit of the factory record's die enables; none for functions of the device. -/
def dieOfFn (f : FunctionKey) : Option Nat :=
  let n := f % 256 - 1
  match f / 256 with
  | 0x2001 => some n
  | 0x2004 => some (8 + n)
  | 0x2005 => some (8 + n / 16)
  | 0x2006 => some (8 + n / 4)
  | 0x2007 => some (8 + n)
  | 0x2008 => some n
  | 0x200A => some (8 + n)
  | _ => none

/-- Whether the factory record enables the die that carries a function (R17, R625). -/
def dieEnabled (d : Dev) (f : FunctionKey) : Bool := ((dieOfFn f).map (fun b => d.sec.factory.dies.testBit b)).getD true

/-- What a function reports when the start of the dies begins: INIT; ABSENT where configuration disables it; FAILED
where no factory record passes, where the tamper state is ERASED (R633), or where the discharge test failed (R603). -/
def beginFunction (f : FunctionKey) (d : Dev) : Dev :=
  let i := f / 256
  let n := f % 256 - 1
  if !d.sec.factoryOk && factoryFns.contains f then setReady f RS.failed 4 d
  else if !dieEnabled d f then setReady f RS.absent 6 d
  else if f = OD.readyPower ∧ !d.pow.sinkOk ∧ d.pow.hotSwap = false ∧ readyState d f = RS.failed then d
  else if i = 0x2005 ∧ !(rd d OD.portEnable).testBit n then setReady f RS.absent 6 d
  else if i = 0x2004 ∧ edgeRoleOf d n = 0 then setReady f RS.absent 6 d
  else if i = 0x2005 ∧ rd d OD.tamperState = 3 then setReady f RS.failed 4 d
  else setReady f RS.init (if (needsOf d f).all (works d) then 1 else 7) d

/-- The roles and the placement that the next start takes (R277, R387). -/
def takeRoles (d : Dev) : Dev :=
  { d with mem := { d.mem with placement := rd d OD.cxlPlacement, roles := [rd d OD.edgeRole, rd d (OD.edgeRole + 1)] } }

/-- The dies but HV and FL reset: contexts FREE with epoch zero, the replay window empty, the sequencer IDLE, groups FREE,
every port and edge link down, the checkpoint service UNCONFIGURED; every function starts again. -/
def resetDies (d : Dev) : Dev :=
  let d := times 2 (fun e d => setEdgeLink e 0 d) (allPortsDown (emptyLlc (discardUnpublished (fun _ => true) d)))
  let d := (d.tw.ctxs.map (fun c => c.1)).foldl (fun d c => moveCtx c Ctx.free d) d
  let d := unitCommands.foldl (fun d k => endCommand k d) d
  let d := jobObjects.foldl (fun d k => toDefault k d) d
  let d := toDefault OD.stacksPresent (toDefault OD.enginesFailed d)
  let d := { d with
    tw := { TwizanState.reset with nextOp := d.tw.nextOp }, ports := [], runs := [], seq := StepState.reset,
    ckpt := CkptState.reset, grids := [], blocks := [], units := [], piste := [],
    faults := { d.faults with lastReset := [], lastArith := [], drainSince := none } }
  startedFns.foldl (fun d f => beginFunction f d) (takeRoles d)

/-- A full restart begins: every lower reset in progress ends in it (R517). -/
def beginRestart (cause : Nat) (command : Bool) (d : Dev) : Dev :=
  if tierActive d 4 then absorbed command d
  else
    let r := takeOver (fun _ => true) d
    resetDies (raise hivanPort 0x4006 0 0 [] (inc OD.fullRestarts (pushReset 4 0 cause (command || r.1) r.2)))

/-- FULL_RESTART_DONE: packets with RETX are answered with ST_UNKNOWN_OUTCOME for T_keep + T_life from here (R351). -/
def fullRestartDone (d : Dev) : Dev :=
  if tierActive d 4 then
    let command := d.faults.resets.any (fun r => r.tier == 4 && r.command)
    let d := keepResets (fun r => r.tier != 4) d
    let d := { d with tw := { d.tw with retxUntil := some (d.tick + rd d OD.replayRetention + tLifeUs d) } }
    absorbed command d
  else d

def execFullRestartDone (s : State) : Out := onDev fullRestartDone s

/-- RESTART_RETX_PERIOD_END (R351). -/
def execRestartRetxPeriodEnd (s : State) : Out :=
  onDev (fun d => match d.tw.retxUntil with
    | some t => if t ≤ d.tick then { d with tw := { d.tw with retxUntil := none } } else d
    | none => d) s

/-! ## The next tier (R506, R509, R515, R517) -/

/-- An engine left fenced and FAILED: EV_400B, its bit of EnginesFailed, its function. -/
def leaveFailed (e : Nat) (command : Bool) (d : Dev) : Dev :=
  let i := engineIndex e
  let (f, b) := if engineKind e = 7 then (digestFn i, 4 + i) else (sequencerFn i, i)
  let old := leNat (rdFull d OD.enginesFailed)
  let d := wrBytes OD.enginesFailed (leBytes 8 (Nat.lor old (2 ^ b))) d
  let d := setReady f RS.failed 4 (raise (enginePort e) 0x400B i 0 [] d)
  if command then faultAnswer (freeStatus d) (drew d) else d

/-- Hivan requests a power cycle (R522, R613). -/
def requestCycle (d : Dev) : Dev :=
  if d.pow.pcycReq then d
  else
    let d := raise hivanPort 0x4008 0 0 [] (inc OD.powerCycleRequests d)
    { d with pow := { d.pow with pcycReq := true, pcycAt := d.tick, pcycLate := false } }

/-- The tier that follows a reset which does not complete. -/
def nextTier (r : Reset) (cause : Nat) (d : Dev) : Dev :=
  match r.tier with
  | 1 =>
    let d := keepResets (fun x => !(x.tier == 1 && x.target == r.target)) d
    match engineKind r.target with
    | 6 => beginRestart cause r.command d
    | 7 => leaveFailed r.target r.command d
    | 8 => leaveFailed r.target r.command d
    | _ =>
      let c := engineCluster r.target
      if rd d (OD.sparesRemaining + c / 64) = 0 then beginKick cause r.command d else beginMove c cause r.command d
  | 2 => beginKick cause r.command d
  | 3 => beginRestart cause r.command d
  | _ => requestCycle d

/-! ## Hangs (R507, R509, R517) -/

/-- The reset in progress whose domain holds an engine, the highest tier first. -/
def resetAround (d : Dev) (e : Nat) : Option Reset :=
  let compute := decide (engineKind e ≤ 5)
  let find := fun (f : Reset → Bool) => d.faults.resets.find? f
  match find (fun r => r.tier == 4) with
  | some r => some r
  | none => match find (fun r => r.tier == 3 && compute) with
    | some r => some r
    | none => match find (fun r => r.tier == 2 && inCluster r.target e) with
      | some r => some r
      | none => find (fun r => r.tier == 1 && r.target == e)

/-- Whether an engine was reset within the reset window. -/
def resetRecently (d : Dev) (e : Nat) : Bool :=
  match mfind d.faults.lastReset e with
  | some t => decide (d.tick < t + rd d OD.resetWindow)
  | none => false

/-- An engine reset, or a move of its cluster where it is the second within the window; a sequencer processor's services
fail over. -/
def beginEngine (e cause : Nat) (command : Bool) (d : Dev) : Dev :=
  if engineKind e ≤ 5 ∧ resetRecently d e then beginMove (engineCluster e) cause command d
  else
    let d := startEngine e cause command d
    if engineKind e = 8 then failover (engineIndex e) d else d

/-- A hung engine: EV_4001 and its engine reset at once; the next tier where its domain is being reset already. -/
def engineHung (e : Nat) (d : Dev) : Dev :=
  let found := raise (enginePort e) 0x4001 (engineIndex e) 0 []
  match resetAround d e with
  | some r => if r.tier ≤ 2 then nextTier r 0x4001 (found d) else d
  | none => beginEngine e 0x4001 false (found d)

/-- ENGINE_HANG: an engine of kinds 1 to 7 that holds work. -/
def engineHang (e : Nat) (d : Dev) : Dev :=
  if engineDefined e ∧ engineKind e ≤ 7 ∧ holdsWork d e ∧ !(1 ≤ engineKind e ∧ engineKind e ≤ 5 ∧
      d.faults.failedClusters.contains (engineCluster e)) ∧ !(engineKind e = 7 ∧ !works d (digestFn (engineIndex e)))
  then engineHung e d else d

def execEngineHang (engine : Nat) (s : State) : Out := onDev (engineHang engine) s

/-- HEARTBEAT_MISSED: the third heartbeat in succession that a sequencer processor has missed. -/
def execHeartbeatMissed (sq : Nat) (s : State) : Out :=
  onDev (fun d => if sq < 4 ∧ (works d (sequencerFn sq) ∨ engineInReset d (0x8000 + sq)) then engineHung (0x8000 + sq) d else d) s

/-! ## Engine resets that complete (R515, R523-R526) -/

/-- Whether two extents share a byte that no shadow region covers. -/
def meetsOutside (d : Dev) (x y : Nat × Nat) : Bool :=
  let lo := Nat.max x.1 y.1
  let hi := Nat.min (x.1 + x.2) (y.1 + y.2)
  decide (lo < hi) && (linesOf lo (hi - lo)).any (fun l => (shadowOf d (64 * l)).isNone)

/-- Rows of so many bytes at a distance. -/
def spreadRows (base ld bytes n : Nat) : List (Nat × Nat) := (List.range n).map (fun i => (base + i * ld, bytes))

/-- Whether an operation cannot be restarted: a byte of its C_in, its block scales among them, is a byte of its C outside
shadowed memory (R165). -/
def matrixStuck (d : Dev) (w : List W64) : Bool :=
  let row := rowBytes (mxC w) (mxN w)
  let bk := if isMx (mxC w) then blocks32 (mxN w) else 0
  let ins := spreadRows (mxCInAddr w) (mxLdCIn w) row (mxM w) ++ spreadRows (mxCInScale w) bk bk (mxM w)
  let outs := spreadRows (mxCAddr w) (mxLdC w) row (mxM w) ++ spreadRows (mxCScale w) bk bk (mxM w)
  mxAccIn w && ins.any (fun i => outs.any (meetsOutside d i))

/-- What row r of a chain writes: addresses and lengths. -/
def rowOuts (w : List W64) (r : Nat) : List (Nat × Nat) :=
  let n := chCols w
  (if chTap0 w = 15 then [] else [(chOut0 w + r * chLdOut0 w, rowBytes (chFmtOut0 w) n)]) ++
  (if chTap1 w = 15 then [] else [(chOut1 w + r * chLdOut1 w, rowBytes (chFmtOut1 w) n)]) ++
  (if chTap0 w ≠ 15 ∧ isMx (chFmtOut0 w) then [(chOut0Scale w + r * blocks32 n, blocks32 n)] else []) ++
  (if chNrs w = 0 then [] else [(chRs w + 4 * chNrs w * r, 4 * chNrs w)])

/-- The same for a chain: a byte of an output is a byte of an input outside shadowed memory (R246). -/
def chainStuck (d : Dev) (w : List W64) : Bool :=
  let rows := List.range (chRows w)
  chCols w != 0 && (rows.flatMap (rowOuts w)).any (fun o => (startReads w ++ rows.flatMap (rowReads w)).any (meetsOutside d o))

/-- The operation in progress on a matrix unit restarts at the first chunk not written in full, with the same bits; one
that cannot completes with ST_POISON. -/
def restartMatrix (k : Nat) (d : Dev) : Dev :=
  let u := unitOf d k
  match u.run with
  | some r => if matrixStuck d r.op.words then setUnit k { u with run := some { r with status := ST.poison } } d else d
  | none => d

def restartChain (core : Nat) (d : Dev) : Dev :=
  let u := pisteOf d core
  match u.run with
  | some r => if chainStuck d r.op.words then setPiste core { u with run := some { r with status := ST.poison } } d else d
  | none => d

/-- ENGINE_RESET_DONE: the fence lifts; EV_4002 and its count. -/
def engineResetDone (e : Nat) (d : Dev) : Dev :=
  if !engineInReset d e then d
  else
    let command := d.faults.resets.any (fun r => r.tier == 1 && r.target == e && r.command)
    let i := engineIndex e
    let d := keepResets (fun r => !(r.tier == 1 && r.target == e)) d
    let d := raise (enginePort e) 0x4002 i 0 [] (inc OD.engineResets d)
    let d := match engineKind e with
      | 1 => restartMatrix (unitKey i false) d
      | 2 => restartMatrix (unitKey i true) d
      | 3 => restartChain i d
      | 8 => setReady (sequencerFn i) RS.ready 0 d
      | _ => d
    absorbed command d

def execEngineResetDone (engine : Nat) (s : State) : Out := onDev (engineResetDone engine) s

/-! ## Escalation (R515) -/

/-- The escalation timeout of a tier. -/
def escalationTime (d : Dev) (tier : Nat) : Nat :=
  match tier with
  | 1 => rd d OD.engineResetEscalation
  | 2 => rd d OD.clusterMoveEscalation
  | 3 => rd d OD.kickTurnEscalation
  | _ => rd d OD.fullRestartEscalation

/-- What a RESET_ESCALATION names: an engine ID, a logical cluster, 0x100 the compute domain, 0x101 the module. -/
def escalates (x : Nat) (r : Reset) : Bool :=
  if x < 0x100 then r.tier == 2 && r.target == x
  else if x = 0x100 then r.tier == 3
  else if x = 0x101 then r.tier == 4
  else r.tier == 1 && r.target == x

/-- RESET_ESCALATION: a reset that has not completed within its timeout gives way to the next tier, with EV_4007 and its
count; engines that have no next tier are left FAILED. -/
def resetEscalation (x : Nat) (d : Dev) : Dev :=
  match d.faults.resets.find? (escalates x) with
  | none => d
  | some r =>
    if d.tick < r.since + escalationTime d r.tier ∨ (r.tier = 4 ∧ d.pow.pcycReq) then d
    else if r.tier = 1 ∧ 7 ≤ engineKind r.target then nextTier r 0x4007 d
    else nextTier r 0x4007 (raise hivanPort 0x4007 0 0 [] (inc OD.escalations d))

def execResetEscalation (engine : Nat) (s : State) : Out := onDev (resetEscalation engine) s

/-! ## Cluster moves that complete (R511-R514) -/

/-- The spare that passes its test, after those that fail it. -/
def chooseSpare (die : Nat) : List Nat → List Bool → Dev → Option Nat × Dev
  | [], _, d => (none, d)
  | i :: rest, tests, d =>
    if tests.headD true then (some i, d) else chooseSpare die rest tests.tail (takeSpare die i d)

/-- CLUSTER_MOVE_DONE: steps 2 to 5 of R511. Moves on one die run in ascending logical cluster (R513). -/
def clusterMoveDone (c : Nat) (tests : List Bool) (unreadable : Bool) (d : Dev) : Dev :=
  let die := c / 64
  let earlier := d.faults.resets.any (fun r => r.tier == 2 && r.target / 64 == die && decide (r.target < c))
  match d.faults.resets.find? (fun r => r.tier == 2 && r.target == c) with
  | none => d
  | some r =>
    if earlier then d
    else
      let d := keepResets (fun r => !(r.tier == 2 && r.target == c)) d
      match chooseSpare die (unusedSpares d die) tests d with
      | (some i, d) =>
        let d := remap c i d
        let d := if unreadable then dropCluster c ST.poison ST.poison ST.poison d
          else times 8 (fun i d => restartChain (8 * c + i) d) (restartMatrix (2 * c + 1) (restartMatrix (2 * c) d))
        absorbed r.command d
      | (none, d) => absorbed r.command (failCluster c d)

def execClusterMoveDone (cluster : Nat) (spareTests : List Bool) (unreadable : Bool) (s : State) : Out :=
  onDev (clusterMoveDone cluster spareTests unreadable) s

/-! ## Kick turns that complete (R519) -/

/-- KICK_TURN_DONE: steps 3 to 5 of R519; the clusters named failed their built-in test. -/
def kickTurnDone (failed : List Nat) (d : Dev) : Dev :=
  match d.faults.resets.find? (fun r => r.tier == 3) with
  | none => d
  | some r =>
    let d := keepResets (fun r => r.tier != 3) (discardUnpublished (fun p => decide (p < 4))
      { d with mem := { d.mem with prefetch := [] } })
    let bad := (failed.filter (fun c => decide (c < 256) && !d.faults.failedClusters.contains c)).eraseDups
    let d := bad.foldl (fun d c => moveStateless c d) d
    let lift := fun (d : Dev) (die : Nat) =>
      let f := computeFn (512 * die)
      if readyState d f ≠ RS.fenced then d
      else if d.faults.failedClusters.any (fun c => c / 64 == die) then setReady f RS.degraded 2 d
      else setReady f RS.ready 0 d
    let d := (List.range 4).foldl lift d
    absorbed r.command (raise hivanPort 0x4005 0 0 [] (inc OD.kickTurns d))

def execKickTurnDone (failedClusters : List Nat) (s : State) : Out := onDev (kickTurnDone failedClusters) s

/-! ## The drain of a fence (R518) -/

/-- FENCE_DRAIN_EXPIRY. A memory request of this model completes in the step that makes it, and fabric operations already
issued belong to the link dies, so no request of the domain is outstanding when the time has passed: the drain ends
(log entry 22). -/
def execFenceDrainExpiry (s : State) : Out :=
  onDev (fun d => match d.faults.drainSince with
    | some t => if t + rd d OD.fenceDrainTime ≤ d.tick then { d with faults := { d.faults with drainSince := none } } else d
    | none => d) s

/-! ## The fault command (R516) -/

/-- A reset that software asks for: refused in a domain under a reset of the same or a higher tier; otherwise pending until
the reset completes. A command names no event: the cause is 0. -/
def faultOp (bad refused : Dev → Bool) (start : Dev → Dev) : WriteOp := fun d =>
  if bad d then (ST.invalid, d)
  else if refused d then (ST.state, d)
  else (ST.ok, start (setCommandStatus OD.faultCommand ST.pending d))

/-- Whether an engine is marked FAILED (R506). -/
def engineFailed (d : Dev) (e : Nat) : Bool :=
  match engineKind e with
  | 7 => readyState d (digestFn (engineIndex e)) == RS.failed
  | 8 => readyState d (sequencerFn (engineIndex e)) == RS.failed
  | _ => false

def engineResetOp (e : Nat) : WriteOp :=
  faultOp (fun _ => !engineDefined e) (fun d => (resetAround d e).isSome || engineFailed d e) (beginEngine e 0 true)

def clusterMoveOp (c : Nat) : WriteOp :=
  faultOp (fun _ => decide (256 ≤ c))
    (fun d => tierActive d 3 || tierActive d 4 || clusterFenced d c || rd d (OD.sparesRemaining + c / 64) == 0)
    (beginMove c 0 true)

def kickTurnOp : WriteOp := faultOp (fun _ => false) (fun d => tierActive d 3 || tierActive d 4) (beginKick 0 true)

def fullRestartOp : WriteOp := faultOp (fun _ => false) (fun d => tierActive d 4) (beginRestart 0 true)

def execEngineReset (p : Path) (engine : Nat) (reserved : Bool) (s : State) : Out :=
  execCommand OD.faultCommand 8 .rws p [1 + engine * 2 ^ 32] reserved noUnit (engineResetOp engine) s

def execClusterMove (p : Path) (cluster : Nat) (reserved : Bool) (s : State) : Out :=
  execCommand OD.faultCommand 8 .rws p [2 + cluster * 2 ^ 32] reserved noUnit (clusterMoveOp cluster) s

def execKickTurn (p : Path) (reserved : Bool) (s : State) : Out :=
  execCommand OD.faultCommand 8 .rws p [3] reserved noUnit kickTurnOp s

def execFullRestart (p : Path) (reserved : Bool) (s : State) : Out :=
  execCommand OD.faultCommand 8 .rws p [4] reserved noUnit fullRestartOp s

end Sys2Proof.Machine
end

