-- ==== Sys2Proof/Machine/Power.lean ====
section
/-!
DEFINITION. Inputs, stored energy, the power limit, the governor, thermal limits, power-down, sensors, and the start of the
dies and their functions (R504, R535, R596-R613, R627-R633).
-/

namespace Sys2Proof.Machine

/-! ## Numbers -/

/-- The mean, in hundredths of an ampere per window of 50 µs, that the slew limit allows (R605). -/
def slewStep (d : Dev) : ℚ := ratBits (rd d OD.inputSlewLimit) * (5 / 100)

/-- Whether a reading exists and lies above, or below, a bound. -/
def above (w : W32) (x : ℚ) : Bool := match ratOf w with | some v => decide (x < v) | none => false
def below (w : W32) (x : ℚ) : Bool := match ratOf w with | some v => decide (v < x) | none => false

/-- The FP32 value that an object holds. -/
def rdF (d : Dev) (key : Nat) : W32 := BitVec.ofNat 32 (rd d key)

/-! ## Power lost -/

/-- The dies but HV and FL lose power: rails down, memory contents lost (R283), every function waits for power. -/
def losePower (d : Dev) : Dev :=
  let d := keepResets (fun _ => false) (resetDies d)
  let m : MemState := { MemState.reset with
    retired := d.mem.retired, tableFull := d.mem.tableFull, lost := d.mem.lost, rehoming := d.mem.rehoming,
    llcOff := d.mem.llcOff, laneRepairs := d.mem.laneRepairs,
    placement := d.mem.placement, roles := d.mem.roles }
  let d := startedFns.foldl (fun d f =>
    if readyState d f = RS.failed ∨ readyState d f = RS.absent then d else setReady f RS.init 7 d) { d with mem := m }
  wr OD.supplyMeasured 0 { d with pow := { d.pow with
    hotSwap := false, pwrGood := false, rail := 0, loweredTo := none, windowCurrent := 0x7FC00000, waiting := false } }

/-! ## Power-down (R612) -/

/-- A power-down begins: the compute domain fenced, dirty lines of the CXL window written back, every fabric port and edge
port down. A critical one overtakes an orderly one. -/
def beginDown (kind : DownSt) (d : Dev) : Dev :=
  if d.pow.down = .off ∨ d.pow.down = .critical ∨ d.pow.down = kind then d
  else if d.pow.down = .orderly then { d with pow := { d.pow with down := kind } }
  else
    let d := allPortsDown (writeBack true (fenceCompute (keepResets (fun _ => false) d)))
    let d := [0, 1].foldl (fun d e => setEdgeLink e 0 (edgeLink e 0 0 0 false d)) d
    { d with pow := { d.pow with down := kind } }

/-- POWER_DOWN_COMPLETE: the rails are off and PWR_GOOD is released. -/
def powerDownComplete (d : Dev) : Dev :=
  if d.pow.down = .orderly ∨ d.pow.down = .critical then
    let d := losePower (raise hivanPort 0x2141 0 0 [] d)
    { d with pow := { d.pow with down := .off } }
  else d

def execPowerDownComplete (s : State) : Out := onDev powerDownComplete s

/-- PWR_EN_RELEASE: an orderly power-down of what has started. -/
def pwrEnRelease (d : Dev) : Dev :=
  let d := { d with pow := { d.pow with pwrEn := false } }
  if d.pow.hotSwap then beginDown .orderly d else d

def execPwrEnRelease (s : State) : Out := onDev pwrEnRelease s

/-! ## The start of the dies (R603, R611, R627) -/

/-- Whether the tested sink current lies within 0.45-0.60 A. -/
def sinkGood (w : W32) : Bool :=
  match ratOf w with
  | some x => decide (45 / 100 ≤ x) && decide (x ≤ 60 / 100)
  | none => false

/-- t0: every function of the dies begins to start (R627). -/
def startDies (d : Dev) : Dev := startedFns.foldl (fun d f => beginFunction f d) (takeRoles d)

/-- PWR_EN_ASSERT: the discharge test, the charging of the input, and the start. A module that has been powered down waits
for a power cycle. A pin that stands asserted when the management function becomes READY, or when the 48 V input is connected, is
presented again (log entry 132). -/
def pwrEnAssert (sink : W32) (d : Dev) : Dev :=
  let d := { d with pow := { d.pow with pwrEn := true } }
  if d.pow.hotSwap ∨ !d.pow.v48present ∨ d.pow.down ≠ .none ∨ !coresRun d ∨ readyState d OD.readyPower = RS.failed then d
  else
    let d := wr OD.dischargeSinkCurrent sink.toNat { d with pow := { d.pow with sinkOk := sinkGood sink } }
    if sinkGood sink then startDies { d with pow := { d.pow with hotSwap := true } }
    else setReady OD.readyPower RS.failed 4 (raise hivanPort 0x2140 0 0 [] d)

def execPwrEnAssert (sinkCurrent : W32) (s : State) : Out := onDev (pwrEnAssert sinkCurrent) s

/-! ## Inputs (R596) -/

/-- The energy stored behind the input at a voltage, with the capacitance of R601 (log entry 24). -/
def storedEnergy (v : ℚ) : W32 := f32OfRat (1 / 2 * (35 / 10000) * v * v)

/-- INPUT_48V_RANGE: the voltage reached and for how long it has held. -/
def input48V (volts : W32) (held : Nat) (d : Dev) : Dev :=
  match ratOf volts with
  | none => d
  | some v =>
    let ok := decide (44 ≤ v) && decide (v ≤ 56)
    let lost := (decide (v < 40) && decide (1000 ≤ held)) || (decide (58 < v) && decide (10 ≤ held))
    let was := d.pow.v48ok
    let present := d.pow.v48present
    let d := wr OD.inputVoltage48 volts.toNat (wr OD.storedEnergy (storedEnergy v).toNat
      { d with pow := { d.pow with v48ok := ok, v48present := !lost && (ok || present) } })
    if lost then
      if present then
        let d := raise hivanPort 0x2121 0 0 [] d
        if d.pow.hotSwap then losePower d else d
      else d
    else if was && !ok then raise hivanPort 0x2120 0 0 [] d
    else d

def execInput48VRange (volts : W32) (heldUs : Nat) (s : State) : Out := onDev (input48V volts heldUs) s

/-- INPUT_12V_RANGE: at a disconnect Hivan loses its supply, and with it the hot-swap controller; EV_2121 waits for
the next start (log entry 25). -/
def input12V (volts : W32) (held : Nat) (d : Dev) : Dev :=
  match ratOf volts with
  | none => d
  | some v =>
    let ok := decide (108 / 10 ≤ v) && decide (v ≤ 132 / 10)
    let lost := (decide (v < 10) || decide (14 < v)) && decide (1000 ≤ held)
    let d := wr OD.inputVoltage12 volts.toNat { d with pow := { d.pow with v12ok := ok } }
    if lost ∧ d.hv.running then
      let d := raise hivanPort 0x2121 0 0 [] (if d.pow.hotSwap then losePower d else d)
      { d with hv := { d.hv with running := false } }
    else d

def execInput12VRange (volts : W32) (heldUs : Nat) (s : State) : Out := onDev (input12V volts heldUs) s

/-- DISCHARGE (R602): the sink is applied below 38 V, or with PWR_EN and PWR_GOOD released, until the voltage is below 20 V. -/
def discharge (volts : W32) (held : Nat) (d : Dev) : Dev :=
  match ratOf volts with
  | none => d
  | some v =>
    let low := decide (v < 38) && decide (100 ≤ held)
    let released := !d.pow.pwrEn && !d.pow.pwrGood
    let on := decide (20 ≤ v) && (d.pow.sink || low || released)
    wr OD.storedEnergy (storedEnergy v).toNat { d with pow := { d.pow with sink := on } }

def execDischarge (volts : W32) (heldUs : Nat) (s : State) : Out := onDev (discharge volts heldUs) s

/-! ## The power limit (R598) -/

/-- POWER_LIMIT_WINDOW: the mean over 10 ms at the end of a window of 1 ms. -/
def powerLimit (mean : W32) (d : Dev) : Dev :=
  let limit : ℚ := (rd d OD.powerLimit : ℚ)
  let cap := rd d OD.powerCap
  if !coresRun d then d
  else if above mean limit then
    let d := { d with pow := { d.pow with powerBelow := 0 } }
    if cap ≤ 620 then d
    else
      let d := if d.pow.powerFell then d else raise hivanPort 0x2122 0 0 [] { d with pow := { d.pow with powerFell := true } }
      applyCaps (wr OD.powerCap (Nat.max 620 (cap - 5)) d)
  else if below mean (limit * (95 / 100)) ∧ cap < 880 then
    if 10 ≤ d.pow.powerBelow + 1 then
      let up := Nat.min 880 (cap + 5)
      applyCaps (wr OD.powerCap up { d with pow := { d.pow with
        powerBelow := 0, powerFell := d.pow.powerFell && decide (up < 880) } })
    else { d with pow := { d.pow with powerBelow := d.pow.powerBelow + 1 } }
  else { d with pow := { d.pow with powerBelow := 0 } }

def execPowerLimitWindow (meanPower : W32) (s : State) : Out := onDev (powerLimit meanPower) s

/-! ## The governor (R605-R608) -/

/-- The setpoint rails dip: how far depends on the draw, which the manual leaves to the module: a free number of steps of
5 mV, down to 620 mV at most (R606). -/
def dip (d : Dev) : Dev :=
  let k := (d.pow.rail - 620) / 5
  if k = 0 then d
  else
    let n := 1 + (freeBits d).toNat % k
    let r := d.pow.rail - 5 * n
    raiseRated 0x2130 1000000 hivanPort 0x2130 0 0 [] (inc OD.governorDips (setRail r (drew d)))

/-- GOVERNOR_WINDOW: the mean input current of a window of 50 µs, the current that the work demands in the next, and the
ballast that the idle arrays run. -/
def governorWindow (current demand ballast : W32) (d : Dev) : Dev :=
  let last := d.pow.windowCurrent
  let rises : W32 → Bool := fun w => match ratOf last with
    | some x => above w (x + slewStep d)
    | none => false
  let ruled := d.pow.pwrGood && d.pow.down != .critical
  let peak := if d.seq.st = .open ∧ above current (ratBits d.seq.peakThis) then current.toNat else d.seq.peakThis
  let d := wr OD.inputCurrent48 current.toNat (wr OD.ballastPower ballast.toNat
    { d with pow := { d.pow with windowCurrent := current }, seq := { d.seq with peakThis := peak } })
  let d := if ruled && rises demand then dip d else d
  if ruled && rises current then raise hivanPort 0x2131 0 0 [] (inc OD.slewExceeded d) else d

def execGovernorWindow (current demand ballast : W32) (s : State) : Out := onDev (governorWindow current demand ballast) s

/-! ## Sensors (R535, R609) -/

/-- The objects of a sensor class, in the order of its readings. -/
def sensorKeys : SensorKind → List Nat
  | .temperature => (List.range 96).map (fun i => OD.temperature + i)
  | .stackTemperature => (List.range 12).map (fun i => OD.stackTemperature + i)
  | .railVoltage => (List.range 36).map (fun i => OD.railVoltage + i)
  | .railCurrent => (List.range 36).map (fun i => OD.railCurrent + i)
  | .input => [OD.inputVoltage48, OD.inputCurrent48, OD.inputPower, OD.inputVoltage12, OD.inputCurrent12]
  | .coolant => [OD.coolantInlet, OD.coolantOutlet, OD.coolantFlow]
  | .laser => (List.range 16).map (fun i => OD.laserInputPower + i)

/-- A sensor marked failed: its object reads the canonical NaN from now on. -/
def failSensor (kind : SensorKind) (key : Nat) (d : Dev) : Dev :=
  if d.pow.failedSensors.contains key then d
  else
    let d := wr key 0x7FC00000 (raise hivanPort 0x400D 0 0 [] (inc OD.sensorsFailed
      { d with pow := { d.pow with failedSensors := d.pow.failedSensors ++ [key] } }))
    if kind = .temperature ∧ readyState d OD.readyThermal = RS.ready then setReady OD.readyThermal RS.degraded 2 d else d

/-- The temperatures of the dies that the throttle limit covers: the compute, base and link dies. -/
def dieTemps (d : Dev) : List ℚ := (List.range 88).filterMap (fun i => measured d (OD.temperature + i))
def stackTemps (d : Dev) : List ℚ := (List.range 12).filterMap (fun i => measured d (OD.stackTemperature + i))

/-- A condition that holds keeps the time it began. -/
def since (holds : Bool) (d : Dev) (old : Option Nat) : Option Nat := if holds then some (old.getD d.tick) else none

/-- What the thermal limits watch, after a sample. -/
def watchThermal (d : Dev) : Dev :=
  let jt := ratBits (rd d OD.junctionThrottle)
  let ht := ratBits (rd d OD.hbmThrottle)
  let hot := (dieTemps d).any (fun t => decide (jt < t)) || (stackTemps d).any (fun t => decide (ht < t))
  let cool := (dieTemps d).all (fun t => decide (t + 3 ≤ jt)) && (stackTemps d).all (fun t => decide (t + 3 ≤ ht))
  let inlet := above (rdF d OD.coolantInlet) (ratBits (rd d OD.inletLimit))
  let low := below (rdF d OD.coolantFlow) 4
  let crit := below (rdF d OD.coolantFlow) 2
  { d with pow := { d.pow with
    hotSince := since hot d d.pow.hotSince, coolSince := since cool d d.pow.coolSince,
    inletSince := since inlet d d.pow.inletSince, flowLowSince := since low d d.pow.flowLowSince,
    flowCritSince := since crit d d.pow.flowCritSince, inletRaised := d.pow.inletRaised && inlet,
    flowHeld := d.pow.flowHeld && low } }

/-- The highest working temperature point (R609). -/
def hottestPoint (d : Dev) : Option (Nat × ℚ) :=
  (List.range 96).foldl (fun m i => match measured d (OD.temperature + i), m with
    | some x, some (_, y) => if y < x then some (i, x) else m
    | some x, none => some (i, x)
    | none, _ => m) none

def reportHottest (d : Dev) : Dev :=
  match hottestPoint d with
  | some (i, _) => wr OD.temperatureMaxPoint i (wr OD.temperatureMax (rd d (OD.temperature + i)) d)
  | none => d

/-- SupplyMeasured is the lowest measured setpoint rail, in whole mV, where any is measured (R63, log entry 104). -/
def reportSupply (d : Dev) : Dev :=
  match (List.range 10).filterMap (fun i => measured d (OD.railVoltage + i)) with
  | [] => d
  | v :: vs => wr OD.supplyMeasured ((⌊vs.foldl min v * 1000⌋.toNat) % 2 ^ 16) d

/-- SENSOR_SAMPLE: the readings of a class; `bad` are the sensors of it that lie outside their physical range or stand still
while their neighbours change. -/
def sensorSample (kind : SensorKind) (readings : List W32) (bad : List Nat) (d : Dev) : Dev :=
  if !coresRun d then d
  else
    let keys := sensorKeys kind
    let put := fun (d : Dev) (x : Nat × W32) => if d.pow.failedSensors.contains x.1 then d else wr x.1 x.2.toNat d
    let d := (bad.filterMap (fun i => keys[i]?)).foldl (fun d k => failSensor kind k d) d
    let d := (keys.zip readings).foldl put d
    let d := if kind = .laser then watchStandby d else d
    let d := if kind = .railVoltage then reportSupply d else d
    watchThermal (reportHottest d)

def execSensorSample (kind : SensorKind) (readings : List W32) (badSensors : List Nat) (s : State) : Out :=
  onDev (sensorSample kind readings badSensors) s

/-! ## Thermal limits (R610) -/

/-- Whether a condition has held for so many µs. -/
def heldFor (d : Dev) (us : Nat) : Option Nat → Bool
  | some t => decide (t + us ≤ d.tick)
  | none => false

/-- Whether a critical limit is met. -/
def critical (d : Dev) : Bool :=
  (List.range 96).any (fun i => !below (rdF d (OD.temperature + i)) (ratBits (rd d OD.junctionCritical)) &&
    (measured d (OD.temperature + i)).isSome) ||
  (stackTemps d).any (fun t => decide (ratBits (rd d OD.hbmCritical) ≤ t)) || heldFor d 1000000 d.pow.flowCritSince

/-- The highest thermal cap that the flow permits. -/
def flowCap (d : Dev) : Nat := if d.pow.flowHeld then 700 else 880

/-- The cap lowered for want of flow. -/
def holdForFlow (d : Dev) : Dev :=
  let d := { d with pow := { d.pow with flowHeld := true } }
  wr OD.thermalCap (Nat.min 700 (rd d OD.thermalCap)) d

/-- A throttle limit exceeded for 1 ms: the cap falls by 5 mV. -/
def thermalFall (d : Dev) : Dev :=
  let cap := rd d OD.thermalCap
  if heldFor d 1000 d.pow.hotSince ∧ 620 < cap then
    let d := if d.pow.thermFell then d else raise hivanPort 0x2201 0 0 [] d
    wr OD.thermalCap (Nat.max 620 (cap - 5)) { d with pow := { d.pow with thermFell := true, hotSince := some d.tick } }
  else d

/-- Every point cool for 10 ms: the cap rises by 5 mV. -/
def thermalRise (d : Dev) : Dev :=
  let cap := rd d OD.thermalCap
  if heldFor d 10000 d.pow.coolSince ∧ cap < flowCap d then
    let up := Nat.min (flowCap d) (cap + 5)
    wr OD.thermalCap up { d with pow := { d.pow with
      coolSince := some d.tick, thermFell := d.pow.thermFell && decide (up < 880) } }
  else d

/-- The inlet too warm, or the flow too low, for 1 s. -/
def coolantLimits (d : Dev) : Dev :=
  let d := if heldFor d 1000000 d.pow.inletSince && !d.pow.inletRaised
    then raise hivanPort 0x2203 0 0 [] { d with pow := { d.pow with inletRaised := true } } else d
  if heldFor d 1000000 d.pow.flowLowSince && !d.pow.flowHeld then holdForFlow (raise hivanPort 0x2204 0 0 [] d) else d

/-- THERMAL_LIMIT: what the conditions held for their times bring about. -/
def thermalLimit (d : Dev) : Dev :=
  if !coresRun d then d
  else
    let d := applyCaps (thermalRise (thermalFall (coolantLimits d)))
    if critical d ∧ d.pow.hotSwap ∧ d.pow.down ≠ .critical then beginDown .critical (raise hivanPort 0x2202 0 0 [] d) else d

def execThermalLimit (s : State) : Out := onDev thermalLimit s

/-! ## Power phases (R504, R599) -/

/-- The phase cap that the phases shed bring about. -/
def phaseCapOf (d : Dev) : Nat :=
  let worst := (List.range 6).foldl (fun m i => Nat.max m (rd d (OD.phasesShed + i))) 0
  if worst ≤ 1 then 880 else if worst = 2 then 800 else 700

/-- POWER_PHASE_FAULT: a phase of a base die (0 to 3) or link die (4, 5) shed. -/
def powerPhaseFault (die : Nat) (d : Dev) : Dev :=
  let n := rd d (OD.phasesShed + die) + 1
  if 6 ≤ die ∨ (if die < 4 then 24 else 8) < n then d
  else
    let port := if die < 4 then bdPort die else ldPort (die - 4)
    let d := wr (OD.phasesShed + die) n (raise port 0x400A 0 0 [] d)
    let d := applyCaps { d with pow := { d.pow with phaseCap := phaseCapOf d } }
    if n = 3 then raise hivanPort 0x2123 0 0 [] d else if n = 4 then beginDown .orderly d else d

def execPowerPhaseFault (die : Nat) (s : State) : Out := onDev (powerPhaseFault die) s

/-! ## The power-cycle request (R522, R613) -/

/-- POWER_CYCLE_REQUEST: the request driven where Hivan cannot start a full restart; EV_2142 when no power cycle has come
within 10 s, and the request again every 60 s. -/
def powerCycleRequest (d : Dev) : Dev :=
  if !d.hv.running then d
  else if !d.pow.pcycReq then requestCycle d
  else if !d.pow.pcycLate then
    if d.pow.pcycAt + 10000000 ≤ d.tick then
      raise hivanPort 0x2142 0 0 [] { d with pow := { d.pow with pcycLate := true } } else d
  else if d.pow.pcycAt + 60000000 ≤ d.tick then
    inc OD.powerCycleRequests { d with pow := { d.pow with pcycAt := d.tick } }
  else d

def execPowerCycleRequest (s : State) : Out := onDev powerCycleRequest s

/-! ## Functions (R628) -/

/-- FUNCTION_START: a function that waits starts once the functions it needs work; it fails with one of them (R628). -/
def functionStart (f : FunctionKey) (d : Dev) : Dev :=
  if !startedFns.contains f ∨ readyState d f ≠ RS.init ∨ readyReason d f ≠ 7 then d
  else if (needsOf d f).any (fun g => readyState d g == RS.failed) then setReady f RS.failed 7 d
  else if (needsOf d f).all (works d) then setReady f RS.init 1 d
  else d

def execFunctionStart (f : FunctionKey) (s : State) : Out := onDev (functionStart f) s

/-- HBM_INITIALISED: every line written with zero data and a valid codeword. -/
def hbmInitialised (d : Dev) : Dev :=
  if readyState d OD.readyHbm = RS.init ∧ readyReason d OD.readyHbm = 1 ∧ d.mem.initDue then
    { d with mem := { d.mem with cells := d.mem.cells.filter (fun c => decide (reserveEnd ≤ c.1)),
                                 poison := d.mem.poison.filter (fun l => decide (reserveEnd ≤ 64 * l)), initDue := false } }
  else d

def execHbmInitialised (s : State) : Out := onDev hbmInitialised s

/-- Laser inputs of an engine that are above the threshold. -/
def goodInputs (d : Dev) (e : Nat) : List Nat := [0, 1].filter (fun i => inputGood d (2 * e + i))

/-- Whether the ready condition of R628 holds as far as the state shows it, and whether the function is DEGRADED. -/
def readyWhen (d : Dev) (f : FunctionKey) : Bool × Bool :=
  let i := f / 256
  let n := f % 256 - 1
  match i with
  | 0x2001 => (true, d.faults.failedClusters.any (fun c => c / 64 == n))
  | 0x2002 => (true, !d.mem.llcOff.isEmpty)
  | 0x2003 => (!d.mem.initDue, d.mem.lost.isSome)
  | 0x2004 => (if edgeRoleOf d n = 2 then decide ((cxlPort d.mem n).st = .up) else nfld (rd d (OD.edgeLinkState + n)) 2 0 == 2, false)
  | 0x2005 => (portUp d n, false)
  | 0x2006 => (!(goodInputs d n).isEmpty, decide ((goodInputs d n).length < 2))
  | 0x200B => (d.pow.hotSwap, false)
  | 0x200C => (true, below (rdF d OD.coolantFlow) 4 || d.pow.failedSensors.any (fun k => (sensorKeys .temperature).contains k))
  | _ => (true, false)

/-- What a function's start sets besides its state: the rails at 620 mV and PWR_GOOD; the thermal cap held for want of flow;
the active laser input; the firmware that a sequencer processor runs. -/
def onReady (f : FunctionKey) (d : Dev) : Dev :=
  let n := f % 256 - 1
  match f / 256 with
  | 0x200B => moveRail 620 880 { d with pow := { d.pow with pwrGood := true } }
  | 0x200C => if below (rdF d OD.coolantFlow) 4 then applyCaps (holdForFlow d) else d
  | 0x2006 => wr (OD.laserActive + n) ((goodInputs d n).headD 0) d
  | 0x2008 =>
    let slot := if rd d OD.activeSlot = 0 then d.hv.imageA else d.hv.imageB
    wr OD.sequencerRelease (rd d OD.activeRelease) { d with sec := { d.sec with seqDigest := slot.image.bodyDigest } }
  | _ => d

/-- A Hivan restart ends (R559): slots with an unanswered doorbell get ST_FENCED, a pending mailbox frame REFUSE. -/
def hivanBack (d : Dev) : Dev :=
  let d := { d with hv := { d.hv with restarting := false } }
  let fence := fun (_ : Nat) (x : InSlot) =>
    if x.doorbell ≠ x.done then { x with reply := replyBytes ST.fenced 0 0 [], done := x.doorbell, pending := false } else x
  let d := { d with hv := { d.hv with slots := mmap fence d.hv.slots } }
  let d := if d.hv.mailDone then d
    else refuse true 0 ST.fenced d
  if rd d OD.managementMode = 0 then setReady OD.readyManagement RS.ready 0 d else setReady OD.readyManagement RS.degraded 2 d

/-- What a function's start finds and withdraws: clusters of a compute die that fail their test are moved without state or
marked failed; LLC ways are disabled; HBM lanes are repaired, and a stack that fails training is present no longer (R33, R253,
R259, R626, R633). -/
def applyTests (f : FunctionKey) (t : StartTests) (d : Dev) : Dev :=
  let n := f % 256 - 1
  match f / 256 with
  | 0x2001 =>
    let bad := (t.clusters.filter (fun c => c / 64 == n && !d.faults.failedClusters.contains c)).eraseDups
    bad.foldl (fun d c => moveStateless c d) d
  | 0x2002 =>
    let bad := (t.ways.filter (fun k => decide (k < 2 ^ 24) && decide (k % 16 < 12) && !d.mem.llcOff.contains k)).eraseDups
    bad.foldl (fun d k => disableWay k d) d
  | 0x2003 =>
    let d := { d with mem := { d.mem with laneRepairs := d.mem.laneRepairs ++
      (t.lanes.filter (fun l => decide (l < 36 * 384) && !d.mem.laneRepairs.contains l)).eraseDups } }
    let gone := (List.range 12).filter (fun s => t.trainFailed.contains s)
    let d := if gone.isEmpty then d
      else wr OD.stacksPresent (gone.foldl (fun v s => if v.testBit s then v - 2 ^ s else v) (rd d OD.stacksPresent)) d
    if gone.isEmpty then d else setReady f RS.failed 4 d
  | _ => d

/-- FUNCTION_READY: a function that starts reports READY, DEGRADED or FAILED. For the management function it is the end of
a Hivan restart. -/
def functionReady (f : FunctionKey) (failed : Bool) (tests : StartTests) (d : Dev) : Dev :=
  if f = OD.readyManagement then
    if d.hv.running && d.hv.restarting then
      if failed then setReady f RS.failed 4 { d with hv := { d.hv with restarting := false } } else hivanBack d
    else d
  else if !startedFns.contains f ∨ readyState d f ≠ RS.init ∨ readyReason d f ≠ 1 ∨ !(needsOf d f).all (works d) then d
  else if failed then setReady f RS.failed 4 d
  else if !(readyWhen d f).1 then d
  else
    let d := applyTests f tests d
    let r := readyWhen d f
    let twoStates := [0x2007, 0x200A].contains (f / 256)
    if readyState d f = RS.failed then d
    else if (r.2 || tests.degraded) && !twoStates then setReady f RS.degraded 2 (onReady f d)
    else setReady f RS.ready 0 (onReady f d)

def execFunctionReady (f : FunctionKey) (failed : Bool) (tests : StartTests) (s : State) : Out :=
  onDev (functionReady f failed tests) s

end Sys2Proof.Machine
end

