-- ==== Sys2Proof/Machine/Log.lean ====
section
/-!
DEFINITION. The event log: severities, entries, the RAM ring, the persistent log, notices and the alert pin (R536-R542, R616,
R635).
-/

namespace Sys2Proof.Machine

/-! ## Severities (R635) -/

def noticeEvents : List Nat :=
  [0x2110, 0x2130, 0x2132, 0x2141, 0x2201, 0x2431, 0x2441, 0x2610, 0x2612, 0x2613, 0x2803, 0x2821, 0x3050, 0x3063,
   0x3101, 0x3110, 0x3401, 0x3623, 0x3624, 0x3627, 0x4002, 0x6004, 0x6011, 0x7005]

def warningEvents : List Nat :=
  [0x1103, 0x1104, 0x2111, 0x2112, 0x2120, 0x2122, 0x2131, 0x2203, 0x2420, 0x2421, 0x2422, 0x2423, 0x2430, 0x2440,
   0x2611, 0x2620, 0x2802, 0x2805, 0x2810, 0x2820, 0x3001, 0x3002, 0x3003, 0x3041, 0x3060, 0x3061, 0x3062, 0x3070,
   0x3102, 0x3111, 0x3120, 0x3121, 0x3402, 0x3403, 0x3601, 0x3604, 0x3605, 0x3611, 0x3620, 0x3622, 0x3625, 0x4001,
   0x4003, 0x4009, 0x400A, 0x400C, 0x400D, 0x5001, 0x5002, 0x6005, 0x6010, 0x7002, 0x7004, 0x7006, 0x7008]

def errorEvents : List Nat :=
  [0x2121, 0x2123, 0x2140, 0x2204, 0x2804, 0x2822, 0x3602, 0x3603, 0x3626, 0x3628, 0x4004, 0x4005, 0x4006, 0x4007,
   0x400B, 0x6001]

def criticalEvents : List Nat := [0x2142, 0x2202, 0x4008, 0x6002, 0x6003, 0x6012, 0x6013, 0x7007]

/-- The severity of an event ID; an INFO event and one that the table does not list read 0. -/
def severityOf (e : Nat) : Nat :=
  if criticalEvents.contains e then 4 else if errorEvents.contains e then 3
  else if warningEvents.contains e then 2 else if noticeEvents.contains e then 1 else 0

/-- OD 0x5004.01: two events a byte. -/
def severityBytes : Bytes :=
  (List.range 32768).map (fun i => BitVec.ofNat 8 (severityOf (2 * i) + 16 * severityOf (2 * i + 1)))

/-! ## Entries (R537) -/

/-- The words of an entry. -/
def LogRec.words (r : LogRec) : List Nat :=
  [r.seq, r.time % 2 ^ 48 + r.boot % 2 ^ 16 * 2 ^ 48,
   r.event + r.source * 2 ^ 16 + r.severity * 2 ^ 24 + r.details.length * 2 ^ 28 + r.inst * 2 ^ 32 + r.rep * 2 ^ 48,
   r.detail0] ++ r.details

def LogRec.bytes (r : LogRec) : Bytes := r.words.flatMap (leBytes 8)

/-- Size of an entry in bytes. -/
def LogRec.size (r : LogRec) : Nat := 8 * (4 + r.details.length)

def logSize (l : List LogRec) : Nat := (l.map LogRec.size).sum

/-- The log without its oldest entries, so that it fits a size. -/
def fitLog (limit : Nat) : List LogRec → List LogRec
  | [] => []
  | r :: l => if logSize (r :: l) ≤ limit then r :: l else fitLog limit l

/-- The latest entry that a test finds, with REPEAT raised, saturating (R537). -/
def bumpLast (p : LogRec → Bool) : List LogRec → Option (List LogRec)
  | [] => none
  | r :: l => match bumpLast p l with
    | some l' => some (r :: l')
    | none => if p r then some ({ r with rep := Nat.min 0xFFFF (r.rep + 1) } :: l) else none

/-! ## Persistence (R540) -/

/-- Entries that may be persisted now: so many a second, 1,024 at most at once. -/
def refillTokens (d : Dev) (l : LogStore) : LogStore :=
  let rate := Nat.max 1 (rd d OD.persistRate)
  let n := (d.tick - l.persistTick) * rate / 1000000
  if 1024 ≤ l.persistTokens + n then { l with persistTokens := 1024, persistTick := d.tick }
  else { l with persistTokens := l.persistTokens + n, persistTick := l.persistTick + n * 1000000 / rate }

/-- The persistent log with an entry; its oldest 64 KiB are erased when 8 MiB are full. -/
def keepPersisted (r : LogRec) (l : List LogRec) : List LogRec :=
  (if logSize l + r.size ≤ 8388608 then l else fitLog (8388608 - 65536) l) ++ [r]

/-- An entry at or above the threshold is persisted within the rate; one beyond it is counted, with EV_5002. -/
def persistEntry (r : LogRec) (x : Dev × LogStore) : Dev × LogStore :=
  if r.severity < rd x.1 OD.persistThreshold then x
  else
    let l := refillTokens x.1 x.2
    if l.persistTokens = 0 then
      (raiseRated 0x5002 1000000 hivanPort 0x5002 0 0 [] (inc OD.persistDropped x.1), l)
    else (x.1, { l with persistTokens := l.persistTokens - 1, persisted := keepPersisted r l.persisted })

/-! ## Notices (R542) -/

/-- A session's NOTICE of an entry. -/
def noticeTo (r : LogRec) (n : Nat) (d : Dev) : Dev :=
  match mfind d.hv.sessions n with
  | some s =>
    match s.notices with
    | some v =>
      if v ≤ r.severity then
        let s' : Session := { s with noticeSeq := s.noticeSeq + 1 }
        sendMessage (some s.keyOut) n 0x20 s.noticeSeq r.bytes { d with hv := { d.hv with sessions := mset d.hv.sessions n s' } }
      else d
    | none => d
  | none => d

/-- MSI-X vector 1 on a bridge device, at most once per 100 µs. -/
def noticeHost (r : LogRec) (d : Dev) : Dev :=
  let bridge := edgeRoleOf d 0 == 1 || edgeRoleOf d 1 == 1
  if bridge && decide (rd d OD.hostNoticeThreshold ≤ r.severity) &&
      (d.hv.lastNotice == 0 || decide (d.hv.lastNotice + 99 ≤ d.tick)) then
    send (.msix 1) { d with hv := { d.hv with lastNotice := d.tick + 1 } }
  else d

/-! ## Making entries -/

/-- An entry enters the ring, the persistent log, and the notices. -/
def addEntry (source id inst detail0 : Nat) (details : List Nat) (x : Dev × LogStore) : Dev × LogStore :=
  let d := x.1
  let l := x.2
  let r : LogRec := { seq := l.nextSeq, time := rd d OD.tickCount % 2 ^ 48, boot := l.boot, event := id, source,
                      severity := severityOf id, inst, rep := 0, detail0, details := details.take 15 }
  let l := { l with ring := fitLog 2097152 (l.ring ++ [r]), nextSeq := (l.nextSeq + 1) % 2 ^ 64 }
  let y := persistEntry r (d, l)
  (noticeHost r ((y.1.hv.sessions.map (fun s => s.1)).foldl (fun d n => noticeTo r n d) y.1), y.2)

/-- The events whose repetitions raise REPEAT of an entry; INST 1 marks a repetition (R555, R590). -/
def repeats (e : Event) (r : LogRec) : Bool :=
  r.event == e.id && (e.id == 0x6001 || (r.detail0 == e.detail0 && r.details.head? == e.details.head?))

/-- An event that Hivan raised itself. -/
def addOwn (e : Event) (x : Dev × LogStore) : Dev × LogStore :=
  let coalesced := e.inst == 1 && (e.id == 0x1104 || e.id == 0x6001)
  let inst := if e.id = 0x1104 ∨ e.id = 0x6001 then 0 else e.inst
  match (if coalesced then bumpLast (repeats e) x.2.ring else none) with
  | some ring => (x.1, { x.2 with ring })
  | none => addEntry 16 e.id inst e.detail0 e.details x

/-- A gap marker that has been read: its drops are added to OD 0x5010 (R59). Hivan raises EV_5001 for it. What
a count does past 2^32 - 1 the manual does not say: here it wraps (DESIGN CHOICE, log entry 107). -/
def countGap (w : W64) (d : Dev) : Dev :=
  let fifo := fld w 55 48
  let key := OD.fifoDropped + 2 * (fifo / 16) + fifo % 16
  wr key ((rd d key + fld w 47 24) % 2 ^ 32) d

def gapDetails (w : W64) : List Nat := [fld w 47 24, fld w 23 0]

/-- A packet read from an event FIFO. -/
def addPacket (port : Nat) (p : List W64) (x : Dev × LogStore) : Dev × LogStore :=
  let w := p.headD 0
  if fld w 63 60 = 0xF then addEntry 16 0x5001 0 (fld w 55 48) (gapDetails w) (countGap w x.1, x.2)
  else addEntry port (fld w 55 40) (fld w 39 28) (fld w 27 0) (p.tail.map BitVec.toNat) x

/-- The next entry of a source: 0 to 9 the event FIFO of a port, 16 the events that Hivan raised. -/
def logNext (source : Nat) (x : Dev × LogStore) : Dev × LogStore :=
  let d := x.1
  if !coresRun d then x
  else if source < 10 then
    let f := mget Fifo.empty d.ev.events source
    match f.packets with
    | [] => x
    | p :: rest =>
      addPacket source p ({ d with ev := { d.ev with events := mput Fifo.empty d.ev.events source { f with packets := rest } } }, x.2)
  else if source = hivanPort then
    match takeRaised hivanPort d.ev.raised with
    | some (e, rest) => addOwn e ({ d with ev := { d.ev with raised := rest } }, x.2)
    | none => x
  else x

/-- LOG_ENTRY. -/
def execLogEntry (source : Nat) (s : State) : Out :=
  let r := logNext source (s.m, s.log)
  .next { s with m := r.1, log := r.2 }

/-! ## The log's objects (R541) -/

/-- OD 0x5000.02: SEQ of the oldest entry kept; of the next where none is. -/
def oldestSeq (l : LogStore) : Nat := (l.ring.head?.map (fun r => r.seq)).getD l.nextSeq

/-- The read cursor of a session or slot, 0 until written. -/
def cursorOf (d : Dev) (who : Client) : Nat :=
  match d.hv.cursors.find? (fun c => decide (c.1 = who)) with
  | some c => c.2
  | none => 0

def setCursor (who : Client) (seq : Nat) (d : Dev) : Dev :=
  { d with hv := { d.hv with cursors := d.hv.cursors.filter (fun c => decide (c.1 ≠ who)) ++ [(who, seq)] } }

/-- LOG_READ_CURSOR_WRITE. -/
def execLogReadCursorWrite (p : Path) (seq : Nat) (s : State) : Out :=
  onDev (runScalar OD.logReadCursor p seq true noUnit (fun d => (ST.ok, setCursor (clientOf p) seq d))) s

/-- Whole entries that fit a size, from the front. -/
def takeEntries (room : Nat) : List LogRec → List LogRec
  | [] => []
  | r :: l => if r.size ≤ room then r :: takeEntries (room - r.size) l else []

/-- A snapshot of LogReadData: whole entries from the cursor onward, and the cursor past them. -/
def readEntries (who : Client) (l : LogStore) (d : Dev) : Bytes × Dev :=
  let es := takeEntries 16384 (l.ring.filter (fun r => decide (cursorOf d who ≤ r.seq)))
  match es.getLast? with
  | none => ([], d)
  | some r =>
    let d := setCursor who (r.seq + 1) d
    (es.flatMap LogRec.bytes, { d with ev := { d.ev with readTo := Nat.max d.ev.readTo (r.seq + 1) } })

/-- ALERT_N: an entry of severity ERROR or above is unread in the RAM log, or the module is powered down (R616). -/
def alertAsserted (s : State) : Bool :=
  s.log.ring.any (fun r => decide (3 ≤ r.severity) && decide (s.m.ev.readTo ≤ r.seq)) || decide (s.m.pow.down = .off)

end Sys2Proof.Machine
end

