-- ==== Sys2Proof/Machine/Sessions.lean ====
section
/-!
DEFINITION. Sessions and the handshake, and the field network below them (R543, R544, R549, R550).
-/

namespace Sys2Proof.Machine

/-! ## Firmware update state, as far as sessions touch it (R557) -/

/-- The states of OD 0x7000.05. -/
abbrev US.idle : Nat := 0
abbrev US.erasing : Nat := 1
abbrev US.receiving : Nat := 2
abbrev US.verifying : Nat := 3
abbrev US.staged : Nat := 4
abbrev US.trial : Nat := 5

def updateSt (d : Dev) : Nat := rd d OD.updateState
def setUpdateSt (n : Nat) (d : Dev) : Dev := wr OD.updateState n d

/-- A pending command of the management firmware ends; the manual states no status for it. -/
def endUpdateCommand (d : Dev) : Dev :=
  if commandPending d OD.updateCommand then setCommandStatus OD.updateCommand (freeStatus d) (drew d) else d

/-- The update returns to IDLE from what it was doing. -/
def endUpdate (d : Dev) : Dev := setUpdateSt US.idle (endUpdateCommand d)

/-! ## Closing (R550) -/

/-- A session closes: EV_1102 with the reason; its snapshot, stage, cursor, nonce and subscription end; an update that it
began returns to IDLE from ERASING and RECEIVING. -/
def closeSession (n reason : Nat) (d : Dev) : Dev :=
  if !sessionOpen d n then d
  else
    let who := Client.session n
    let hv : HivanState := { d.hv with
      sessions := mdel d.hv.sessions n, stages := d.hv.stages.filter (fun x => decide (x.client ≠ who)),
      snaps := d.hv.snaps.filter (fun x => decide (x.client ≠ who)),
      cursors := d.hv.cursors.filter (fun x => decide (x.1 ≠ who)) }
    let sec : SecState := { d.sec with nonces := d.sec.nonces.filter (fun x => decide (x.1 ≠ who)) }
    let own := d.hv.update.session == .field n || d.hv.update.session == .mailbox n
    let d := raise hivanPort 0x1102 0 reason [] { d with hv := hv, sec := sec }
    if own && (updateSt d == US.erasing || updateSt d == US.receiving) then endUpdate d else d

/-- Every session closes for one reason. -/
def closeAll (reason : Nat) (d : Dev) : Dev := (d.hv.sessions.map (fun s => s.1)).foldl (fun d n => closeSession n reason d) d

/-- The mailbox is done with a frame that has no reply: DONE is set with a reply length of zero (log entry 27). -/
def mailboxDiscard (d : Dev) : Dev :=
  send (.msix 0) { d with hv := { d.hv with mailReply := [], mailDone := true, mailFrame := none } }

/-- A frame with no reply, on either path. -/
def frameDone (mailbox : Bool) (d : Dev) : Dev := if mailbox then mailboxDiscard d else d

/-- A malformed frame (R544). -/
def malformed (mailbox : Bool) (d : Dev) : Dev := frameDone mailbox (inc OD.requestsDiscarded d)

/-- CLOSE: a frame that names no open session is refused. -/
def closeFrame (n : Nat) (d : Dev) : Dev :=
  if !coresRun d then d
  else match mfind d.hv.sessions n with
    | some s => frameDone s.mailbox (closeSession n 1 d)
    | none => refuse false n ST.noSession d

def execClose (session : Nat) (s : State) : Out := onDev (closeFrame session) s

/-- SESSION_IDLE_EXPIRY. -/
def sessionIdleExpiry (n : Nat) (d : Dev) : Dev :=
  match mfind d.hv.sessions n with
  | some s => if coresRun d && decide (s.lastFrame + rd d OD.sessionIdle * 1000000 ≤ d.tick) then closeSession n 2 d else d
  | none => d

def execSessionIdleExpiry (session : Nat) (s : State) : Out := onDev (sessionIdleExpiry session) s

/-- A frame of a session whose tag fails: counted; the sixteenth in succession closes the session. -/
def tagFailed (n : Nat) (d : Dev) : Dev :=
  match mfind d.hv.sessions n with
  | some s =>
    let s' : Session := { s with tagFails := s.tagFails + 1 }
    let d := inc OD.tagFailures { d with hv := { d.hv with sessions := mset d.hv.sessions n s' } }
    let d := if 16 ≤ s.tagFails + 1 then closeSession n 3 d else d
    frameDone s.mailbox d
  | none => d

/-- TAG_FAILURE. -/
def execTagFailure (session : Nat) (s : State) : Out :=
  onDev (fun d => if !coresRun d then d
    else if sessionOpen d session then tagFailed session d else refuse false session ST.noSession d) s

/-- FRAGMENT_TIMEOUT: 200 ms after the first fragment of a message the rest has not come; the message is discarded and
nothing of it takes effect. Its first fragment was a frame of its session (log entry 28). -/
def fragmentTimeout (n : Nat) (d : Dev) : Dev :=
  match mfind d.hv.sessions n with
  | some s =>
    let s' : Session := { s with lastFrame := Nat.max s.lastFrame (d.tick - 200000) }
    if coresRun d then { d with hv := { d.hv with sessions := mset d.hv.sessions n s' } } else d
  | none => d

def execFragmentTimeout (session seq : Nat) (s : State) : Out :=
  let _ := seq
  onDev (fragmentTimeout session) s

/-! ## The handshake (R549, R584, R591) -/

/-- A handshake refused: REFUSE with a status, and EV_1103. -/
def refuseHandshake (mailbox : Bool) (st : Status) (d : Dev) : Dev :=
  refuse mailbox 0 st (raise hivanPort 0x1103 0 0 [] d)

/-- Whether an operator slot may open a session in the present tamper state. -/
def slotAdmitted (d : Dev) (slot : Nat) : Bool :=
  rd d OD.tamperState != 2 || (rd d OD.recoverySlots).testBit slot

/-- The operator key in a slot, empty where none is enrolled. -/
def operatorKeyOf (d : Dev) (slot : Nat) : Bytes := (rdBytes d (OD.operatorKey + slot)).getD []

/-- Why a HELLO is refused. -/
def helloStatus (d : Dev) (slot : Nat) : Status :=
  if d.sec.identity.isNone then ST.state
  else if !slotAdmitted d slot then ST.state
  else if operatorKeyOf d slot = [] then ST.access
  else if 2 ≤ d.hv.handshakes.length then ST.state
  else ST.ok

/-- The keys of a session, K_c then K_d. -/
def sessionKeys (ss transcript : Bytes) : Bytes := Config.kmac256 ss transcript 512 (ascii "HDP1 session")

/-- HELLO: the reply carries a fresh nonce, the ciphertext, and the identity's signature over the transcript. -/
def hello (mailbox : Bool) (slot : Nat) (nonce key : Bytes) (d : Dev) : Dev :=
  if !coresRun d then d
  else if 16 ≤ slot ∨ nonce.length ≠ 32 ∨ key.length ≠ 1568 then malformed mailbox d
  else if helloStatus d slot ≠ ST.ok then refuseHandshake mailbox (helloStatus d slot) d
  else
    let fresh := Config.random d.free 32
    let rnd := d.free + 1
    let body := fresh ++ Config.kemCipher key rnd
    let t := Config.sha3_512 (leBytes 8 slot ++ nonce ++ key ++ body)
    let sig := Config.mldsaSign (d.sec.identity.getD []) [] t
    let h : Handshake := { keySlot := slot, mailbox, transcript := t, signature := sig,
                           keys := sessionKeys (Config.kemSecret key rnd) t, since := d.tick }
    let d := drew (drew d)
    let d := { d with hv := { d.hv with handshakes := mset d.hv.handshakes d.hv.nextHs h, nextHs := d.hv.nextHs + 1 } }
    if mailbox then mailboxReply (fragment none 0 0x02 (mailSeq d) 1 0 (body ++ sig)) d
    else sendMessage none 0 0x02 0 (body ++ sig) d

def execHello (mailbox : Bool) (slot : Nat) (nonce encapKey : Bytes) (s : State) : Out :=
  onDev (hello mailbox slot nonce encapKey) s

/-- Tags toward the device and from it. -/
def keyIn (keys : Bytes) : Bytes := keys.take 32
def keyOut (keys : Bytes) : Bytes := keys.drop 32

/-- A SESSION ID: non-zero, random, and none that is open. -/
def freshSession (d : Dev) : Nat :=
  let r := (freeBits d).toNat
  let tries := (List.range 9).map (fun i => 1 + (r + i) % (2 ^ 32 - 1))
  (tries.find? (fun n => !sessionOpen d n)).getD 1

def dropHandshake (hs : Nat) (d : Dev) : Dev := { d with hv := { d.hv with handshakes := mdel d.hv.handshakes hs } }

/-- FINISH of a handshake whose tag is good. -/
def finishGood (mailbox : Bool) (hs : Nat) (h : Handshake) (signature : Bytes) (d : Dev) : Dev :=
  let d := dropHandshake hs d
  let signed := Config.mldsaVerify (operatorKeyOf d h.keySlot) [] (Config.sha3_512 (h.transcript ++ h.signature)) signature
  if !slotAdmitted d h.keySlot then refuseHandshake mailbox ST.state d
  else if !signed then refuseHandshake mailbox ST.access d
  else if rd d OD.sessionLimit ≤ d.hv.sessions.length then refuseHandshake mailbox ST.state d
  else
    let n := freshSession d
    let s : Session := { keySlot := h.keySlot, mailbox, keyIn := keyIn h.keys, keyOut := keyOut h.keys, lastSeq := 0,
                         lastReply := [], lastFrame := d.tick, tagFails := 0, notices := none, noticeSeq := 1 }
    let d := drew d
    let d := raise hivanPort 0x1101 0 0 [] { d with hv := { d.hv with sessions := mset d.hv.sessions n s } }
    if mailbox then mailboxReply (fragment (some (keyOut h.keys)) 0 0x04 (mailSeq d) 1 0 (leBytes 8 n)) d
    else sendMessage (some (keyOut h.keys)) 0 0x04 0 (leBytes 8 n) d

/-- FINISH: a frame whose tag fails under K_c is discarded and counted. -/
def finishWith (mailbox : Bool) (hs : Nat) (signature : Bytes) (tagOk : Handshake → Bool) (d : Dev) : Dev :=
  if !coresRun d then d
  else match mfind d.hv.handshakes hs with
    | none => malformed mailbox d
    | some h => if tagOk h then finishGood mailbox hs h signature d else frameDone mailbox (inc OD.tagFailures d)

def execFinish (mailbox : Bool) (hs : Nat) (signature tag : Bytes) (s : State) : Out :=
  onDev (finishWith mailbox hs signature (fun h =>
    decide ((fragment (some (keyIn h.keys)) 0 0x03 0 1 0 signature).tag = tag))) s

/-- HANDSHAKE_TIMEOUT: 5 s after its HELLO. -/
def handshakeTimeout (hs : Nat) (d : Dev) : Dev :=
  match mfind d.hv.handshakes hs with
  | some h => if h.since + 5000000 ≤ d.tick then dropHandshake hs d else d
  | none => d

def execHandshakeTimeout (hs : Nat) (s : State) : Out := onDev (handshakeTimeout hs) s

/-! ## The field network (R543) -/

/-- The octets of the MAC address, the first one in bits [47:40] (PRESUMED, log entry 29). -/
def macBytes : Bytes := (leBytes 6 Config.macAddress).reverse

/-- The link-local address, its interface ID formed from the MAC address as EUI-64 (PRESUMED, log entry 29). -/
def linkLocal : Bytes :=
  [0xFE, 0x80, 0, 0, 0, 0, 0, 0] ++
    (match macBytes with
     | [a, b, c, e, f, g] => [a ^^^ 0x02, b, c, 0xFF, 0xFE, e, f, g]
     | _ => [])

/-- Whether an address is the module's: link-local, or the static one unless it is all zero. -/
def ownAddress (d : Dev) (a : Bytes) : Bool :=
  let static := rdFull d OD.staticAddress
  decide (a = linkLocal) || (decide (a = static) && static.any (fun b => b != 0))

/-- Whether the interface is up: a strap value of 0 leaves it down. -/
def interfaceUp (d : Dev) : Bool := coresRun d && rd d OD.plcaNodeId != 0

/-- PLCA_STATUS_CHANGE: CSMA/CD is used only while the PHY reports PLCA status down. -/
def execPlcaStatusChange (up : Bool) (s : State) : Out :=
  onDev (fun d => { d with hv := { d.hv with plcaUp := up } }) s

/-- Whether the node contends for the segment by CSMA/CD. -/
def usesCsma (d : Dev) : Bool := interfaceUp d && !d.hv.plcaUp

/-- ICMPV6_ECHO_REQUEST. -/
def execIcmpv6EchoRequest (dst payload : Bytes) (s : State) : Out :=
  onDev (fun d => if interfaceUp d && ownAddress d dst then send (.echoReply payload) d else d) s

/-- NEIGHBOUR_SOLICITATION. -/
def execNeighbourSolicitation (target : Bytes) (s : State) : Out :=
  onDev (fun d => if interfaceUp d && ownAddress d target then send (.neighbourAdvert target) d else d) s

end Sys2Proof.Machine
end

