-- ==== Sys2Proof/Machine/Firmware.lean ====
section
/-!
DEFINITION. The management cores, the Hivan restart, and the firmware update (R531-R534, R556-R559, R582).
-/

namespace Sys2Proof.Machine

/-! ## Image slots (R556) -/

/-- The active slot: 0 A, 1 B. -/
def activeIx (d : Dev) : Nat := rd d OD.activeSlot % 2

def slotImage (d : Dev) (i : Nat) : SlotImage := if i = 0 then d.hv.imageA else d.hv.imageB

def setSlotImage (i : Nat) (x : SlotImage) (d : Dev) : Dev :=
  if i = 0 then { d with hv := { d.hv with imageA := x } } else { d with hv := { d.hv with imageB := x } }

/-- The slot that is not active. -/
def otherIx (d : Dev) : Nat := 1 - activeIx d

/-- The inactive slot marked invalid. -/
def spoilInactive (d : Dev) : Dev := setSlotImage (otherIx d) { slotImage d (otherIx d) with valid := false } d

/-- The image that Hivan runs: the inactive slot's in a trial. -/
def runningImage (d : Dev) : Image := (slotImage d (if updateSt d = US.trial then otherIx d else activeIx d)).image

/-- The part of a manifest that its signature covers (log entry 3). -/
def manifestBytes (i : Image) : Bytes :=
  leBytes 4 i.release ++ leBytes 4 i.secVersion ++ leBytes 4 i.minSeqRelease ++ i.bodyDigest ++ i.publicKey

/-- The checks of R582: the enclosed key is the Gomund firmware key, the signature verifies, and the body has the digest that
the manifest carries. -/
def imageGood (i : Image) : Bool :=
  decide (i.publicKey = Config.factoryKey 0) && Config.mldsaVerify i.publicKey (ascii "P3 image") (manifestBytes i) i.signature &&
  decide (i.bodyDigest = Config.sha3_512 i.body)

def setUpdate (u : UpdateRun) (d : Dev) : Dev := { d with hv := { d.hv with update := u } }

/-! ## Hivan restart (R559) -/

/-- Whether the staged image may start beside the sequencer firmware that runs (R557). -/
def trialFits (d : Dev) : Bool :=
  decide ((slotImage d (otherIx d)).image.minSeqRelease ≤ rd d OD.sequencerRelease)

/-- What a start does to an update that is marked for trial or in trial: a marked image begins its trial; the fourth start of
a trial without CONFIRM is its rollback (R558). At a Hivan restart the image must fit the sequencers' firmware. -/
def startTrial (fits : Bool) (d : Dev) : Dev :=
  let u := d.hv.update
  if updateSt d = US.staged ∧ u.marked ∧ fits then
    setUpdateSt US.trial (setUpdate { u with marked := false, trialStarts := 1, trialSince := d.tick } d)
  else if updateSt d = US.trial then
    if 3 ≤ u.trialStarts then setUpdateSt US.idle (raise hivanPort 0x7004 0 0 [] d)
    else setUpdate { u with trialStarts := u.trialStarts + 1 } d
  else d

/-- Commands of the firmware end at a restart. -/
def endFirmwareWork (d : Dev) : Dev :=
  if updateSt d = US.erasing ∨ updateSt d = US.verifying then endUpdate d else d

/-- A Hivan restart begins. Compute, memory and fabric run on; sessions, handshakes, snapshots, stages and cursors end. -/
def beginHivanRestart (d : Dev) : Dev :=
  let d := closeAll 4 (raise hivanPort 0x7005 0 0 [] d)
  let hv : HivanState := { d.hv with handshakes := [], stages := [], snaps := [], cursors := [], restarting := true,
                                     startedAt := d.tick }
  let d := endFirmwareWork { d with hv := hv }
  let d := startTrial (trialFits d) d
  setReady OD.readyManagement RS.init 1 (setUpdate { d.hv.update with due := false } d)

/-- A request that ends in a restart is answered first. -/
def restartIfDue (d : Dev) : Dev := if d.hv.update.due then beginHivanRestart d else d

/-- A trial is rolled back: EV_7004, and Hivan restarts from the former slot (R558). -/
def rollback (d : Dev) : Dev := beginHivanRestart (setUpdateSt US.idle (raise hivanPort 0x7004 0 0 [] d))

/-! ## Management cores (R531-R533) -/

/-- Whether a pair or a lone core runs, a restart included. -/
def coresAlive (d : Dev) : Bool := d.hv.running && readyState d OD.readyManagement != RS.failed

/-- The cores stay stopped. -/
def stopCores (d : Dev) : Dev :=
  setReady OD.readyManagement RS.failed 4 { d with hv := { d.hv with restarting := false } }

/-- One core goes on alone; the sessions, the log, the update and pending commands are kept. -/
def goSimplex (core : Nat) (d : Dev) : Dev :=
  let d := wr OD.managementMode (1 + core) d
  if d.hv.restarting then d else setReady OD.readyManagement RS.degraded 2 d

/-- A disagreement of the pair, by which cores pass their self tests. -/
def disagree (mc0 mc1 : Bool) (d : Dev) : Dev :=
  let d := raise hivanPort 0x400C 0 0 [] (inc OD.lockstepMismatches d)
  match mc0, mc1 with
  | true, true => beginHivanRestart d
  | true, false => goSimplex 0 d
  | false, true => goSimplex 1 d
  | false, false => stopCores d

/-- LOCKSTEP_MISMATCH. -/
def execLockstepMismatch (mc0 mc1 : Bool) (s : State) : Out :=
  onDev (fun d => if coresAlive d ∧ rd d OD.managementMode = 0 then disagree mc0 mc1 d else d) s

/-- The lone core stopped: its self test decides between a restart on that core and the end. -/
def loneCore (pass : Bool) (d : Dev) : Dev := if pass then beginHivanRestart d else stopCores d

/-- MANAGEMENT_WATCHDOG: a missed heartbeat, in LOCKSTEP a disagreement. -/
def execManagementWatchdog (mc0 mc1 : Bool) (s : State) : Out :=
  onDev (fun d => if !coresAlive d then d
    else match rd d OD.managementMode with
      | 0 => disagree mc0 mc1 d
      | 1 => loneCore mc0 d
      | _ => loneCore mc1 d) s

/-- MANAGEMENT_CORE_ERROR: an uncorrectable SRAM error or a trap. In LOCKSTEP both cores meet it, which is a disagreement. -/
def execManagementCoreError (pass : Bool) (s : State) : Out :=
  onDev (fun d => if !coresAlive d then d
    else if rd d OD.managementMode = 0 then disagree pass pass d else loneCore pass d) s

/-- SIMPLEX_SELF_TEST: every second; a failed one ends the management function. -/
def execSimplexSelfTest (pass : Bool) (s : State) : Out :=
  onDev (fun d => if coresAlive d && rd d OD.managementMode != 0 && !pass then stopCores d else d) s

/-! ## The update (R557) -/

/-- Word 0 of the update command, STATUS left to the device. -/
def updateWord (cmd : Nat) (now : Bool) (len : Nat) : Nat := cmd + (if now then 16 else 0) + len * 2 ^ 32

/-- An update command accepted in some states. -/
def updateOp (bad : Bool) (states : List Nat) (allowed : Dev → Bool) (act : Dev → Dev) : WriteOp := fun d =>
  if bad then (ST.invalid, d)
  else if !states.contains (updateSt d) || !allowed d then (ST.state, d)
  else (ST.ok, act d)

/-- A command that completes at once. -/
def doneOk (d : Dev) : Dev := setCommandStatus OD.updateCommand ST.ok d

/-- BEGIN: the session recorded, a staged image discarded, the inactive slot erased. -/
def updateBeginOp (p : Path) (len : Nat) : WriteOp :=
  updateOp (len == 0 || decide (16777216 < len)) [US.idle, US.staged] (fun _ => true) (fun d =>
    let u : UpdateRun := { session := p, length := len, bytes := [], marked := false, trialStarts := 0, trialSince := 0, due := false }
    wr OD.updateReceived 0 (setCommandStatus OD.updateCommand ST.pending
      (setUpdateSt US.erasing (spoilInactive (setUpdate u d)))))

/-- VERIFY: with LENGTH bytes received. -/
def verifyOp : WriteOp :=
  updateOp false [US.receiving] (fun d => rd d OD.updateReceived == d.hv.update.length)
    (fun d => setCommandStatus OD.updateCommand ST.pending (setUpdateSt US.verifying d))

/-- ACTIVATE: the slot marked for trial; with NOW a restart at once, where the image may run beside the sequencers'. -/
def activateOp (now : Bool) : WriteOp :=
  updateOp false [US.staged] (fun d => !now || trialFits d)
    (fun d => doneOk (setUpdate { d.hv.update with marked := true, due := now } d))

/-- CONFIRM: the trial slot becomes active. -/
def confirmOp : WriteOp :=
  updateOp false [US.trial] (fun _ => true) (fun d =>
    let i := (slotImage d (otherIx d)).image
    let d := wr OD.activeSlot (otherIx d) (wr OD.activeRelease i.release (wr OD.minSecurityVersion i.secVersion d))
    doneOk (raise hivanPort 0x7003 0 0 [] (setUpdateSt US.idle d)))

/-- ABORT: the inactive slot invalid; in TRIAL a restart from the former slot. -/
def abortOp : WriteOp :=
  updateOp false [US.receiving, US.staged, US.trial] (fun _ => true) (fun d =>
    let trial := updateSt d == US.trial
    let d := spoilInactive (setUpdate { d.hv.update with marked := false, due := trial } d)
    doneOk (setUpdateSt US.idle (if trial then raise hivanPort 0x7004 0 0 [] d else d)))

/-- HIVAN_RESTART: refused into a trial image that may not run beside the sequencers' firmware. -/
def hivanRestartOp : WriteOp :=
  updateOp false [US.idle, US.staged, US.trial]
    (fun d => !(updateSt d == US.staged && d.hv.update.marked) || trialFits d)
    (fun d => doneOk (setUpdate { d.hv.update with due := true } d))

def execUpdate (p : Path) (w : Nat) (reserved : Bool) (op : WriteOp) (s : State) : Out :=
  onDev (fun d => restartIfDue (runCommand OD.updateCommand 8 .rws p [w] reserved updateSt op d)) s

def execBegin (p : Path) (len : Nat) (reserved : Bool) (s : State) : Out :=
  execUpdate p (updateWord 1 false len) reserved (updateBeginOp p len) s

def execVerify (p : Path) (reserved : Bool) (s : State) : Out := execUpdate p 2 reserved verifyOp s

def execActivate (p : Path) (now reserved : Bool) (s : State) : Out :=
  execUpdate p (updateWord 3 now 0) reserved (activateOp now) s

def execConfirm (p : Path) (reserved : Bool) (s : State) : Out := execUpdate p 4 reserved confirmOp s

def execAbort (p : Path) (reserved : Bool) (s : State) : Out := execUpdate p 5 reserved abortOp s

def execHivanRestart (p : Path) (reserved : Bool) (s : State) : Out := execUpdate p 6 reserved hivanRestartOp s

/-- ERASE_DONE: the inactive slot is erased; RECEIVING. -/
def execEraseDone (s : State) : Out :=
  onDev (fun d => if coresRun d ∧ updateSt d = US.erasing then doneOk (setUpdateSt US.receiving d) else d) s

/-- A write of UpdateData: the offset it begins with is that of the next byte. -/
def updateDataOp (p : Path) (offset : Nat) (value : Bytes) : WriteOp := fun d =>
  let n := rd d OD.updateReceived
  if 1048576 < 8 + value.length then (ST.length, d)
  else if value = [] ∨ offset ≠ n then (ST.invalid, d)
  else if updateSt d ≠ US.receiving ∨ d.hv.update.session ≠ p then (ST.state, d)
  else if d.hv.update.length < n + value.length then (ST.length, d)
  else (ST.ok, wr OD.updateReceived (n + value.length) (setUpdate { d.hv.update with bytes := d.hv.update.bytes ++ value } d))

/-- UPDATE_DATA_WRITE. -/
def execUpdateDataWrite (p : Path) (offset : Nat) (value : Bytes) (s : State) : Out :=
  onDev (runWrite OD.updateData (8 + value.length) .wo false p ST.ok updateSt (updateDataOp p offset value)) s

/-- VERIFY_DONE: the image that the bytes received spell is checked; its slot holds it, STAGED, or is invalid. -/
def verifyDone (i : Image) (d : Dev) : Dev :=
  if !coresRun d ∨ updateSt d ≠ US.verifying then d
  else if imageGood i && decide (i.body.length ≤ d.hv.update.length) && decide (rd d OD.minSecurityVersion ≤ i.secVersion) then
    doneOk (raise hivanPort 0x7001 0 0 [] (setUpdateSt US.staged (setSlotImage (otherIx d) { valid := true, image := i } d)))
  else
    setCommandStatus OD.updateCommand ST.image (raise hivanPort 0x7002 0 0 [] (setUpdateSt US.idle (spoilInactive d)))

def execVerifyDone (image : Image) (s : State) : Out := onDev (verifyDone image) s

/-- TRIAL_ROLLBACK: the management function has not come up within 60 s of a start, or the trial window ends. -/
def execTrialRollback (s : State) : Out :=
  onDev (fun d =>
    let late := d.hv.restarting && decide (d.hv.startedAt + 60000000 ≤ d.tick)
    let over_ := decide (d.hv.update.trialSince + rd d OD.trialWindow * 1000000 ≤ d.tick)
    if coresAlive d && updateSt d == US.trial && (late || over_) then rollback d else d) s

end Sys2Proof.Machine
end

