-- ==== Sys2Proof/Machine/Security.lean ====
section
/-!
DEFINITION. Identity, attestation, the owner record, and the tamper state machine (R578-R593).
-/

namespace Sys2Proof.Machine

/-- Whether the security root runs: it needs Hivan's supply, not the management cores (R578). -/
def rootRuns (d : Dev) : Bool := d.hv.running || d.hv.stoppedFailed

/-- A run of bytes brought to a length with zeros. -/
def zeroPad (n : Nat) (b : Bytes) : Bytes := (b ++ List.replicate (n - b.length) 0).take n

/-! ## Identity (R579-R581) -/

/-- The secret s of a corrected response. -/
def secretOf (response : Bytes) : Bytes := Config.sha3_512 response
/-- The seed of the identity key pair. -/
def identityOf (response : Bytes) : Bytes := Config.kmac256 (secretOf response) [] 256 (ascii "P3 identity")
/-- The sealing key. -/
def sealKeyOf (response : Bytes) : Bytes := Config.kmac256 (secretOf response) [] 256 (ascii "P3 seal")

/-- OD 0x6010.01, empty while no key is loaded. -/
def publicKeyBytes (d : Dev) : Bytes := match d.sec.identity with | some s => Config.mldsaPublic s | none => []
/-- OD 0x6010.03. -/
def identityDigestBytes (d : Dev) : Bytes := match d.sec.identity with | some s => Config.sha3_512 (Config.mldsaPublic s) | none => []
/-- OD 0x6010.02: as set at manufacture until a re-provisioning replaces it. -/
def certificateBytes (d : Dev) : Bytes := (rdBytes d OD.deviceCertificate).getD Config.certificate

/-- The digest in a device certificate. -/
def certificateDigest (c : Bytes) : Bytes := (c.drop 24).take 64

/-! ## The tamper state machine (R589-R592) -/

abbrev TS.clear : Nat := 0
abbrev TS.logged : Nat := 1
abbrev TS.locked : Nat := 2
abbrev TS.erased : Nat := 3

def tamperSt (d : Dev) : Nat := rd d OD.tamperState

/-- Whether a sensor trips and raises alarms: enabled, working, and, for the rail-glitch detectors, armed. -/
def sensorActive (d : Dev) (k : Nat) : Bool :=
  decide (k < 4) && (rd d OD.tamperSensorEnable).testBit k && !(rd d OD.tamperSensorsFailed).testBit k &&
  (k != 2 || (decide (d.pow.down = .none) && d.pow.v48present))

/-- Whether every enabled working sensor is untripped. -/
def sensorsQuiet (d : Dev) : Bool :=
  d.sec.tripped.all (fun k => !((rd d OD.tamperSensorEnable).testBit k && !(rd d OD.tamperSensorsFailed).testBit k))

/-- What the security function reports while it works. -/
def securityReady (d : Dev) : Dev :=
  if tamperSt d = TS.locked then setReady OD.readySecurity RS.degraded 4 d
  else if rd d OD.tamperSensorsFailed ≠ 0 then setReady OD.readySecurity RS.degraded 2 d
  else setReady OD.readySecurity RS.ready 0 d

/-- Entering LOCKED (R591). -/
def enterLocked (d : Dev) : Dev :=
  let u := updateSt d
  let d := closeAll 5 (raise hivanPort 0x6002 0 0 [] (wr OD.tamperState TS.locked d))
  let d := { d with hv := { d.hv with handshakes := mfilter (fun _ h => slotAdmitted d h.keySlot) d.hv.handshakes } }
  let d := if u = US.trial then (if coresAlive d then rollback d else setUpdateSt US.idle (raise hivanPort 0x7004 0 0 [] d))
    else if u = US.idle then d
    else endUpdate (spoilInactive (setUpdate { d.hv.update with marked := false } d))
  if readyState d OD.readySecurity = RS.failed then d else securityReady d

/-- Entering ERASED (R592), apart from the flash erase: the marker, the key slots, the ports and the sessions. -/
def enterErased (d : Dev) : Dev :=
  let d := raise hivanPort 0x6003 0 0 [] (wr OD.tamperState TS.erased d)
  let sec : SecState := { d.sec with
    marker := .pending, identity := none, sealKey := none, installSealed := false, repairSealed := false }
  let d := closeAll 5 (allPortsDown { d with sec := sec, hv := { d.hv with handshakes := [] } })
  let ports := (List.range 32).map fabricPortFn
  let d := ports.foldl (fun d f => if readyState d f = RS.absent then d else setReady f RS.failed 4 d) d
  setReady OD.readySecurity RS.failed 4 d

/-- A trip of an active sensor. While an erase is under way it only adds to the count. -/
def alarm (k : Nat) (d : Dev) : Dev :=
  let d := wr OD.tamperTrips ((rd d OD.tamperTrips + 1) % 2 ^ 32) d
  let d := if d.sec.marker = .pending then d else wr OD.lastTripSensor k d
  let note := fun (again : Nat) => raise hivanPort 0x6001 again k []
  match tamperSt d with
  | 0 => (match rd d OD.tamperPolicy with
    | 0 => wr OD.tamperState TS.logged (note 0 d)
    | 1 => enterLocked (note 0 d)
    | _ => enterErased (note 0 d))
  | 3 => d
  | _ => note 1 d

/-- TAMPER_TRIP: a sensor meets its trip condition, or no longer does. -/
def tamperTrip (k : Nat) (tripped : Bool) (d : Dev) : Dev :=
  if !rootRuns d ∨ 4 ≤ k then d
  else
    let others := d.sec.tripped.filter (fun x => x != k)
    let d := { d with sec := { d.sec with tripped := if tripped then others ++ [k] else others } }
    if tripped && sensorActive d k then alarm k d else d

def execTamperTrip (sensor : Nat) (tripped : Bool) (s : State) : Out := onDev (tamperTrip sensor tripped) s

/-- TAMPER_SELF_TEST: a sensor that fails is marked, with EV_6005; it never trips from then on. -/
def tamperSelfTest (k : Nat) (pass : Bool) (d : Dev) : Dev :=
  let failed := rd d OD.tamperSensorsFailed
  if !rootRuns d ∨ 4 ≤ k ∨ pass ∨ failed.testBit k then d
  else
    let d := raise hivanPort 0x6005 0 k [] (wr OD.tamperSensorsFailed (Nat.lor failed (2 ^ k)) d)
    if works d OD.readySecurity then securityReady d else d

def execTamperSelfTest (sensor : Nat) (pass : Bool) (s : State) : Out := onDev (tamperSelfTest sensor pass) s

/-- HELPER_DATA_ERASED: the flash erase is complete and the marker is written as done. -/
def helperErased (d : Dev) : Dev :=
  if d.sec.marker = .pending then { d with sec := { d.sec with helper := false, marker := .done } } else d

def execHelperDataErased (s : State) : Out := onDev helperErased s

/-- The tamper state returns to CLEAR. -/
def returnToClear (d : Dev) : Dev := securityReady (raise hivanPort 0x6004 0 0 [] (wr OD.tamperState TS.clear d))

def tamperDone (d : Dev) : Dev := setCommandStatus OD.tamperCommand ST.ok d

/-- CLEAR: from ALARM_LOGGED. -/
def clearOp : WriteOp := fun d =>
  if tamperSt d = TS.logged ∧ sensorsQuiet d then (ST.ok, tamperDone (returnToClear d)) else (ST.state, d)

/-- A session of an operator slot that the recovery mask names. -/
def recoverySession (d : Dev) (p : Path) : Bool :=
  match mfind d.hv.sessions (pathSession p) with
  | some s => authed d p && pathSession p != 0 && (rd d OD.recoverySlots).testBit s.keySlot
  | none => false

/-- UNLOCK: from LOCKED, by a recovery session. -/
def unlockOp (p : Path) : WriteOp := fun d =>
  if tamperSt d = TS.locked ∧ recoverySession d p ∧ sensorsQuiet d then (ST.ok, tamperDone (returnToClear d)) else (ST.state, d)

def execClear (p : Path) (reserved : Bool) (s : State) : Out :=
  execCommand OD.tamperCommand 8 .rws p [1] reserved tamperSt clearOp s

def execUnlock (p : Path) (reserved : Bool) (s : State) : Out :=
  execCommand OD.tamperCommand 8 .rws p [2] reserved tamperSt (unlockOp p) s

/-- A reply of the service interface. -/
def serviceReply (st : Status) (payload : Bytes) (d : Dev) : Dev :=
  send (.frame (fragment none 0 0x11 0 1 0 payload)) { d with hv := { d.hv with reply := payload, replyStatus := st } }

/-- Whether the service interface runs (R617). -/
def serviceRuns (d : Dev) : Bool := rootRuns d && d.pow.svcEn

/-- REPROVISION: a ticket of the manufacturing key that names the serial number and the trip count. New helper data are
enrolled, a new identity derived, and a new certificate written in a new factory record, whose digest is a value of its own. -/
def reprovision (serial : Bytes) (trips : Nat) (signature response certificate : Bytes) (d : Dev) : Dev :=
  if !serviceRuns d then d
  else if tamperSt d ≠ TS.erased then serviceReply ST.state (replyBytes ST.state 0 0 []) d
  else if serial ≠ Config.serialNumber ∨ trips ≠ rd d OD.tamperTrips ∨
      !Config.mldsaVerify (Config.factoryKey 1) (ascii "P3 reprovision") (serial ++ leBytes 4 trips) signature then
    serviceReply ST.access (replyBytes ST.access 0 0 []) d
  else
    let sec : SecState := { d.sec with
      helper := true, enrolled := response, marker := .none, identity := some (identityOf response),
      sealKey := some (sealKeyOf response), factoryDigest := Config.random d.free 64 }
    let d := wrBytes OD.deviceCertificate certificate (drew { d with sec := sec })
    serviceReply ST.ok (replyBytes ST.ok 0 0 []) (returnToClear d)

def execReprovision (serial : Bytes) (trips : Nat) (signature newResponse certificate : Bytes) (s : State) : Out :=
  onDev (reprovision serial trips signature newResponse certificate) s

/-! ## The owner record (R583) -/

/-- The objects whose defaults an owner record sets. -/
def ownerScalars : List Nat := [OD.recoverySlots, OD.legacyPeerPolicy, OD.minCredentialEpoch]
def ownerDomains : List Nat := [OD.fabricAuthorityKey, OD.fabricCredential] ++ (List.range 16).map (fun n => OD.operatorKey + n)

/-- The default in force of such an object: the owner record's where one has passed its check, else the factory record's for operator slot 0, else the
dictionary's. -/
def ownerDefault (d : Dev) (key : Nat) : Nat := (mfind (if d.sec.ownerOk then d.sec.ownerValues else []) key).getD (objDefault key)
def ownerDefaultBytes (d : Dev) (key : Nat) : Bytes :=
  (mfind (if d.sec.ownerOk then d.sec.ownerBytes else []) key).getD (if key = OD.operatorKey ∧ d.sec.factoryOk then Config.operatorKey0 else [])

/-- Objects that still hold a former default take the present one. -/
def adoptDefaults (old d : Dev) : Dev :=
  let d := ownerScalars.foldl (fun d k => if rd old k = ownerDefault old k then wr k (ownerDefault d k) d else d) d
  ownerDomains.foldl (fun d k =>
    if (rdBytes old k).getD [] = ownerDefaultBytes old k then wrBytes k (ownerDefaultBytes d k) d else d) d

/-- An entry of an owner record: object and value. -/
structure OwnerEntry where
  key : Nat
  value : Bytes
  deriving DecidableEq, Repr

/-- The entries of an owner record: a word with INDEX in bits [15:0], SUB in [23:16] and the length in [63:32], then the value
(DESIGN CHOICE, log entry 30). -/
def ownerEntries : Nat → Bytes → Option (List OwnerEntry)
  | 0, _ => none
  | n + 1, b =>
    if b = [] then some []
    else
      let w := leNat (b.take 8)
      let len := nfld w 63 32
      let rest := b.drop 8
      if b.length < 8 ∨ rest.length < len then none
      else (ownerEntries n (rest.drop len)).map (fun es => ⟨nfld w 15 0 * 256 + nfld w 23 16, rest.take len⟩ :: es)

/-- Whether an entry names an object that an owner record may set, with a value that the object can hold. -/
def OwnerEntry.good (e : OwnerEntry) : Bool :=
  match objDef e.key with
  | none => false
  | some o =>
    if ownerScalars.contains e.key then
      e.value.length == o.type.bytes && decide (leNat e.value ≤ o.vmax)
    else ownerDomains.contains e.key && (e.value.length == 0 || e.value.length == o.size1)

/-- Installing the parts of a record: the new defaults, its number and digest, EV_6011. -/
def installOwner (record : Bytes) (number : Nat) (es : List OwnerEntry) (d : Dev) : Dev :=
  let values := (es.filter (fun e => ownerScalars.contains e.key)).foldl (fun m e => mset m e.key (leNat e.value)) []
  let bytes := (es.filter (fun e => ownerDomains.contains e.key)).foldl (fun m e => mset m e.key e.value) []
  let sec : SecState := { d.sec with ownerValues := values, ownerOk := true, ownerBytes := bytes, ownerDigest := Config.sha3_512 record }
  raise hivanPort 0x6011 0 0 [] (wr OD.ownerRecordNumber number (adoptDefaults d { d with sec := sec }))

/-- A record written whole: its signature, 4,627 bytes, stands last. -/
def ownerRecordOp (record : Bytes) : WriteOp := fun d =>
  let signed := record.take (record.length - 4627)
  let h := leNat (record.take 8)
  if 65536 < record.length then (ST.length, d)
  else if record.length < 8 + 4627 ∨ nfld h 31 0 ≠ 0x4F574E52 then (ST.invalid, d)
  else if !Config.mldsaVerify (operatorKeyOf d 0) (ascii "P3 owner") signed (record.drop (record.length - 4627)) then (ST.access, d)
  else match ownerEntries (record.length + 1) (signed.drop 8) with
    | none => (ST.invalid, d)
    | some es =>
      if !es.all OwnerEntry.good then (ST.invalid, d)
      else if nfld h 63 32 ≤ rd d OD.ownerRecordNumber then (ST.state, d)
      else (ST.ok, wrBytes OD.ownerRecordInstall record (installOwner record (nfld h 63 32) es d))

/-- OWNER_RECORD_INSTALL. -/
def execOwnerRecordInstall (p : Path) (record : Bytes) (s : State) : Out :=
  onDev (runWrite OD.ownerRecordInstall record.length .rws false p ST.ok noUnit (ownerRecordOp record)) s

/-! ## Attestation (R585, R586) -/

/-- The nonce that a session or slot has written. -/
def nonceOf (d : Dev) (who : Client) : Option Bytes := (d.sec.nonces.find? (fun x => decide (x.1 = who))).map (fun x => x.2)

/-- A write of AttestNonce; bytes outside the range written keep what the client wrote before. -/
def nonceOp (who : Client) (offset : Nat) (value : Bytes) : WriteOp := fun d =>
  if 32 < offset + value.length then (ST.length, d)
  else
    let b := zeroPad 32 (bufWrite ((nonceOf d who).getD (List.replicate 32 0)) offset value)
    let kept := d.sec.nonces.filter (fun x => decide (x.1 ≠ who))
    (ST.ok, { d with sec := { d.sec with nonces := kept ++ [(who, b)] } })

/-- ATTEST_NONCE_WRITE. -/
def execAttestNonceWrite (p : Path) (nonce : Bytes) (s : State) : Out :=
  onDev (runWrite OD.attestNonce 32 .rw false p ST.ok noUnit (nonceOp (clientOf p) 0 nonce)) s

/-- Digest of the installation record in force, none where it is empty or its seal is lost. Its layout in FL is the model's. -/
def installDigest (d : Dev) : Bytes :=
  if !d.sec.installSealed ∨ (d.installed = [] ∧ d.installedBytes = []) then []
  else Config.sha3_512 (d.installed.flatMap (fun x => leBytes 4 x.1 ++ leBytes 8 x.2) ++
    d.installedBytes.flatMap (fun x => leBytes 4 x.1 ++ leBytes 4 x.2.length ++ x.2))

/-- Bytes 0 to 511 of a report. -/
def reportBody (nonce : Bytes) (l : LogStore) (d : Dev) : Bytes :=
  leBytes 8 (0x41545354 + 2 ^ 32 + tamperSt d * 2 ^ 40 + l.boot % 2 ^ 16 * 2 ^ 48) ++ zeroPad 16 Config.serialNumber ++
  leBytes 8 l.nextSeq ++ zeroPad 32 nonce ++ zeroPad 64 (identityDigestBytes d) ++ zeroPad 64 (runningImage d).bodyDigest ++
  zeroPad 64 d.sec.seqDigest ++ zeroPad 64 d.sec.factoryDigest ++ zeroPad 64 (if d.sec.ownerOk then d.sec.ownerDigest else []) ++ zeroPad 64 (installDigest d) ++
  leBytes 8 (rd d OD.activeRelease + rd d OD.minSecurityVersion * 2 ^ 32) ++ List.replicate 56 0

/-- A report built and signed over a client's nonce; none before a nonce is written or without an identity key. -/
def attestReport (who : Client) (l : LogStore) (d : Dev) : Option Bytes :=
  match nonceOf d who, d.sec.identity with
  | some n, some key =>
    let b := reportBody n l d
    some (b ++ zeroPad 4627 (Config.mldsaSign key (ascii "P3 attest") b))
  | _, _ => none

end Sys2Proof.Machine
end

