-- ==== Sys2Proof/Machine/Dict.lean ====
section
/-!
DEFINITION. The object dictionary as requests see it: what a read returns, what a write of an object does, and the requests
READ, WRITE, DESCRIBE and SUBSCRIBE (R545-R548, R563-R569).
-/

namespace Sys2Proof.Machine

/-! ## What objects read -/

/-- The row of an object; sub-index 0 holds the highest sub-index of its index (R563). -/
def lookupObj (index sub : Nat) : Option ObjDef :=
  if sub = 0 then (highestSub index).map (fun h => ⟨index, 0, 0, .u8, .const, h, 0, 255, 0, 0, 0, false⟩)
  else objDef (256 * index + sub)

/-- Bits [2s + 1:2s] name the sequencer processor of service s of R429, stream and data position being one. -/
def placementByte (d : Dev) : Nat :=
  let q := fun (s : Nat) => d.seq.services.getD s 0
  q 0 + q 1 * 4 + q 2 * 16 + q 4 * 64

/-- ContextState: state and epoch (R290). -/
def contextWord (d : Dev) (c : Nat) : Nat := ctxCode (ctxOf d c).st + (ctxOf d c).epoch % 2 ^ 16 * 2 ^ 16

/-- Scalar objects that are read from the state they report rather than held. -/
def reported (p : Path) (l : LogStore) (d : Dev) : List (Nat × Nat) :=
  (List.range 4).map (fun i => (OD.computeDieId + i, Config.computeDieId i)) ++
  (List.range 2).map (fun i => (OD.linkDieId + i, Config.linkDieId i)) ++
  [(OD.macAddress, Config.macAddress % 2 ^ 48), (OD.sessionsOpen, d.hv.sessions.length),
   (OD.contextsLive, (d.tw.ctxs.filter (fun c => decide (c.2.st = .live))).length)] ++
  (List.range 64).map (fun c => (OD.contextState + c, contextWord d c)) ++
  [(OD.fttEntriesUsed, d.tw.ftt0.length), (OD.creditWindow, wDst d), (OD.pathOneWayMax, (f32OfRat (wMax d)).toNat),
   (OD.roundTripMax, match tRoundTrip d with | some t => (f32OfRat t).toNat | none => 0x7FC00000),
   (OD.packetLifetime, tLifeUs d), (OD.retryBudget, tRetry d), (OD.drainTime, drainReads d),
   (OD.sequencerState, seqUnit d), (OD.servicePlacement, placementByte d),
   (OD.groupsAdmitted, (d.seq.groups.filter (fun g => decide (g.2.st = .admitted))).length),
   (OD.durabilityClass, if rd d OD.tandemMode = 2 then 0 else rd d OD.durabilityClass),
   (OD.imageBytes, imageBytes d), (OD.logNextSeq, l.nextSeq), (OD.logOldestSeq, oldestSeq l),
   (OD.logReadCursor, cursorOf d (clientOf p))]

/-- The value of a scalar object on a path. -/
def scalarNow (p : Path) (l : LogStore) (d : Dev) (key : Nat) : Nat :=
  match (reported p l d).find? (fun x => x.1 == key) with
  | some x => x.2
  | none => rd d key

/-- An entry of the group table (R463). -/
def groupEntry (d : Dev) (g : Nat) : Bytes :=
  match mfind d.seq.groups g with
  | none => List.replicate 16 0
  | some r =>
    let p3 := (r.members.filter (fun m => m.gen == 3)).length
    leBytes 8 (groupCode d g + r.wire * 4 + r.members.length * 2 ^ 4 + r.rank * 2 ^ 20 + p3 * 2 ^ 35) ++ List.replicate 8 0

/-- The command objects held as records. -/
def recordCommands : List Nat :=
  [OD.fttCommand, OD.localRegionCommand, OD.stepCommand, OD.groupCommand, OD.checkpointCommand]

/-- The bytes of a STRING, DOMAIN or RECORD object on a path. -/
def bytesNow (p : Path) (d : Dev) (o : ObjDef) (key : Nat) : Bytes :=
  if key = OD.partNumber then ascii "GM-P3X-1536"
  else if key = OD.serialNumber then zeroPad 16 Config.serialNumber
  else if OD.clusterMap ≤ key ∧ key < OD.clusterMap + 4 then clusterMapOf d (key - OD.clusterMap)
  else if key = OD.groupTable then (List.range 4096).flatMap (groupEntry d)
  else if key = OD.eventSeverity then severityBytes
  else if key = OD.identityPublicKey then publicKeyBytes d
  else if key = OD.deviceCertificate then certificateBytes d
  else if key = OD.identityDigest then identityDigestBytes d
  else if key = OD.attestNonce then (nonceOf d (clientOf p)).getD (List.replicate 32 0)
  else if recordCommands.contains key then zeroPad o.size0 (leBytes 8 (rd d key) ++ (rdBytes d key).getD [])
  else rdFull d key

/-- The whole of an object on a path. -/
def objNow (p : Path) (l : LogStore) (d : Dev) (o : ObjDef) (key : Nat) : Bytes :=
  if o.lo = 0 then leBytes 1 o.dflt
  else if o.type.scalar then leBytes o.type.bytes (scalarNow p l d key)
  else bytesNow p d o key

/-! ## Objects that a read changes -/

/-- Whole captured packets of one port, oldest first, up to a size. Gap markers are counted and logged as EV_5001. -/
def takeTrace : Nat → List (List W64) → Dev → Bytes × List (List W64) × Dev
  | _, [], d => ([], [], d)
  | room, p :: ps, d =>
    let w := p.headD 0
    if fld w 63 60 = 0xF then
      takeTrace room ps (raise hivanPort 0x5001 0 (fld w 55 48) (gapDetails w) (countGap w d))
    else if 8 * p.length ≤ room then
      let r := takeTrace (room - 8 * p.length) ps d
      (bytesOf p ++ r.1, r.2)
    else ([], p :: ps, d)

/-- OD 0x5011.02: the trace FIFOs drained by ascending port, up to 16,384 bytes. -/
def drainTraces (d : Dev) : Bytes × Dev :=
  (List.range 10).foldl (fun (x : Bytes × Dev) p =>
    let f := mget Fifo.empty x.2.ev.traces p
    let r := takeTrace (16384 - x.1.length) f.packets x.2
    let d := r.2.2
    (x.1 ++ r.1, { d with ev := { d.ev with traces := mput Fifo.empty d.ev.traces p { f with packets := r.2.1 } } })) ([], d)

/-- Objects built when they are read: bytes past a snapshot do not exist (R541, R586). -/
def builtOnRead : List Nat := [OD.logReadData, OD.traceData, OD.attestReport]

/-- The whole of an object as a read with OFFSET 0 finds it; none where the state permits no read. -/
def takeWhole (p : Path) (l : LogStore) (d : Dev) (o : ObjDef) (key : Nat) : Option (Bytes × Dev) :=
  if key = OD.logReadData then some (readEntries (clientOf p) l d)
  else if key = OD.traceData then some (drainTraces d)
  else if key = OD.attestReport then (attestReport (clientOf p) l d).map (fun b => (b, d))
  else some (objNow p l d o key, d)

/-! ## READ (R545, R546, R548) -/

/-- The snapshot that a client holds of an object. -/
def snapOf (d : Dev) (who : Client) (key : Nat) : Option Bytes :=
  (d.hv.snaps.find? (fun s => decide (s.client = who) && s.key == key)).map (fun s => s.bytes)

/-- Whether a path has snapshots and stages: a session or a slot. -/
def keepsState (p : Path) : Bool := match p with | .slot _ => true | _ => pathSession p != 0

def putSnap (p : Path) (key : Nat) (b : Bytes) (d : Dev) : Dev :=
  if keepsState p then { d with hv := { d.hv with snaps := d.hv.snaps ++ [{ client := clientOf p, key, bytes := b }] } } else d

/-- Stages end with any other request of the client. -/
def dropStage (p : Path) (d : Dev) : Dev :=
  { d with hv := { d.hv with stages := d.hv.stages.filter (fun s => decide (s.client ≠ clientOf p)) } }

/-- Whether a range lies in an object. -/
def fits (b : Bytes) (offset count : Nat) : Bool := decide (offset + count ≤ b.length)

/-- The reply with the bytes asked for; COUNT 0 reads to the end, up to 16,384. -/
def deliver (p : Path) (b : Bytes) (offset count : Nat) (d : Dev) : Dev :=
  let n := if count = 0 then Nat.min 16384 (b.length - offset) else count
  reply p ST.ok (replyBytes ST.ok b.length offset ((b.drop offset).take n)) d

/-- A READ or a staged piece that the present state does not permit: counted and logged (R12, R555). -/
def refuseState (p : Path) (key size : Nat) (d : Dev) : Dev := answer p ST.state size (noteRefusal p key 0xFF d)

/-- A read that starts from the object itself. -/
def readFresh (p : Path) (o : ObjDef) (key offset count : Nat) (l : LogStore) (d : Dev) : Dev :=
  if offset ≠ 0 ∧ builtOnRead.contains key then refuseState p key 0 d
  else match takeWhole p l d o key with
    | none => refuseState p key 0 d
    | some (b, d') =>
      if !fits b offset count then answer p ST.length b.length d
      else deliver p b offset count (if o.type.scalar ∨ offset ≠ 0 then d' else putSnap p key b d')

/-- READ. -/
def readReq (p : Path) (index sub offset count : Nat) (reserved : Bool) (l : LogStore) (d : Dev) : Dev :=
  let key := 256 * index + sub
  if !answers d p then d
  else if unknownSession d p then refuseSession p d
  else if reserved ∨ 16384 < count then answer p ST.invalid 0 (dropHeld p d)
  else match lookupObj index sub with
    | none => answer p ST.noObject 0 (dropHeld p d)
    | some o =>
      if !mayRead d p index o.access then answer p ST.access 0 (dropHeld p d)
      else match (if o.type.scalar ∨ offset = 0 then none else snapOf d (clientOf p) key) with
        | some b =>
          let d := dropStage p d
          if !fits b offset count then answer p ST.length b.length d else deliver p b offset count d
        | none => readFresh p o key offset count l (dropHeld p d)

/-! ## Writes of objects (R566) -/

/-- A write whose value has been read: what its encoding is refused with, the state code of the unit it asks, its effect. -/
structure ObjWrite where
  bad : Status
  unit : Dev → Nat
  op : WriteOp

/-- A command object's words, decoded. -/
def commandWrite (key : Nat) (ws : List Nat) (bad : Bool) (unit : Dev → Nat) (op : WriteOp) : ObjWrite :=
  { bad := if bad then ST.invalid else ST.ok, unit, op := commandOp key ws op }

/-- An undefined command. -/
def undefinedWrite : ObjWrite := { bad := ST.invalid, unit := noUnit, op := fun d => (ST.invalid, d) }

/-- Word i of a command. -/
def cw (ws : List Nat) (i : Nat) : Nat := ws.getD i 0

/-- ContextCommand (R292). -/
def contextWrite (ws : List Nat) : ObjWrite :=
  let w := cw ws 0
  let c := nfld w 9 4
  let bad := nfld w 15 10 != 0 || nfld w 63 32 != 0
  match nfld w 3 0 with
  | 1 => commandWrite OD.contextCommand ws bad (ctxUnit c) (createCtx c)
  | 2 => commandWrite OD.contextCommand ws bad (ctxUnit c) (teardownCtx c)
  | _ => undefinedWrite

/-- FttCommand (R301). -/
def fttWrite (ws : List Nat) : ObjWrite :=
  let w := cw ws 0
  let e0 : W64 := BitVec.ofNat 64 (cw ws 1)
  let e1 : W64 := BitVec.ofNat 64 (cw ws 2)
  let e := entryOf e0 e1
  let rest := nfld w 15 10 != 0 || nfld w 63 32 != 0 || cw ws 3 != 0
  let bad := rest || nfld w 9 4 != 0
  match nfld w 3 0 with
  | 1 => commandWrite OD.fttCommand ws (bad || entryBad e0 e1 true || !bit e0 0) (ctxUnit e.ctx) (insertOp e)
  | 2 => commandWrite OD.fttCommand ws (bad || entryBad e0 e1 false) (ctxUnit e.ctx) (removeOpFtt e)
  | 3 => commandWrite OD.fttCommand ws (bad || entryBad e0 e1 true || !bit e0 0) (ctxUnit e.ctx) (setRightsOp e)
  | 4 => commandWrite OD.fttCommand ws rest (ctxUnit (nfld w 9 4)) (removeContextOp (nfld w 9 4))
  | _ => undefinedWrite

/-- LocalRegionCommand (R295). -/
def regionWrite (ws : List Nat) : ObjWrite :=
  let w := cw ws 0
  let w1 : W64 := BitVec.ofNat 64 (cw ws 1)
  let w2 : W64 := BitVec.ofNat 64 (cw ws 2)
  commandWrite OD.localRegionCommand ws (nfld w 63 12 != 0 || regionBad w1 w2) (ctxUnit (nfld w 5 0))
    (setRegion (nfld w 5 0) (nfld w 11 6) w1 w2)

/-- StepCommand (R431). -/
def stepWrite (ws : List Nat) : ObjWrite :=
  let w := cw ws 0
  let a := cw ws 1
  let bad := nfld w 15 4 != 0 || nfld w 63 32 != 0
  match nfld w 3 0 with
  | 1 => commandWrite OD.stepCommand ws (bad || decide (2 ^ 49 ≤ a)) seqUnit (loadOp a)
  | 2 => commandWrite OD.stepCommand ws bad seqUnit (startOp a)
  | 3 => commandWrite OD.stepCommand ws (bad || a != 0) seqUnit stopOp
  | 4 => commandWrite OD.stepCommand ws (bad || a != 0) seqUnit unloadOp
  | _ => undefinedWrite

/-- GroupCommand (R464). -/
def groupWrite (ws : List Nat) : ObjWrite :=
  let w := cw ws 0
  let g := nfld w 15 4
  let bad := nfld w 63 32 != 0 || nfld (cw ws 1) 63 31 != 0 || nfld (cw ws 2) 63 49 != 0
  let unit := fun d => groupCode d g
  match nfld w 3 0 with
  | 1 => commandWrite OD.groupCommand ws bad unit (admitOp g (nfld (cw ws 1) 15 0) (nfld (cw ws 1) 30 16) (cw ws 2))
  | 2 => commandWrite OD.groupCommand ws bad unit (releaseOp g)
  | _ => undefinedWrite

/-- REFRESH (R470). -/
def refreshOp : WriteOp := fun d =>
  (ST.ok, setCommandStatus OD.checkpointCommand ST.ok { d with ckpt := { d.ckpt with constDue := true } })

/-- CheckpointCommand (R471). The copy that a RESTORE from another device asks for is an operand of that command's own row; a
write by another row finds none (log entry 31). -/
def checkpointWrite (ws : List Nat) : ObjWrite :=
  let w := cw ws 0
  let a := cw ws 1
  let b := cw ws 2
  let bad := nfld w 15 6 != 0 || nfld w 63 32 != 0 || decide (2 ^ 49 ≤ a) || decide (2 ^ 49 ≤ b) || cw ws 3 != 0
  let far := bad || decide (2 ^ 15 ≤ a)
  let memory := w.testBit 5
  match nfld w 3 0 with
  | 1 => commandWrite OD.checkpointCommand ws bad ckptUnit (configureOp a b)
  | 2 => commandWrite OD.checkpointCommand ws far ckptUnit (partnerOp a (w.testBit 4))
  | 3 => commandWrite OD.checkpointCommand ws bad ckptUnit unpairOp
  | 4 => commandWrite OD.checkpointCommand ws bad ckptUnit refreshOp
  | 5 => commandWrite OD.checkpointCommand ws (if memory then bad else far || decide (2 ^ 15 ≤ b)) ckptUnit
      (restoreOp memory a b none)
  | 6 => commandWrite OD.checkpointCommand ws far ckptUnit (takeoverOp a)
  | _ => undefinedWrite

/-- FaultCommand (R516). -/
def faultWrite (ws : List Nat) : ObjWrite :=
  let w := cw ws 0
  let t := nfld w 47 32
  let bad := nfld w 15 4 != 0 || nfld w 63 48 != 0
  match nfld w 3 0 with
  | 1 => commandWrite OD.faultCommand ws bad noUnit (engineResetOp t)
  | 2 => commandWrite OD.faultCommand ws bad noUnit (clusterMoveOp t)
  | 3 => commandWrite OD.faultCommand ws (bad || t != 0) noUnit kickTurnOp
  | 4 => commandWrite OD.faultCommand ws (bad || t != 0) noUnit fullRestartOp
  | _ => undefinedWrite

/-- UpdateCommand (R557). -/
def updateWrite (p : Path) (ws : List Nat) : ObjWrite :=
  let w := cw ws 0
  let bad := nfld w 15 5 != 0 || nfld w 63 57 != 0
  let go := commandWrite OD.updateCommand ws bad updateSt
  match nfld w 3 0 with
  | 1 => go (updateBeginOp p (nfld w 56 32))
  | 2 => go verifyOp
  | 3 => go (activateOp (w.testBit 4))
  | 4 => go confirmOp
  | 5 => go abortOp
  | 6 => go hivanRestartOp
  | _ => undefinedWrite

/-- TamperCommand (R590). -/
def tamperWrite (p : Path) (ws : List Nat) : ObjWrite :=
  let w := cw ws 0
  let bad := nfld w 15 4 != 0 || nfld w 63 32 != 0
  match nfld w 3 0 with
  | 1 => commandWrite OD.tamperCommand ws bad tamperSt clearOp
  | 2 => commandWrite OD.tamperCommand ws bad tamperSt (unlockOp p)
  | _ => undefinedWrite

/-- The command objects (R292, R295, R301, R431, R464, R471, R516, R557, R590). -/
def commandOf (p : Path) (key : Nat) (ws : List Nat) : Option ObjWrite :=
  if key = OD.contextCommand then some (contextWrite ws)
  else if key = OD.fttCommand then some (fttWrite ws)
  else if key = OD.localRegionCommand then some (regionWrite ws)
  else if key = OD.stepCommand then some (stepWrite ws)
  else if key = OD.groupCommand then some (groupWrite ws)
  else if key = OD.checkpointCommand then some (checkpointWrite ws)
  else if key = OD.faultCommand then some (faultWrite ws)
  else if key = OD.updateCommand then some (updateWrite p ws)
  else if key = OD.tamperCommand then some (tamperWrite p ws)
  else none

/-! ### Scalars -/

/-- Whether the sequencer runs no step (R460, R462, R478). -/
def seqStill (d : Dev) : Bool := d.seq.st == .idle || d.seq.st == .loaded || d.seq.st == .halted

/-- T_tx holds four link replay budgets and two round trips (R353). -/
def txOk (d : Dev) : Bool :=
  decide (4 * rd d OD.replayBudget ≤ rd d OD.txTimeout) &&
  (match tRoundTrip d with | some t => decide (2 * t ≤ (rd d OD.txTimeout : ℚ) * 1000) | none => true)

/-- The Antler wait limit holds the retry budget and two round trips (R424). -/
def antlerOk (d : Dev) : Bool :=
  match tRoundTrip d with
  | some t => decide ((tRetry d : ℚ) * 1000 + 2 * t ≤ (rd d OD.antlerWaitLimit : ℚ) * 1000)
  | none => decide (tRetry d ≤ rd d OD.antlerWaitLimit)

/-- T_hang lies below the gate wait limit (R508). -/
def hangOk (d : Dev) : Bool :=
  decide (rd d OD.engineWatchdog + rd d OD.engineResetEscalation + rd d OD.clusterMoveEscalation +
    rd d OD.kickTurnEscalation < rd d OD.gateWaitLimit)

/-- The limits that are checked against one another when one of them is written (R576): by object, the checks it enters. -/
def limitOk (key : Nat) (d : Dev) : Bool :=
  if key = OD.replayRetention then keepOk d
  else if key = OD.txTimeout then keepOk d && txOk d && antlerOk d
  else if key = OD.replayBudget then txOk d
  else if key = OD.retryLimit ∨ key = OD.antlerWaitLimit then antlerOk d
  else if [OD.engineWatchdog, OD.engineResetEscalation, OD.clusterMoveEscalation, OD.kickTurnEscalation,
           OD.gateWaitLimit].contains key then hangOk d
  else true

/-- Objects written only while no step runs. -/
def jobKeys : List Nat :=
  [OD.stepNumber, OD.jobSeed, OD.jobDataPosition, OD.globalBatch, OD.shardCursors, OD.tandemMode]

/-- Values that a range does not describe: multiples, and the checker's range with 255 for off. -/
def valueOk (key v : Nat) : Bool :=
  if key = OD.supplySetpoint then v % 5 == 0
  else if key = OD.tandemStoreBase then v % 4096 == 0
  else if key = OD.checkShift then decide (v ≤ 30) || v == 255
  else true

/-- The state code of the unit that an object asks. -/
def unitOfKey (key : Nat) : Dev → Nat :=
  if key = OD.deviceNumber ∨ topologyKeys.contains key then busyCtx
  else if jobKeys.contains key then seqUnit
  else if key = OD.tamperPolicy ∨ key = OD.tamperSensorEnable then tamperSt
  else noUnit

/-- The effect of a scalar's write. -/
def scalarOp (p : Path) (key v : Nat) : WriteOp := fun d =>
  if key = OD.supplySetpoint then (ST.ok, applyCaps (wr key v d))
  else if key = OD.logReadCursor then (ST.ok, setCursor (clientOf p) v d)
  else if key = OD.deviceNumber then (if allFree d then (ST.ok, wr key v d) else (ST.state, d))
  else if topologyKeys.contains key then topologyOp key v d
  else if jobKeys.contains key ∧ !seqStill d then (ST.state, d)
  else if (key = OD.tamperPolicy ∨ key = OD.tamperSensorEnable) ∧ tamperSt d ≠ TS.clear then (ST.state, d)
  else if !limitOk key (wr key v d) then (ST.invalid, d)
  else (ST.ok, wr key v d)

def scalarWrite (p : Path) (o : ObjDef) (key offset : Nat) (value : Bytes) : ObjWrite :=
  let v := leNat value
  let bad := if o.type.bytes < offset + value.length then ST.length
    else if offset ≠ 0 ∨ value.length ≠ o.type.bytes ∨ !inRange o v ∨ !valueOk key v then ST.invalid else ST.ok
  { bad, unit := unitOfKey key, op := scalarOp p key v }

/-! ### Records and domains -/

/-- A record is written whole. -/
def recordWrite (p : Path) (o : ObjDef) (key offset : Nat) (value : Bytes) : ObjWrite :=
  let ws := (wordsOf (o.size0 / 8) value).map BitVec.toNat
  if o.size0 < offset + value.length then { undefinedWrite with bad := ST.length }
  else if offset ≠ 0 ∨ value.length ≠ o.size0 then undefinedWrite
  else (commandOf p key ws).getD undefinedWrite

/-- Entries of a bulk write. -/
def bulkEntries (value : Bytes) : List (W64 × W64) :=
  (List.range (value.length / 16)).map (fun i =>
    let e := (value.drop (16 * i)).take 16
    (BitVec.ofNat 64 (leNat (e.take 8)), BitVec.ofNat 64 (leNat (e.drop 8))))

/-- DOMAINs whose chapter gives the write its own meaning: they take one value at OFFSET 0. -/
def wholeWrite (offset : Nat) (bad : Bool) (unit : Dev → Nat) (op : WriteOp) : ObjWrite :=
  { bad := if offset ≠ 0 ∨ bad then ST.invalid else ST.ok, unit, op }

/-- A DOMAIN of 0 or N bytes: empty, or whole (log entry 32). -/
def emptyOrWhole (o : ObjDef) (key offset : Nat) (value : Bytes) : WriteOp := fun d =>
  let old := (rdBytes d key).getD []
  let new := if offset = 0 ∧ (value = [] ∨ value.length = o.size1) then value else bufWrite old offset value
  if new.length = 0 ∨ new.length = o.size1 then (ST.ok, wrBytes key new d) else (ST.invalid, d)

/-- Bytes replaced, the others left. -/
def patchOp (key offset : Nat) (value : Bytes) : WriteOp := fun d =>
  if jobKeys.contains key ∧ !seqStill d then (ST.state, d) else (ST.ok, wrBytes key (bufWrite (rdFull d key) offset value) d)

def domainWrite (p : Path) (o : ObjDef) (key offset : Nat) (value : Bytes) : ObjWrite :=
  if o.size1 < offset + value.length then { undefinedWrite with bad := ST.length }
  else if key = OD.fttBulkInsert then
    wholeWrite offset (value.length % 16 != 0 || value == []) busyCtx (bulkOp (bulkEntries value))
  else if key = OD.updateData then
    wholeWrite offset (decide (value.length < 9)) updateSt (updateDataOp p (leNat (value.take 8)) (value.drop 8))
  else if key = OD.ownerRecordInstall then wholeWrite offset false noUnit (ownerRecordOp value)
  else if key = OD.attestNonce then { bad := ST.ok, unit := noUnit, op := nonceOp (clientOf p) offset value }
  else if o.size0 = 0 then { bad := ST.ok, unit := noUnit, op := emptyOrWhole o key offset value }
  else { bad := ST.ok, unit := unitOfKey key, op := patchOp key offset value }

/-- A write of an object's bytes from an offset. -/
def decodeWrite (p : Path) (o : ObjDef) (key offset : Nat) (value : Bytes) : ObjWrite :=
  match o.type with
  | .record => recordWrite p o key offset value
  | .dom => domainWrite p o key offset value
  | .str => undefinedWrite
  | _ =>
    match commandOf p key [leNat value] with
    | some c => if offset ≠ 0 ∨ value.length ≠ 8 then { undefinedWrite with bad := if 8 < offset + value.length then ST.length else ST.invalid } else c
    | none => scalarWrite p o key offset value

/-- Size of an object, as a reply to a write reports it. -/
def writtenSize (o : ObjDef) : Nat := if o.type.scalar then o.type.bytes else o.size1

/-- A write of an object on a path; Hivan restarts after the reply where the command asks for it. -/
def writeObject (p : Path) (index sub offset : Nat) (value : Bytes) (d : Dev) : Dev :=
  let key := 256 * index + sub
  match lookupObj index sub with
  | none => if !answers d p then d else if unknownSession d p then refuseSession p d else answer p ST.noObject 0 (dropHeld p d)
  | some o =>
    let w := decodeWrite p o key offset value
    restartIfDue (runWrite key (writtenSize o) o.access o.counter p w.bad w.unit w.op d)

/-! ## WRITE (R545, R546, R548) -/

/-- The bytes that a client has staged for an object. -/
def stageOf (d : Dev) (who : Client) (key : Nat) : Option Bytes :=
  (d.hv.stages.find? (fun s => decide (s.client = who) && s.key == key)).map (fun s => s.bytes)

/-- A piece with MORE set: its OFFSET continues the stage, which holds up to 1 MiB. -/
def stagePiece (p : Path) (o : ObjDef) (key offset : Nat) (value : Bytes) (d : Dev) : Dev :=
  let old := (stageOf d (clientOf p) key).getD []
  let d := dropHeld p d
  if !mayWrite d p o.access then answer p ST.access (writtenSize o) d
  else if 1048576 < old.length + value.length then answer p ST.length (writtenSize o) d
  else if offset ≠ old.length ∨ !keepsState p then refuseState p key (writtenSize o) d
  else
    let s : Stage := { client := clientOf p, key, bytes := old ++ value }
    answer p ST.ok (writtenSize o) { d with hv := { d.hv with stages := d.hv.stages ++ [s] } }

/-- The last piece of a staged value applies it whole; a write without a stage applies its own bytes. -/
def lastPiece (p : Path) (index sub offset : Nat) (value : Bytes) (d : Dev) : Dev :=
  match stageOf d (clientOf p) (256 * index + sub) with
  | none => writeObject p index sub offset value d
  | some old =>
    if offset ≠ old.length then refuseState p (256 * index + sub) 0 (dropHeld p d)
    else if 1048576 < old.length + value.length then answer p ST.length 0 (dropHeld p d)
    else writeObject p index sub 0 (old ++ value) d

/-- WRITE. -/
def writeReq (p : Path) (index sub offset : Nat) (more reserved : Bool) (value : Bytes) (d : Dev) : Dev :=
  if !answers d p then d
  else if unknownSession d p then refuseSession p d
  else if reserved ∨ 16384 < value.length then answer p ST.invalid 0 (dropHeld p d)
  else match lookupObj index sub with
    | none => answer p ST.noObject 0 (dropHeld p d)
    | some o => if more then stagePiece p o (256 * index + sub) offset value d else lastPiece p index sub offset value d

/-! ## DESCRIBE and SUBSCRIBE (R542, R545) -/

def ObjType.code : ObjType → Nat
  | .u8 => 0 | .u16 => 1 | .u32 => 2 | .u64 => 3 | .f32 => 6 | .str => 7 | .dom => 8 | .record => 9

def Access.code : Access → Nat
  | .ro => 0 | .rw => 1 | .wo => 2 | .rws => 4 | .const => 5

/-- Word 1, word 2 and the text of a DESCRIBE reply. -/
def describeBytes (o : ObjDef) (key : Nat) : Bytes :=
  leBytes 8 (o.type.code + o.access.code * 2 ^ 8) ++ leBytes 8 (if o.type.scalar then o.dflt else 0) ++
  (Config.unitText key).take 256

/-- DESCRIBE. -/
def describeReq (p : Path) (index sub : Nat) (reserved : Bool) (d : Dev) : Dev :=
  if !answers d p then d
  else if unknownSession d p then refuseSession p d
  else
    let d := dropHeld p d
    if reserved then answer p ST.invalid 0 d
    else match lookupObj index sub with
      | none => answer p ST.noObject 0 d
      | some o =>
        if !mayRead d p index .ro ∨ p = .service then answer p ST.access 0 d
        else reply p ST.ok (leBytes 8 (ST.ok.toNat + writtenSize o * 2 ^ 32) ++ describeBytes o (256 * index + sub)) d

/-- SUBSCRIBE: a session's lowest severity notified; 0xF ends the subscription. -/
def subscribeReq (p : Path) (severity : Nat) (reserved : Bool) (d : Dev) : Dev :=
  if !answers d p then d
  else if unknownSession d p then refuseSession p d
  else
    let d := dropHeld p d
    if reserved ∨ 16 ≤ severity then answer p ST.invalid 0 d
    else match mfind d.hv.sessions (pathSession p) with
      | none => answer p ST.access 0 d
      | some s =>
        let s' : Session := { s with notices := if severity = 15 then none else some severity }
        answer p ST.ok 0 { d with hv := { d.hv with sessions := mset d.hv.sessions (pathSession p) s' } }

/-! ## The commands -/

def execRead (p : Path) (index sub offset count : Nat) (reserved : Bool) (s : State) : Out :=
  onDev (readReq p index sub offset count reserved s.log) s

def execWrite (p : Path) (index sub offset : Nat) (more reserved : Bool) (value : Bytes) (s : State) : Out :=
  onDev (writeReq p index sub offset more reserved value) s

def execDescribe (p : Path) (index sub : Nat) (reserved : Bool) (s : State) : Out :=
  onDev (describeReq p index sub reserved) s

def execSubscribe (p : Path) (severity : Nat) (reserved : Bool) (s : State) : Out :=
  onDev (subscribeReq p severity reserved) s

/-- LOG_READ_DATA: a READ of OD 0x5001.02. -/
def execLogReadData (p : Path) (offset count : Nat) (s : State) : Out :=
  onDev (readReq p (OD.logReadData / 256) (OD.logReadData % 256) offset count false s.log) s

/-- ATTEST_REPORT_READ: a READ of OD 0x6006.02. -/
def execAttestReportRead (p : Path) (offset count : Nat) (s : State) : Out :=
  onDev (readReq p (OD.attestReport / 256) (OD.attestReport % 256) offset count false s.log) s

/-- INSTALLATION_WRITE: a write of an installation object (R575). -/
def execInstallationWrite (p : Path) (index sub : Nat) (value : Bytes) (s : State) : Out :=
  onDev (fun d => if installationKeys.contains (256 * index + sub) then writeObject p index sub 0 value d else d) s

/-- REGISTER_WRITE (R566). -/
def execRegisterWrite (p : Path) (index sub : Nat) (value : Bytes) (s : State) : Out :=
  onDev (writeObject p index sub 0 value) s

end Sys2Proof.Machine
end

