-- ==== Sys2Proof/Machine/Bringup.lean ====
section
/-!
DEFINITION. The start of Hivan from a power cycle (R538, R573, R575, R579-R583, R592, R624-R626).
-/

namespace Sys2Proof.Machine

/-! ## What a power cycle leaves -/

/-- Objects whose value FL holds: the retirement and repair records (R266, R625), the fault record (R527), the tamper state
(R592), the owner record's number and the update record (R556). -/
def keptByFlash (key : Nat) : Bool :=
  (decide (OD.granulesRetired ≤ key) && decide (key < OD.granulesRetired + 12)) ||
  (decide (OD.sparesRemaining ≤ key) && decide (key < OD.sparesRemaining + 4)) ||
  [OD.llcWaysDisabled, OD.lostDie, OD.lastResetTier, OD.lastResetTarget, OD.lastResetCause, OD.tamperState, OD.tamperTrips,
   OD.lastTripSensor, OD.ownerRecordNumber, OD.activeSlot, OD.activeRelease, OD.minSecurityVersion, OD.updateState].contains key

def keptBytes (key : Nat) : Bool :=
  key == OD.deviceCertificate || (decide (OD.clusterMap ≤ key) && decide (key < OD.clusterMap + 4))

/-- Pins, what FL holds, and disconnects that are still to be logged (R596), kept; everything else as after reset (R573). -/
def afterPowerCycle (d : Dev) : Dev :=
  let mem : MemState := { MemState.reset with
    retired := d.mem.retired, tableFull := d.mem.tableFull, lost := d.mem.lost, rehoming := d.mem.rehoming,
    llcOff := d.mem.llcOff, laneRepairs := d.mem.laneRepairs }
  let faults : FaultState := { FaultState.reset with
    failedClusters := d.faults.failedClusters, usedSpares := d.faults.usedSpares }
  let hv : HivanState := { HivanState.reset with
    imageA := d.hv.imageA, imageB := d.hv.imageB, plcaUp := d.hv.plcaUp, update := { d.hv.update with bytes := [], due := false } }
  let sec : SecState := { d.sec with identity := none, sealKey := none, nonces := [], seqDigest := [] }
  let pow : PowerState := { PowerState.reset with
    v48ok := d.pow.v48ok, v48present := d.pow.v48present, v12ok := true, pwrEn := d.pow.pwrEn, sink := d.pow.sink,
    perst := d.pow.perst, svcEn := Config.svcTied }
  { Dev.reset with
    od := d.od.filter (fun x => keptByFlash x.1), odBytes := d.odBytes.filter (fun x => keptBytes x.1),
    installed := d.installed, installedBytes := d.installedBytes, mem := mem, faults := faults, hv := hv, sec := sec,
    pow := pow, ev := { EvState.reset with raised := d.ev.raised.filter (fun e => e.2.id == 0x2121) }, sent := d.sent, free := d.free }

/-! ## The log (R538) -/

/-- SEQ at a start: 0 at the first, later the next multiple of 2^32 above every SEQ used. -/
def startSeq (l : LogStore) : Nat :=
  match l.seqBase with
  | none => 0
  | some b => ((l.persisted.foldl (fun m r => Nat.max m r.seq) b) / 2 ^ 32 + 1) * 2 ^ 32 % 2 ^ 64

def startLog (l : LogStore) : LogStore :=
  { l with ring := [], nextSeq := startSeq l, seqBase := some (startSeq l), boot := (l.boot + 1) % 2 ^ 16,
           persistTokens := 1024, persistTick := 0 }

/-! ## Step 1: the security root -/

/-- The values that manufacture leaves, at the first start after it. -/
def firstStart (d : Dev) : Dev :=
  let i := d.hv.imageA.image
  wr OD.activeSlot 0 (wr OD.activeRelease i.release (wr OD.minSecurityVersion i.secVersion
    { d with sec := { d.sec with factoryDigest := Config.factoryDigest } }))

/-- Whether the response corrects to the enrolled pattern, and the identity is the certificate's (R580). -/
def identityGood (response : Bytes) (d : Dev) : Bool :=
  d.sec.helper && decide (response = d.sec.enrolled) && tamperSt d != TS.erased &&
  (match rdBytes d OD.deviceCertificate with
   | some c => decide (certificateDigest c = Config.sha3_512 (Config.mldsaPublic (identityOf response)))
   | none => true)

/-- An erase that was under way when power was lost is completed; then the keys are derived. -/
def startSecurity (response : Bytes) (d : Dev) : Dev :=
  let d := helperErased d
  if identityGood response d then
    securityReady { d with sec := { d.sec with identity := some (identityOf response), sealKey := some (sealKeyOf response) } }
  else setReady OD.readySecurity RS.failed 4 (raise hivanPort 0x6013 0 0 [] d)

/-! ## Step 2: the image (R558, R582) -/

/-- Whether the image of a slot passes its check at a start. -/
def slotPasses (boot i : Nat) (d : Dev) : Bool := (slotImage d i).valid && Config.recordGood (4 + i) boot

/-- An update that power loss interrupted ends; a marked image begins its trial, and one that fails its check is rolled back;
where the active slot's image fails its check, the other slot is used. -/
def startImages (boot : Nat) (d : Dev) : Dev :=
  let u := updateSt d
  let d := if u = US.erasing ∨ u = US.receiving ∨ u = US.verifying then setUpdateSt US.idle (spoilInactive d) else d
  let d := startTrial true d
  let d := if updateSt d = US.trial ∧ !slotPasses boot (otherIx d) d
    then setUpdateSt US.idle (spoilInactive (raise hivanPort 0x7004 0 0 [] d)) else d
  if updateSt d = US.trial ∨ slotPasses boot (activeIx d) d ∨ !slotPasses boot (otherIx d) d then d
  else wr OD.activeRelease (slotImage d (otherIx d)).image.release (wr OD.activeSlot (otherIx d) d)

/-- Whether some image passes. -/
def imageFound (boot : Nat) (d : Dev) : Bool := slotPasses boot 0 d || slotPasses boot 1 d

/-- Both slots fail: EV_6012 straight into the persistent log, and Hivan stays stopped. -/
def stayStopped (x : Dev × LogStore) : Dev × LogStore :=
  let l := x.2
  let r : LogRec := { seq := l.nextSeq, time := 0, boot := l.boot, event := 0x6012, source := 16, severity := 4, inst := 0,
                      rep := 0, detail0 := 0, details := [] }
  let d := setReady OD.readyManagement RS.failed 4 x.1
  ({ d with hv := { d.hv with running := false, stoppedFailed := true } },
   { l with persisted := keepPersisted r l.persisted, nextSeq := (l.nextSeq + 1) % 2 ^ 64 })

/-! ## Step 3: the records (R575, R583, R625, R626) -/

/-- The factory record, or EV_7007. -/
def startFactory (boot : Nat) (d : Dev) : Dev :=
  let ok := Config.recordGood 0 boot
  let d := { d with sec := { d.sec with factoryOk := ok } }
  if ok then d else raise hivanPort 0x7007 0 0 [] d

/-- The repair record: applied also without a good seal, then sealed again where a key is loaded. -/
def startRepair (boot : Nat) (d : Dev) : Dev :=
  let key := d.sec.sealKey.isSome
  if d.sec.repairSealed && key && Config.recordGood 1 boot then d
  else raise hivanPort 0x7008 0 0 [] { d with sec := { d.sec with repairSealed := key } }

/-- Defaults that the factory and the owner record set; an owner record of which no copy passes its check sets none. -/
def startOwner (boot : Nat) (d : Dev) : Dev :=
  let d := { d with sec := { d.sec with ownerOk := Config.recordGood 3 boot } }
  let d := ownerScalars.foldl (fun d k => wr k (ownerDefault d k) d) d
  ownerDomains.foldl (fun d k =>
    let b := ownerDefaultBytes d k
    if b = [] then d else wrBytes k b d) d

/-- The installation record: its values in force, or ignored with EV_7006 where its seal fails. -/
def startInstallation (boot : Nat) (d : Dev) : Dev :=
  if d.installed = [] ∧ d.installedBytes = [] then d
  else if d.sec.sealKey.isSome && d.sec.installSealed && Config.recordGood 2 boot then
    let d := d.installed.foldl (fun d x => wr x.1 x.2 d) d
    d.installedBytes.foldl (fun d x => wrBytes x.1 x.2 d) d
  else raise hivanPort 0x7006 0 0 [] { d with installed := [], installedBytes := [] }

/-- Steps 3 and 4: the records read, the management cores out of reset, the field network up. -/
def startCores (slotId boot : Nat) (mc : Bool) (d : Dev) : Dev :=
  let d := { d with hv := { d.hv with running := true, startedAt := 0 } }
  if !mc then setReady OD.readyManagement RS.failed 4 d
  else
    let d := startInstallation boot (startOwner boot (startRepair boot (startFactory boot d)))
    setReady OD.readyManagement RS.ready 0 (wr OD.plcaNodeId (slotId % 32) d)

/-- HIVAN_START: the response of the identity SRAM, the slot straps, and whether the management cores leave reset. -/
def hivanStart (response : Bytes) (slotId : Nat) (mc : Bool) (x : Dev × LogStore) : Dev × LogStore :=
  if x.1.hv.running then x
  else
    let first := x.2.seqBase.isNone
    let l := startLog x.2
    let d := afterPowerCycle x.1
    let d := startImages l.boot (startSecurity response (if first then firstStart d else d))
    if imageFound l.boot d then (startCores slotId l.boot mc d, l) else stayStopped (d, l)

def execHivanStart (response : Bytes) (slotId : Nat) (mc : Bool) (s : State) : Out :=
  let r := hivanStart response slotId mc (s.m, s.log)
  .next { s with m := r.1, log := r.2 }

end Sys2Proof.Machine
end

