-- ==== Sys2Proof/Machine/Host.lean ====
section
/-!
DEFINITION. The paths that bring whole requests: in-band slots, the host mailbox, the service interface, and a host's accesses
through a bridge's BARs (R389-R392, R544-R547, R552, R553, R617).
-/

namespace Sys2Proof.Machine

/-! ## REQUEST payloads (R545) -/

/-- A request payload executed on a path. Reserved fields, an undefined OP, and a payload shorter than its words or its COUNT
are ST_INVALID (R546). -/
def serve (p : Path) (b : Bytes) (l : LogStore) (d : Dev) : Dev :=
  let w0 := leNat (b.take 8)
  let w1 := leNat ((b.drop 8).take 8)
  let index := nfld w0 31 16
  let sub := nfld w0 39 32
  let offset := nfld w1 31 0
  let count := nfld w1 63 32
  let bad := decide (b.length < 16) || nfld w0 15 5 != 0 || nfld w0 63 44 != 0
  let value := ((b.drop 16).take count)
  match nfld w0 3 0 with
  | 1 => readReq p index sub offset count bad l d
  | 2 => writeReq p index sub offset (w0.testBit 4) (bad || decide (value.length < count)) value d
  | 3 => describeReq p index sub bad d
  | 4 => subscribeReq p (nfld w0 43 40) bad d
  | _ => subscribeReq p 0 true d

/-! ## In-band slots (R552) -/

/-- SLOT_DOORBELL: slots 0 to 3 accept the sequencer processors only. A request that the doorbell submits is executed at once
where the management cores run; otherwise it waits, and the end of the Hivan restart answers it (R559). -/
def slotDoorbell (n : Nat) (sequencer : Bool) (seq : Nat) (l : LogStore) (d : Dev) : Dev :=
  if 256 ≤ n ∨ (n < 4 ∧ !sequencer) then busAnswer ST.access 0 d
  else
    let x := slotAt d n
    let d := busAnswer ST.ok 0 (ringSlot n seq d)
    if x.done = x.doorbell ∧ seq ≠ 0 ∧ coresRun d then serve (.slot n) (bufRead x.request 0 16400) l d else d

def execSlotDoorbell (slot : Nat) (sequencer : Bool) (seq : W64) (s : State) : Out :=
  onDev (slotDoorbell slot sequencer seq.toNat s.log) s

/-! ## The host mailbox (R553) -/

/-- A frame as its bytes spell it (R544). -/
def parseFrame (b : Bytes) : Frame :=
  let w0 := leNat (b.take 8)
  let w1 := leNat ((b.drop 8).take 8)
  let n := nfld w1 47 32
  let tagged := w0.testBit 24
  { version := nfld w0 7 0, type := nfld w0 15 8, fragLast := nfld w0 19 16, fragIdx := nfld w0 23 20, tagged,
    reserved := nfld w0 31 25 != 0 || nfld w1 63 48 != 0, session := nfld w0 63 32, seq := nfld w1 31 0,
    payload := (b.drop 16).take n, tag := if tagged then (b.drop (16 + n)).take 32 else [] }

/-- Whether a mailbox frame of a length is well formed. -/
def mailFrameOk (len : Nat) (f : Frame) : Bool :=
  f.version == 1 && !f.reserved && f.fragLast == 0 && f.fragIdx == 0 && decide (f.payload.length ≤ 32656) &&
  len == (frameBytes f).length && f.tag.length == (if f.tagged then 32 else 0)

/-- HELLO in the mailbox: slot, nonce, encapsulation key. -/
def mailHello (f : Frame) (d : Dev) : Dev :=
  let w := leNat (f.payload.take 8)
  if f.session ≠ 0 ∨ f.tagged ∨ w ≠ nfld w 3 0 ∨ f.payload.length ≠ 1608 then malformed true d
  else hello true w ((f.payload.drop 8).take 32) (f.payload.drop 40) d

/-- FINISH in the mailbox: it belongs to the handshake whose key its tag verifies under. -/
def mailFinish (f : Frame) (d : Dev) : Dev :=
  let mine := d.hv.handshakes.filter (fun h => h.2.mailbox)
  match mine.find? (fun h => decide (frameTag (keyIn h.2.keys) f = f.tag)) with
  | some h => finishWith true h.1 f.payload (fun _ => true) d
  | none => if mine.isEmpty || !f.tagged then malformed true d else mailboxDiscard (inc OD.tagFailures d)

/-- A frame of a session heard: its idle time starts again, and its tag failures are no longer in succession. -/
def heard (n : Nat) (d : Dev) : Dev :=
  match mfind d.hv.sessions n with
  | some s =>
    let s' : Session := { s with lastFrame := d.tick, tagFails := 0 }
    { d with hv := { d.hv with sessions := mset d.hv.sessions n s' } }
  | none => d

/-- A REQUEST of a session: executed once by its SEQ, or answered with the kept reply (R547). -/
def mailRequest (f : Frame) (s : Session) (l : LogStore) (d : Dev) : Dev :=
  if f.seq = (s.lastSeq + 1) % 2 ^ 32 then serve (.mailbox f.session) f.payload l d
  else if f.seq = s.lastSeq ∧ s.lastReply ≠ [] then
    mailboxReply (fragment (some s.keyOut) f.session 0x11 f.seq 1 0 s.lastReply) d
  else mailboxDiscard (inc OD.requestsDiscarded d)

/-- A frame of a session without a reply: the mailbox is done with it, be the session one that the field network opened. -/
def mailDoneWith (s : Session) (d : Dev) : Dev := if s.mailbox then d else mailboxDiscard d

/-- A well-formed frame that names a session. -/
def mailSession (f : Frame) (l : LogStore) (d : Dev) : Dev :=
  match mfind d.hv.sessions f.session with
  | none => refuse true f.session ST.noSession d
  | some s =>
    if !f.tagged ∨ frameTag s.keyIn f ≠ f.tag then mailDoneWith s (tagFailed f.session d)
    else if f.type = 0x10 then mailRequest f s l (heard f.session d)
    else if f.type = 0x30 then mailDoneWith s (closeFrame f.session d)
    else malformed true d

/-- A frame in the mailbox executed. -/
def mailServe (len : Nat) (f : Frame) (l : LogStore) (d : Dev) : Dev :=
  if !mailFrameOk len f then malformed true d
  else if f.type = 0x01 then mailHello f d
  else if f.type = 0x03 then mailFinish f d
  else if f.session ≠ 0 then mailSession f l d
  else if f.type = 0x10 ∧ !f.tagged then serve (.mailbox 0) f.payload l d
  else malformed true d

/-- MAILBOX_DOORBELL: ignored while DONE is clear. -/
def mailboxDoorbell (len : Nat) (f : Frame) (l : LogStore) (d : Dev) : Dev :=
  if !d.hv.mailDone ∨ !d.hv.running then d
  else
    let d := { d with hv := { d.hv with mailFrame := some f, mailDone := false } }
    if coresRun d then mailServe len f l d else d

def execMailboxDoorbell (len : Nat) (frame : Frame) (s : State) : Out :=
  onDev (fun d => mailboxDoorbell len frame s.log
    { d with hv := { d.hv with mailIn := bufWrite d.hv.mailIn 0 (frameBytes frame) } }) s

/-! ## The service interface (R617) -/

/-- Whether the service interface takes a frame. -/
def serviceFrameOk (f : Frame) : Bool :=
  f.version == 1 && !f.reserved && f.fragLast == 0 && f.fragIdx == 0 && decide (f.payload.length ≤ 4096) && f.session == 0 &&
  !f.tagged

/-- The reply sent last carries the SEQ of its request. -/
def stampSeq (seq : Nat) (d : Dev) : Dev :=
  match d.sent.getLast? with
  | some (.frame f) => { d with sent := d.sent.dropLast ++ [.frame { f with seq }] }
  | _ => d

/-- SERVICE_INTERFACE_FRAME: reads of identity and readiness objects; every other request is refused with ST_ACCESS. -/
def serviceFrame (f : Frame) (l : LogStore) (d : Dev) : Dev :=
  if !serviceRuns d then d
  else if !serviceFrameOk f then inc OD.requestsDiscarded d
  else if f.type = 0x10 ∧ nfld (leNat (f.payload.take 8)) 3 0 = 1 then stampSeq f.seq (serve .service f.payload l d)
  else stampSeq f.seq (serviceReply ST.access (replyBytes ST.access 0 0 []) d)

def execServiceInterfaceFrame (f : Frame) (s : State) : Out := onDev (serviceFrame f s.log) s

/-! ## Host accesses (R133, R389-R391) -/

/-- Slot of the accesses of a host through an edge port (R304). -/
def hostSlot (e : Nat) : Nat := 10244 + e

/-- Whether an edge port carries a host: PCIe role, link up. -/
def hostLinked (d : Dev) (e : Nat) : Bool := decide (e < 2) && edgeRoleOf d e == 1 && works d (edgeFn e)

/-- An error that AER records, by its bit of the Uncorrectable Error Status register (R388, log entry 122): 12 poisoned data, 15
Completer Abort, 20 Unsupported Request. -/
def noteAer (e bit : Nat) (d : Dev) : Dev :=
  { d with pow := { d.pow with aer := mput 0 d.pow.aer e (Nat.lor (mget 0 d.pow.aer e) (2 ^ bit)) } }

/-- An access that no function takes: Unsupported Request. -/
def unsupportedRequest (e : Nat) (d : Dev) : Dev := send (.unsupported e) (noteAer e 20 d)

/-- Writes of a host that have not been acknowledged. -/
def hostWrites (d : Dev) (e : Nat) : List Nat := (d.tw.ops.filter (fun o => decide (o.2.use_ = .hostWrite e))).map (fun o => o.1)

/-- The descriptor that a host access stands for: a store of an operand, or a read. -/
def hostDesc (ctx dst : Nat) (operand : W64) : FabDesc :=
  { words := [1, BitVec.ofNat 64 dst, operand, 0, 0, 0, 0, 0], ctx, origin := .doorbell, record := [], step := 0, mb := 0xFFFF }

/-- An access of a host put in flight, with its packets, or with the status that already decides it. -/
def hostOp (e : Nat) (use : OpUse) (x : FabDesc) (pk : List PktRec) (st : Status) (data : Bytes) (after : List Nat) (d : Dev) : Dev :=
  let id := d.tw.nextOp
  let slot := hostSlot e
  let read := decide (use = .hostRead e)
  let seq := if read then readTag id else mget 0 d.tw.seqs slot
  let op : FabOp :=
    { desc := x, use_ := use, slot, epoch := (ctxOf d x.ctx).epoch, seq, sequenced := false,
      pkts := if st = ST.ok then pk else [], begun := true, status := st, fixed := decide (st ≠ ST.ok), bytes := 0, result := 0,
      data, multi := false, counted := false, after }
  { d with tw := { d.tw with ops := mset d.tw.ops id op, nextOp := id + 1,
                             seqs := if read then d.tw.seqs else mput 0 d.tw.seqs slot ((seq + 1) % 2 ^ 32) } }

/-- A packet that may leave at once does. -/
def hostSend (id : Nat) (d : Dev) : Dev :=
  match findOp d id with
  | some op => (match op.pkts[0]? with
    | some p => if maySend d id op p then sendPacket id 0 d else d
    | none => d)
  | none => d

/-- An access of control space through BAR0: applied when every earlier write of the host has been acknowledged, turned round
at the link die as an access of slot 10,244 or 10,245. A write that is applied at once ends at once. -/
def hostControl (e a size : Nat) (write : Option Bytes) (d : Dev) : Dev :=
  let after := hostWrites d e
  let dst := gAddr (devNo d) a
  let x := hostDesc (rd d OD.hostContext) dst (BitVec.ofNat 64 (leNat (write.getD [])))
  let id := d.tw.nextOp
  let kind := if write.isSome then PktKind.store else PktKind.read
  let use := if write.isSome then OpUse.hostWrite e else OpUse.hostRead e
  let d := hostSend id (hostOp e use x [PktRec.new kind dst 0 size] ST.ok [] after d)
  if write.isSome then finishOp id d else d

/-- A byte of the mailbox window. Reserved words read as zero (R7); what the doorbell reads is not stated: a free byte each. -/
def mailByte (d : Dev) (o : Nat) : Byte :=
  if 8 ≤ o ∧ o < 16 then (leBytes 8 (d.hv.mailReply.length % 2 ^ 16 + if d.hv.mailDone then 2 ^ 63 else 0)).getD (o - 8) 0
  else if o < 8 then (Config.freeValue (d.free + o)).setWidth 8
  else if o < 0x40 then 0
  else if o < 0x8000 then d.hv.mailIn.getD (o - 0x40) 0
  else d.hv.mailReply.getD (o - 0x8000) 0

/-- A read of the mailbox completes after the host's earlier writes. -/
def mailRead (e o size : Nat) (d : Dev) : Dev :=
  let data := (List.range size).map (fun i => mailByte d (o + i))
  hostOp e (.hostRead e) (hostDesc (rd d OD.hostContext) 0 0) [] ST.ok data (hostWrites d e) { d with free := d.free + 64 }

/-- A write of the mailbox: its doorbell, or bytes of the frame; the rest of the window is the device's. -/
def mailWrite (o : Nat) (v : Bytes) (l : LogStore) (d : Dev) : Dev :=
  if o = 0 then
    let n := leNat (v.take 8)
    mailboxDoorbell n (parseFrame (bufRead d.hv.mailIn 0 (Nat.min n 32704))) l d
  else if 0x40 ≤ o ∧ o + v.length ≤ 0x8000 then { d with hv := { d.hv with mailIn := bufWrite d.hv.mailIn (o - 0x40) v } }
  else d

/-- HOST_BAR0_ACCESS. A function in D3hot takes no memory access (log entry 122). -/
def hostBar0 (e offset size : Nat) (write : Option Bytes) (l : LogStore) (d : Dev) : Dev :=
  if !hostLinked d e then d
  else if mget false d.pow.d3hot e then unsupportedRequest e d
  else if 0x1000000 ≤ offset ∧ offset < 0x2800000 then hostControl e (0x1F00000000000 + offset) size write d
  else if 0x3000000 ≤ offset ∧ offset < 0x3010000 then
    (match write with
     | some v => mailWrite (offset - 0x3000000) v l d
     | none => mailRead e (offset - 0x3000000) size d)
  else unsupportedRequest e d

def execHostBar0Access (edge offset size : Nat) (write : Option Bytes) (s : State) : Out :=
  onDev (hostBar0 edge offset size write s.log) s

/-- Device number of a member of the host group. -/
def hostMember (d : Dev) (m : Nat) : Nat := leNat (((rdFull d OD.hostGroupTable).drop (2 * m)).take 2)

/-- Whether a write is one STORE: a naturally aligned one of 1, 2, 4 or 8 bytes. -/
def isStore (a n : Nat) : Bool := [1, 2, 4, 8].contains n && a % n == 0

/-- The checks at the link die: the pages, the map (R288), the limits of the target; and where each byte goes. -/
def hostCheck (ctx a n : Nat) (write : Bool) (d : Dev) : Status × (Nat → Nat) × Dev :=
  let v := fttView d
  let t : List FttEntry := v.1
  let tr := fun (x : Nat) => (fttTranslate t ctx x).getD x
  let d : Dev := v.2
  match fttDenied t ctx (fun e => if write then e.wr else e.rd) a n with
  | some x => (ST.access, tr, recordDenial ctx x d)
  | none =>
    if !mapped (gLocal a) n || !mapped (gLocal (tr a)) 1 then (ST.access, tr, d)
    else if peerBreaks d (hostDesc ctx a 0) (tr a) false then
      (ST.peerLimit, tr, recordPeerLimit d)
    else (ST.ok, tr, d)

/-- An access through BAR2 to a member's local address: a naturally aligned write of up to 8 bytes is a STORE, any other is written
like copied data. A read, and a write of control space, leaves after the host's earlier writes are acknowledged (R133). -/
def hostRemote (e ctx a size : Nat) (write : Option Bytes) (d : Dev) : Dev :=
  let c := hostCheck ctx a size write.isSome d
  let d : Dev := c.2.2
  match write with
  | some v =>
    let x := hostDesc ctx a (BitVec.ofNat 64 (leNat (v.take 8)))
    let pk := if isStore a size then [PktRec.new .store (c.2.1 a) 0 size]
      else (cutExtent (fun y => toMultiple (payloadOf d (gDev (c.2.1 y))) y) size a size).map
        (fun (k : Nat × Nat) => PktRec.new .write (c.2.1 k.1) (k.1 - a) k.2)
    let id := d.tw.nextOp
    let d := hostOp e (.hostWrite e) x pk c.1 v (if inControl (gLocal a) then hostWrites d e else []) d
    if c.1 = ST.ok then d else finishOp id d
  | none =>
    let pk := (cutExtent (fun x => toMultiple (payloadOf d (gDev (c.2.1 x))) x) size a size).map
      (fun (k : Nat × Nat) => PktRec.new .read (c.2.1 k.1) (k.1 - a) k.2)
    hostOp e (.hostRead e) (hostDesc ctx a 0) pk c.1 [] (hostWrites d e) d

/-- HOST_BAR2_ACCESS: an unused entry or a host context that is not LIVE ends the access. -/
def hostBar2 (e offset size : Nat) (write : Option Bytes) (d : Dev) : Dev :=
  if !hostLinked d e then d
  else if 2 ^ 53 ≤ offset ∨ mget false d.pow.d3hot e then unsupportedRequest e d
  else
    let ctx := rd d OD.hostContext
    let dev := hostMember d (offset / 2 ^ 49)
    let st := if dev = 0xFFFF then ST.access else if (ctxOf d ctx).st ≠ .live then ST.state else ST.ok
    let a := gAddr dev (offset % 2 ^ 49)
    if st = ST.ok then hostRemote e ctx a size write d
    else match write with
      | some v =>
        let id := d.tw.nextOp
        finishOp id (hostOp e (.hostWrite e) (hostDesc ctx a 0) [] st v [] d)
      | none => hostOp e (.hostRead e) (hostDesc ctx a 0) [] st [] (hostWrites d e) d

def execHostBar2Access (edge offset size : Nat) (write : Option Bytes) (s : State) : Out :=
  onDev (hostBar2 edge offset size write) s

/-- How a host's read is answered: poisoned data for ST_POISON, Completer Abort for any other status but ST_OK (R390). -/
def hostAnswer (st : Status) : HostAnswer :=
  if st = ST.ok then .success else if st = ST.poison then .poisoned else .abort

/-- The answer to a host's read leaves; an abort carries no data. -/
def answerHost (e : Nat) (op : FabOp) (d : Dev) : Dev :=
  let a := hostAnswer op.status
  let d := match a with
    | .success => d
    | .poisoned => noteAer e 12 d
    | .abort => noteAer e 15 d
  send (.hostReply e a (if a = .abort then [] else op.data)) d

/-- HOST_READ_COMPLETE: a host's read whose outcome is decided is answered once the host's earlier writes are acknowledged. -/
def hostReadComplete (id : Nat) (d : Dev) : Dev :=
  match findOp d id with
  | none => d
  | some op =>
    match op.use_ with
    | .hostRead e =>
      if decided op && op.after.all (fun i => (findOp d i).isNone) then
        answerHost e op (removeOp id op d)
      else d
    | _ => d

def execHostReadComplete (op : Nat) (s : State) : Out := onDev (hostReadComplete op) s

/-! ## Doorbells (R305, R306) -/

/-- The doorbell of a queue under a context. -/
def doorbellAt (core queue ctx : Nat) : Nat := doorbellBase + 1024 * (4 * core + queue) + 16 * ctx

/-- Whether an access names a doorbell. -/
def bellNamed (core queue ctx : Nat) : Bool := decide (core < 2048) && decide (queue < 4) && decide (ctx < 64)

/-- DOORBELL_POST: by a sequencer processor at once; by a host as a write of control space through the bridge, which waits for its
earlier writes (R133); any other agent gets ST_ACCESS. -/
def doorbellPost (a : Agent) (core queue ctx : Nat) (desc : W64) (d : Dev) : Dev :=
  match a with
  | .sequencer => if bellNamed core queue ctx then busAnswer ST.ok 0 (bellPost core queue ctx desc.toNat d) else busAnswer ST.access 0 d
  | .host e =>
    if hostLinked d e && bellNamed core queue ctx
    then hostControl e (doorbellAt core queue ctx) 8 (some (leBytes 8 desc.toNat)) d else d
  | .other => busAnswer ST.access 0 d

def execDoorbellPost (a : Agent) (core queue ctx : Nat) (desc : W64) (s : State) : Out := onDev (doorbellPost a core queue ctx desc) s

/-- DOORBELL_STATUS_READ: a host's is a read through the bridge. -/
def doorbellStatusRead (a : Agent) (core queue ctx : Nat) (d : Dev) : Dev :=
  match a with
  | .sequencer => if bellNamed core queue ctx then busAnswer ST.ok (bellRead d core queue ctx) d else busAnswer ST.access 0 d
  | .host e =>
    if hostLinked d e && bellNamed core queue ctx then hostControl e (doorbellAt core queue ctx + 8) 8 none d else d
  | .other => busAnswer ST.access 0 d

def execDoorbellStatusRead (a : Agent) (core queue ctx : Nat) (s : State) : Out := onDev (doorbellStatusRead a core queue ctx) s

end Sys2Proof.Machine
end

