-- ==== Sys2Proof/Machine/ThreadCtl.lean ====
section
/-!
DEFINITION. Moves (R77, R78), control (R81), barriers (R83-R86), shuffles (R87, R88), votes (R89), the end of blocks and
the time limit of waits.
-/

namespace Sys2Proof.Machine

/-! ## Moves -/

def execMov (w : Where) (f : Fields) (s : State) : Out :=
  onDev (runLanes w f 3 0x00 (fun _ _ l => l.setReg f.dst (l.reg f.srcA))) s

/-- MOVI: IMM to the low half of DST, the high half cleared. -/
def execMovi (w : Where) (f : Fields) (s : State) : Out :=
  onDev (runLanes w f 3 0x01 (fun _ _ l => l.setReg f.dst (BitVec.ofNat 32 f.imm.toNat))) s

/-- The special registers (R78). -/
def specialReg (d : Dev) (x : Issue) (lane n : Nat) : Nat :=
  match n with
  | 0 => lane
  | 1 => x.w.group
  | 2 => x.block.no
  | 3 => x.grid.blocks
  | 4 => x.grid.blockGroups
  | 5 => x.block.core
  | 6 => x.block.core / 8
  | 7 => x.grid.args % 2 ^ 32
  | 8 => nfld x.grid.args 48 32
  | 9 => laneMask x.act
  | _ => devNo d

def execSreg (w : Where) (f : Fields) (s : State) : Out :=
  onDev (runInstr w f 3 0x02 (fun x d =>
    modLanes w x.act (fun i l => l.setReg f.dst (BitVec.ofNat 32 (specialReg d x i (f.immFld 7 0)))) d)) s

/-- The fields of an instruction and its register A, as the open value of PMOV reads them. -/
def pmovWord (f : Fields) : W64 :=
  at64 f.pred.toNat 49 ||| at64 (if f.pneg then 1 else 0) 48 ||| at64 f.dst.toNat 40 ||| at64 f.srcA.toNat 32 |||
  at64 f.srcB.toNat 24 ||| at64 f.srcC.toNat 16 ||| at64 f.imm.toNat 0

/-- PMOV: the manual names it a move and gives neither its direction nor its operands: what its predicates and DST hold
afterwards is open (log entry 2). -/
def execPmov (w : Where) (f : Fields) (s : State) : Out :=
  onDev (runLanes w f 3 0x03 (fun _ _ l =>
    let a := l.reg f.srcA
    let b := l.predBits
    let p := (List.range 7).foldl (fun l i => l.setPred i (Config.pmovPred i (pmovWord f) a b)) l
    p.setReg f.dst (Config.pmovReg (pmovWord f) a b))) s

/-! ## Control (R81) -/

/-- The target of BRA and CALL. -/
def branchTarget (pc : Nat) (imm : BitVec 16) : Nat := wrapInt 64 ((pc : Int) + 8 * sext 16 imm.toNat)

def execBra (w : Where) (f : Fields) (s : State) : Out :=
  onDev (runLanes w f 7 0x00 (fun x _ l => { l with pc := branchTarget x.pc f.imm })) s

def execBrx (w : Where) (f : Fields) (s : State) : Out :=
  onDev (runLanes w f 7 0x01 (fun _ _ l => { l with pc := l.wide f.srcA 2 })) s

/-- CALL: with 32 entries on an executing lane's stack the group faults with ST_STATE. -/
def execCall (w : Where) (f : Fields) (s : State) : Out :=
  onDev (runInstr w f 7 0x02 (fun x d =>
    if x.act.any (fun i => decide (32 ≤ (x.lane i).stack.length)) then groupFault w ST.state x.pc x.lanes d
    else modLanes w x.act (fun _ l => { l with stack := (x.pc + 8) :: l.stack, pc := branchTarget x.pc f.imm }) d)) s

/-- RET: with an executing lane's stack empty the group faults with ST_STATE. -/
def execRet (w : Where) (f : Fields) (s : State) : Out :=
  onDev (runInstr w f 7 0x03 (fun x d =>
    if x.act.any (fun i => (x.lane i).stack.isEmpty) then groupFault w ST.state x.pc x.lanes d
    else modLanes w x.act (fun _ l => { l with stack := l.stack.tail, pc := l.stack.headD 0 }) d)) s

/-- YIELD: the lanes are held for the next 16 issues of their group (R81). A failed guard holds no lane. -/
def execYieldIssue (w : Where) (f : Fields) (s : State) : Out :=
  onDev (runInstr w f 7 0x05 (fun x d => modLanes w x.act (fun _ l => { l with yielded := some (x.group.issues + 1) }) d)) s

def execNop (w : Where) (f : Fields) (s : State) : Out :=
  onDev (runInstr w f 7 0x06 (fun _ d => d)) s

/-! ## Barriers (R83-R86) -/

/-- A waiting lane released. -/
def freed (l : Lane) : Lane := { l with st := .run }

/-- Whether a lane waits at BAR.GROUP with a number and mask. -/
def atGroupBar (num : Nat) (mask : W32) (l : Lane) : Bool :=
  match l.st with
  | .barGroup n m _ => n == num && m == mask
  | _ => false

/-- Whether a lane waits at BAR.BLOCK with a number and count. -/
def atBlockBar (num count : Nat) (l : Lane) : Bool :=
  match l.st with
  | .barBlock n c _ => n == num && c == count
  | _ => false

def isDone (l : Lane) : Bool := decide (l.st = .done)

/-- Whether a lane is blocked at any barrier. -/
def atBarrier (l : Lane) : Bool :=
  match l.st with
  | .barGroup _ _ _ => true
  | .barBlock _ _ _ => true
  | _ => false

/-- Members of a mask that have neither arrived nor exited. -/
def missing (g : Group) (num : Nat) (mask : W32) : List Lane :=
  (g.lanes.zipIdx.filter (fun p => mask.getLsbD p.2 && !atGroupBar num mask p.1 && !isDone p.1)).map (fun p => p.1)

/-- BAR.GROUP released where every member of its mask has arrived or exited. -/
def releaseGroupBar (w : Where) (num : Nat) (mask : W32) (d : Dev) : Dev :=
  match findGroup d w with
  | none => d
  | some (_, g) =>
    if (missing g num mask).isEmpty
    then modGroup w (fun g => { g with lanes := g.lanes.map (fun l => if atGroupBar num mask l then freed l else l) }) d
    else d

def blockLanes (b : Block) : List Lane := b.groups.flatMap (fun g => g.lanes)

/-- BAR.BLOCK released where arrived and exited threads reach the count; the release is an acquire at BLOCK scope
(R119). -/
def releaseBlockBar (grid no num count : Nat) (d : Dev) : Dev :=
  match findBlock d grid no with
  | none => d
  | some b =>
    let ls := blockLanes b
    let here := (ls.filter (atBlockBar num count)).length
    if 0 < here ∧ count ≤ here + (ls.filter isDone).length then
      dropAllBuffered b.core (modBlock grid no (fun b => { b with groups := b.groups.map (fun g =>
        { g with lanes := g.lanes.map (fun l => if atBlockBar num count l then freed l else l) }) }) d)
    else d

/-- The barriers at which threads of a block wait: for each a lane, with its group. -/
def barrierOf (l : Lane) : Option (Sum (Nat × W32) (Nat × Nat)) :=
  match l.st with
  | .barGroup n m _ => some (.inl (n, m))
  | .barBlock n c _ => some (.inr (n, c))
  | _ => none

/-- Every barrier of a block that is now complete is released. -/
def releaseBars (grid no : Nat) (d : Dev) : Dev :=
  match findBlock d grid no with
  | none => d
  | some b =>
    let gs := b.groups.zipIdx.flatMap (fun g => g.1.lanes.filterMap (fun l => (barrierOf l).map (fun k => (g.2, k))))
    gs.foldl (fun d k => match k.2 with
      | .inl (n, m) => releaseGroupBar ⟨grid, no, k.1⟩ n m d
      | .inr (n, c) => releaseBlockBar grid no n c d) d

/-- Whether a BAR.GROUP at which a thread of the group waits is dead: each member that has not arrived is exited or
blocked at a different barrier (R85). -/
def groupBarDead (g : Group) (num : Nat) (mask : W32) : Bool := (missing g num mask).all atBarrier

/-- Whether a BAR.BLOCK is dead: every thread that has not arrived is exited or blocked at a different barrier. -/
def blockBarDead (b : Block) (num count : Nat) : Bool :=
  (blockLanes b).all (fun l => isDone l || atBlockBar num count l || atBarrier l)

/-- The dead barriers at which lanes of a group wait, once each. -/
def deadBars (b : Block) (g : Group) : List (Sum (Nat × W32) (Nat × Nat)) :=
  ((g.lanes.filterMap barrierOf).eraseDups).filter (fun k => match k with
    | .inl (n, m) => groupBarDead g n m
    | .inr (n, c) => blockBarDead b n c)

/-- Lanes of a group, by number, that wait at a dead barrier. -/
def deadLanes (b : Block) (g : Group) : List Nat :=
  ((g.lanes.zipIdx).filter (fun p => ((barrierOf p.1).map (deadBars b g).contains).getD false)).map (fun p => p.2)

/-- How many barriers of a block are dead: each BAR.GROUP of each group, and each BAR.BLOCK of the block. -/
def deadCount (b : Block) : Nat :=
  let ks := b.groups.map (deadBars b)
  (ks.map (fun l => (l.filter (fun k => k.isLeft)).length)).sum + (ks.flatten.filter (fun k => k.isRight)).eraseDups.length

/-- The groups of a block with lanes at a dead barrier: the group's place, its lanes there, and the barrier instruction of the
lowest. -/
def deadGroups (b : Block) : List (Nat × List Nat) :=
  (b.groups.zipIdx.map (fun p => (((p.1.lanes.getD ((deadLanes b p.1).headD 0) (Lane.fresh 0 8)).pc - 8), deadLanes b p.1))).filter
    (fun p => !p.2.isEmpty)

/-- The test for dead barriers of a block (R85): each dead barrier is counted and raised, every group with a thread at one
faults, and the block stops. The faults fall in one step, so the lowest group's stays recorded (R102). -/
def testDead (grid no : Nat) (d : Dev) : Dev :=
  match findBlock d grid no with
  | none => d
  | some b =>
    let gs := deadGroups b
    if gs.isEmpty then d
    else endBlock grid no (gs.reverse.foldl (fun d g => noteFault b ST.barrierMismatch g.1 g.2 d)
      (times (deadCount b) (fun _ => noteBarMismatch b) d))

/-- After threads have blocked at a barrier or exited: complete barriers release, then dead ones are found. -/
def settleBarriers (grid no : Nat) (d : Dev) : Dev := testDead grid no (releaseBars grid no d)

/-- BAR.GROUP. A lane whose own bit is clear in its mask faults the group with ST_INVALID (R83). BAR.GROUP orders the
group's accesses at GROUP scope (R119). -/
def execBarGroup (w : Where) (f : Fields) (s : State) : Out :=
  onDev (runInstr w f 8 0x00 (fun x d =>
    if x.act.any (fun i => !((x.lane i).reg f.srcA).getLsbD i) then groupFault w ST.invalid x.pc x.lanes d
    else deliverStoreError x (fun d => settleBarriers w.grid w.block
      (modLanes w x.act (fun _ l => { l with st := .barGroup (f.immFld 3 0) (l.reg f.srcA) d.tick }) d)) d)) s

/-- The count of a BAR.BLOCK: zero stands for all threads of the block (R84). -/
def barCount (b : Block) (v : W32) : Nat := if v = 0 then 32 * b.groups.length else v.toNat

/-- BAR.BLOCK (R84). Lanes of one instruction that bring different counts fault as a thread does that meets another's count
(DESIGN CHOICE, log entry 9). -/
def execBarBlock (w : Where) (f : Fields) (s : State) : Out :=
  onDev (runInstr w f 8 0x01 (fun x d =>
    let count := fun i => barCount x.block ((x.lane i).reg f.srcA)
    let num := f.immFld 3 0
    if x.act.any (fun i => count i % 32 != 0 || decide (32 * x.block.groups.length < count i))
    then groupFault w ST.invalid x.pc x.lanes d
    else
      let held := (blockLanes x.block).filterMap (fun l => match l.st with
        | .barBlock n c _ => if n = num then some c else none
        | _ => none)
      let counts := held ++ x.act.map count
      if counts.any (fun c => c != counts.headD 0) then barrierFault w x.pc x.lanes d
      else deliverStoreError x (fun d => settleBarriers w.grid w.block
        (modLanes w x.act (fun _ l => { l with st := .barBlock num (barCount x.block (l.reg f.srcA)) d.tick }) d)) d)) s

/-- A block all of whose lanes have exited ends (R81). -/
def endIfDone (grid no : Nat) (d : Dev) : Dev :=
  match findBlock d grid no with
  | none => d
  | some b => if (blockLanes b).all isDone then endBlock grid no d else d

/-- EXIT: a store error of the group is delivered first (R118); the lanes end, and barriers and the block follow. -/
def execExitLane (w : Where) (f : Fields) (s : State) : Out :=
  onDev (runInstr w f 7 0x04 (fun x => deliverStoreError x (fun d =>
    endIfDone w.grid w.block (settleBarriers w.grid w.block
      (modLanes w x.act (fun _ l => { l with st := .done }) d))))) s

/-- The time a lane has waited at a barrier. -/
def barrierSince (l : Lane) : Option Nat :=
  match l.st with
  | .barGroup _ _ t => some t
  | .barBlock _ _ t => some t
  | _ => none

/-- The time a lane has waited on a counter. -/
def counterSince (l : Lane) : Option Nat :=
  match l.st with
  | .waitCc _ _ t => some t
  | .waitArr _ _ t => some t
  | _ => none

/-- A lane that has waited longer than BarrierLimit makes its group fault with ST_TIMEOUT and raises EV_2422 (R86,
R100, R104); before that nothing happens. DETAIL0 of EV_2422 carries 0 (DESIGN CHOICE, log entry 9). -/
def waitTimeout (since : Lane → Option Nat) (w : Where) (lane : Nat) (d : Dev) : Dev :=
  match findGroup d w with
  | none => d
  | some (b, g) =>
    let l := g.lanes.getD lane (Lane.fresh 0 8)
    match since l with
    | none => d
    | some t =>
      if t + rd d OD.barrierLimit < d.tick
      then groupFault w ST.timeout (l.pc - 8) [lane] (raise (cdPort (b.core / 512)) 0x2422 b.core 0 [] d)
      else d

def execBarrierTimeout (w : Where) (lane : Nat) (s : State) : Out := onDev (waitTimeout barrierSince w lane) s
def execCounterWaitTimeout (w : Where) (lane : Nat) (s : State) : Out := onDev (waitTimeout counterSince w lane) s

/-! ## Shuffles and votes -/

/-- SHFL: a source out of range, or not executing, leaves the lane its own value and clears the predicate (R88). -/
def execShfl (w : Where) (f : Fields) (s : State) : Out :=
  onDev (runLanes w f 9 0x00 (fun x i l =>
    let b := if f.srcB = 0xFF then f.immFld 4 0 else (l.reg f.srcB).toNat
    match shflSource (f.immFld 15 14) (2 ^ f.immFld 13 11) i b with
    | some j =>
      if x.act.contains j then (l.setReg f.dst ((x.lane j).reg f.srcA)).setPred (f.immFld 10 8) true
      else (l.setReg f.dst (l.reg f.srcA)).setPred (f.immFld 10 8) false
    | none => (l.setReg f.dst (l.reg f.srcA)).setPred (f.immFld 10 8) false)) s

/-- ANY, ALL, UNI: the predicate IMM[10:8] of every voting lane. -/
def voteOp (w : Where) (f : Fields) (op : Nat) : Dev → Dev :=
  runLanes w f 0xA op (fun x _ l =>
    l.setPred (f.immFld 10 8) (voteBit op (x.act.map (fun i => (x.lane i).reg f.srcA))))

def execAny (w : Where) (f : Fields) (s : State) : Out := onDev (voteOp w f 0) s
def execAll (w : Where) (f : Fields) (s : State) : Out := onDev (voteOp w f 1) s
def execUni (w : Where) (f : Fields) (s : State) : Out := onDev (voteOp w f 2) s

def execBallot (w : Where) (f : Fields) (s : State) : Out :=
  onDev (runLanes w f 0xA 0x03 (fun x _ l =>
    l.setReg f.dst (voteMask x.act (fun i => (x.lane i).reg f.srcA) (fun v => v != 0)))) s

def execMatchVote (w : Where) (f : Fields) (s : State) : Out :=
  onDev (runLanes w f 0xA 0x04 (fun x _ l =>
    l.setReg f.dst (voteMask x.act (fun i => (x.lane i).reg f.srcA) (fun v => v == l.reg f.srcA)))) s

end Sys2Proof.Machine
end

