-- ==== Sys2Proof/Machine/ThreadInt.lean ====
section
/-!
DEFINITION. The integer class (R76, R77). Operand B is a register, a register pair, or the immediate sign-extended to the
width of the type.
-/

namespace Sys2Proof.Machine

/-- Width in bits of the integer type. -/
def iwidth (f : Fields) : Nat := 32 * f.iregs

/-- Operand B of the integer class. -/
def intB (f : Fields) (l : Lane) : Nat :=
  if f.bimm then wrapInt (iwidth f) (sext 12 (f.immFld 11 0)) else l.wide f.srcB f.iregs

/-- An integer operation of three operands: each executing lane writes DST. -/
def intOp (w : Where) (f : Fields) (op : Nat) (g : Nat → Nat → Nat → Nat → Nat) : Dev → Dev :=
  runLanes w f 0 op (fun _ _ l =>
    l.setWide f.dst f.iregs (g (iwidth f) (l.wide f.srcA f.iregs) (intB f l) (l.wide f.srcC f.iregs)))

/-- The shift amount: the low 32 bits of operand B. -/
def shiftAmount (b : Nat) : Nat := b % 2 ^ 32

/-- SHL, SHR: an amount at or above the width gives zero. -/
def shiftLeft (n a b : Nat) : Nat := if n ≤ shiftAmount b then 0 else a * 2 ^ shiftAmount b % 2 ^ n
def shiftRight (n a b : Nat) : Nat := if n ≤ shiftAmount b then 0 else a / 2 ^ shiftAmount b

/-- SAR: the sign bit fills. -/
def shiftArith (n a b : Nat) : Nat := wrapInt n (sext n a / 2 ^ Nat.min (shiftAmount b) n)

/-- Number of ones of an n-bit number. -/
def popCount (n a : Nat) : Nat := ((List.range n).filter (fun i => a.testBit i)).length

/-- Number of zeros above the highest one of an n-bit number; n for zero. -/
def leadingZeros (n a : Nat) : Nat := if a = 0 then n else n - 1 - Nat.log2 a

/-- The high half of the full product, as numbers of the type. -/
def mulHigh (ty n a b : Nat) : Nat := wrapInt n (intVal ty n a * intVal ty n b / 2 ^ n)

def intMin (ty n a b : Nat) : Nat := if intVal ty n b < intVal ty n a then b else a
def intMax (ty n a b : Nat) : Nat := if intVal ty n a < intVal ty n b then b else a

/-- Bits of a number inverted at a width. -/
def intNot (n a : Nat) : Nat := 2 ^ n - 1 - a % 2 ^ n

def execAdd (w : Where) (f : Fields) (s : State) : Out := onDev (intOp w f 0x00 (fun n a b _ => (a + b) % 2 ^ n)) s
def execSub (w : Where) (f : Fields) (s : State) : Out :=
  onDev (intOp w f 0x01 (fun n a b _ => wrapInt n ((a : Int) - b))) s
def execMulLo (w : Where) (f : Fields) (s : State) : Out := onDev (intOp w f 0x02 (fun n a b _ => a * b % 2 ^ n)) s
def execMulHi (w : Where) (f : Fields) (s : State) : Out := onDev (intOp w f 0x03 (fun n a b _ => mulHigh f.ity n a b)) s
/-- A times B plus C. -/
def execMad (w : Where) (f : Fields) (s : State) : Out := onDev (intOp w f 0x04 (fun n a b c => (a * b + c) % 2 ^ n)) s
def execMin (w : Where) (f : Fields) (s : State) : Out := onDev (intOp w f 0x05 (fun n a b _ => intMin f.ity n a b)) s
def execMax (w : Where) (f : Fields) (s : State) : Out := onDev (intOp w f 0x06 (fun n a b _ => intMax f.ity n a b)) s
def execAnd (w : Where) (f : Fields) (s : State) : Out := onDev (intOp w f 0x07 (fun _ a b _ => Nat.land a b)) s
def execOr (w : Where) (f : Fields) (s : State) : Out := onDev (intOp w f 0x08 (fun _ a b _ => Nat.lor a b)) s
def execXor (w : Where) (f : Fields) (s : State) : Out := onDev (intOp w f 0x09 (fun _ a b _ => Nat.xor a b)) s
def execNot (w : Where) (f : Fields) (s : State) : Out := onDev (intOp w f 0x0A (fun n a _ _ => intNot n a)) s
def execShl (w : Where) (f : Fields) (s : State) : Out := onDev (intOp w f 0x0B (fun n a b _ => shiftLeft n a b)) s
def execShr (w : Where) (f : Fields) (s : State) : Out := onDev (intOp w f 0x0C (fun n a b _ => shiftRight n a b)) s
def execSar (w : Where) (f : Fields) (s : State) : Out := onDev (intOp w f 0x0D (fun n a b _ => shiftArith n a b)) s
/-- POPC and CLZ count within the width of the type, and write a count as a value of that type: of a 64-bit type a register
pair; CLZ of zero gives the width (DESIGN CHOICE, log entry 109: the manual defines neither). -/
def execPopc (w : Where) (f : Fields) (s : State) : Out := onDev (intOp w f 0x0E (fun n a _ _ => popCount n a)) s
/-- CLZ: see `execPopc`. -/
def execClz (w : Where) (f : Fields) (s : State) : Out := onDev (intOp w f 0x0F (fun n a _ _ => leadingZeros n a)) s

/-- SETP writes the predicate IMM[10:8] with the comparison IMM[7:5] of A and B. -/
def execSetp (w : Where) (f : Fields) (s : State) : Out :=
  onDev (runLanes w f 0 0x10 (fun _ _ l =>
    l.setPred (f.immFld 10 8)
      (cmpInt (f.immFld 7 5) f.ity (iwidth f) (l.wide f.srcA f.iregs) (l.wide f.srcB f.iregs)))) s

/-- An operation of the class whose result the manual does not give (R76; log entry 2). -/
def openOp (w : Where) (f : Fields) (op : Nat) (g : Nat → Nat → Nat → Nat → Nat → Nat) : Dev → Dev :=
  runLanes w f 0 op (fun _ _ l =>
    l.setWide f.dst f.iregs (g (l.wide f.srcA f.iregs) (intB f l) (l.wide f.srcC f.iregs) f.imm.toNat l.predBits
      % 2 ^ iwidth f))

def execSel (w : Where) (f : Fields) (s : State) : Out := onDev (openOp w f 0x11 Config.sel) s
def execBfe (w : Where) (f : Fields) (s : State) : Out := onDev (openOp w f 0x12 Config.bfe) s
def execBfi (w : Where) (f : Fields) (s : State) : Out := onDev (openOp w f 0x13 Config.bfi) s

end Sys2Proof.Machine
end

