-- ==== Sys2Proof/Machine/Dispatch.lean ====
section
/-!
DEFINITION. The effect of each command: one arm per command, one call of its meaning.
-/

namespace Sys2Proof.Machine

def exec (i : Instr) (s : State) : Host.Outcome State Fault Refusal :=
  match i with
  | .supplySetpointWrite p mv => Sys2Proof.Machine.execSupplySetpointWrite p mv s
  | .setpointRamp delta => Sys2Proof.Machine.execSetpointRamp delta s
  | .monitorWindow readings => Sys2Proof.Machine.execMonitorWindow readings s
  | .packetPublish port trace => Sys2Proof.Machine.execPacketPublish port trace s
  | .tick => Sys2Proof.Machine.execTick s
  | .launch addr mb => Sys2Proof.Machine.execLaunch addr mb s
  | .blockStart grid core => Sys2Proof.Machine.execBlockStart grid core s
  | .gridComplete grid => Sys2Proof.Machine.execGridComplete grid s
  | .illegalInstruction w inst => Sys2Proof.Machine.execIllegalInstruction w inst s
  | .add w f => Sys2Proof.Machine.execAdd w f s
  | .sub w f => Sys2Proof.Machine.execSub w f s
  | .mulLo w f => Sys2Proof.Machine.execMulLo w f s
  | .mulHi w f => Sys2Proof.Machine.execMulHi w f s
  | .mad w f => Sys2Proof.Machine.execMad w f s
  | .min w f => Sys2Proof.Machine.execMin w f s
  | .max w f => Sys2Proof.Machine.execMax w f s
  | .and w f => Sys2Proof.Machine.execAnd w f s
  | .or w f => Sys2Proof.Machine.execOr w f s
  | .xor w f => Sys2Proof.Machine.execXor w f s
  | .not w f => Sys2Proof.Machine.execNot w f s
  | .shl w f => Sys2Proof.Machine.execShl w f s
  | .shr w f => Sys2Proof.Machine.execShr w f s
  | .sar w f => Sys2Proof.Machine.execSar w f s
  | .popc w f => Sys2Proof.Machine.execPopc w f s
  | .clz w f => Sys2Proof.Machine.execClz w f s
  | .setp w f => Sys2Proof.Machine.execSetp w f s
  | .sel w f => Sys2Proof.Machine.execSel w f s
  | .bfe w f => Sys2Proof.Machine.execBfe w f s
  | .bfi w f => Sys2Proof.Machine.execBfi w f s
  | .fadd w f => Sys2Proof.Machine.execFadd w f s
  | .fsub w f => Sys2Proof.Machine.execFsub w f s
  | .fmul w f => Sys2Proof.Machine.execFmul w f s
  | .ffma w f => Sys2Proof.Machine.execFfma w f s
  | .fmin w f => Sys2Proof.Machine.execFmin w f s
  | .fmax w f => Sys2Proof.Machine.execFmax w f s
  | .fabs w f => Sys2Proof.Machine.execFabs w f s
  | .fneg w f => Sys2Proof.Machine.execFneg w f s
  | .fsetp w f => Sys2Proof.Machine.execFsetp w f s
  | .cvt w f => Sys2Proof.Machine.execCvt w f s
  | .rcp w f => Sys2Proof.Machine.execRcp w f s
  | .rsq w f => Sys2Proof.Machine.execRsq w f s
  | .ex2 w f => Sys2Proof.Machine.execEx2 w f s
  | .lg2 w f => Sys2Proof.Machine.execLg2 w f s
  | .sin w f => Sys2Proof.Machine.execSin w f s
  | .cos w f => Sys2Proof.Machine.execCos w f s
  | .mov w f => Sys2Proof.Machine.execMov w f s
  | .movi w f => Sys2Proof.Machine.execMovi w f s
  | .sreg w f => Sys2Proof.Machine.execSreg w f s
  | .pmov w f => Sys2Proof.Machine.execPmov w f s
  | .lds w f => Sys2Proof.Machine.execLds w f s
  | .sts w f => Sys2Proof.Machine.execSts w f s
  | .ld w f => Sys2Proof.Machine.execLd w f s
  | .st w f => Sys2Proof.Machine.execSt w f s
  | .atoms w f => Sys2Proof.Machine.execAtoms w f s
  | .atom w f => Sys2Proof.Machine.execAtom w f s
  | .fenceAcquire w f => Sys2Proof.Machine.execFenceAcquire w f s
  | .fenceRelease w f => Sys2Proof.Machine.execFenceRelease w f s
  | .fenceBoth w f => Sys2Proof.Machine.execFenceBoth w f s
  | .fenceComplete w => Sys2Proof.Machine.execFenceComplete w s
  | .bra w f => Sys2Proof.Machine.execBra w f s
  | .brx w f => Sys2Proof.Machine.execBrx w f s
  | .call w f => Sys2Proof.Machine.execCall w f s
  | .ret w f => Sys2Proof.Machine.execRet w f s
  | .exitLane w f => Sys2Proof.Machine.execExitLane w f s
  | .yieldIssue w f => Sys2Proof.Machine.execYieldIssue w f s
  | .nop w f => Sys2Proof.Machine.execNop w f s
  | .barGroup w f => Sys2Proof.Machine.execBarGroup w f s
  | .barBlock w f => Sys2Proof.Machine.execBarBlock w f s
  | .barrierTimeout w lane => Sys2Proof.Machine.execBarrierTimeout w lane s
  | .shfl w f => Sys2Proof.Machine.execShfl w f s
  | .any w f => Sys2Proof.Machine.execAny w f s
  | .all w f => Sys2Proof.Machine.execAll w f s
  | .uni w f => Sys2Proof.Machine.execUni w f s
  | .ballot w f => Sys2Proof.Machine.execBallot w f s
  | .matchVote w f => Sys2Proof.Machine.execMatchVote w f s
  | .mxi w f => Sys2Proof.Machine.execMxi w f s
  | .chi w f => Sys2Proof.Machine.execChi w f s
  | .fxi w f => Sys2Proof.Machine.execFxi w f s
  | .waitc w f => Sys2Proof.Machine.execWaitc w f s
  | .waita w f => Sys2Proof.Machine.execWaita w f s
  | .counterWaitTimeout w lane => Sys2Proof.Machine.execCounterWaitTimeout w lane s
  | .storeAck w ix status => Sys2Proof.Machine.execStoreAck w ix status s
  | .matrixOpStart cluster skate checkFailed => Sys2Proof.Machine.execMatrixOpStart cluster skate checkFailed s
  | .matrixOpComplete cluster skate => Sys2Proof.Machine.execMatrixOpComplete cluster skate s
  | .matrixReadPoison cluster skate => Sys2Proof.Machine.execMatrixReadPoison cluster skate s
  | .tileCheck cluster skate => Sys2Proof.Machine.execTileCheck cluster skate s
  | .chainOpStart core checkFailed => Sys2Proof.Machine.execChainOpStart core checkFailed s
  | .chainOpComplete core => Sys2Proof.Machine.execChainOpComplete core s
  | .chainReadPoison core => Sys2Proof.Machine.execChainReadPoison core s
  | .layerGridsEnd => Sys2Proof.Machine.execLayerGridsEnd s
  | .hbmRead addr errs onDie => Sys2Proof.Machine.execHbmRead addr errs onDie s
  | .llcEccError addr way kind => Sys2Proof.Machine.execLlcEccError addr way kind s
  | .scrubGranule reads => Sys2Proof.Machine.execScrubGranule reads s
  | .granuleRetireDone granule => Sys2Proof.Machine.execGranuleRetireDone granule s
  | .dieLoss stack die portSilent => Sys2Proof.Machine.execDieLoss stack die portSilent s
  | .dieRehomeDone => Sys2Proof.Machine.execDieRehomeDone s
  | .prefetchFill core line => Sys2Proof.Machine.execPrefetchFill core line s
  | .accAddI32 addr operand => Sys2Proof.Machine.execAccAddI32 addr operand s
  | .accAddI64 addr operand => Sys2Proof.Machine.execAccAddI64 addr operand s
  | .accAddF32 addr operand => Sys2Proof.Machine.execAccAddF32 addr operand s
  | .accAddBf16 addr operand => Sys2Proof.Machine.execAccAddBf16 addr operand s
  | .accAddFp16 addr operand => Sys2Proof.Machine.execAccAddFp16 addr operand s
  | .accMaxF32 addr operand => Sys2Proof.Machine.execAccMaxF32 addr operand s
  | .accMinF32 addr operand => Sys2Proof.Machine.execAccMinF32 addr operand s
  | .combineWriteback line needed => Sys2Proof.Machine.execCombineWriteback line needed s
  | .cxlTimeout port => Sys2Proof.Machine.execCxlTimeout port s
  | .cxlRetrain port trained expander rate width => Sys2Proof.Machine.execCxlRetrain port trained expander rate width s
  | .cxlFailTime port => Sys2Proof.Machine.execCxlFailTime port s
  | .deviceNumberWrite p n => Sys2Proof.Machine.execDeviceNumberWrite p n s
  | .create p ctx reserved => Sys2Proof.Machine.execCreate p ctx reserved s
  | .teardown p ctx reserved => Sys2Proof.Machine.execTeardown p ctx reserved s
  | .localRegionWrite p ctx slot w1 w2 reserved => Sys2Proof.Machine.execLocalRegionWrite p ctx slot w1 w2 reserved s
  | .insert p e0 e1 reserved => Sys2Proof.Machine.execInsert p e0 e1 reserved s
  | .remove p e0 e1 reserved => Sys2Proof.Machine.execRemove p e0 e1 reserved s
  | .setrights p e0 e1 reserved => Sys2Proof.Machine.execSetrights p e0 e1 reserved s
  | .removeContext p ctx reserved => Sys2Proof.Machine.execRemoveContext p ctx reserved s
  | .fttBulkInsert p entries => Sys2Proof.Machine.execFttBulkInsert p entries s
  | .fttCommandDone => Sys2Proof.Machine.execFttCommandDone s
  | .doorbellPost a core queue ctx desc => Sys2Proof.Machine.execDoorbellPost a core queue ctx desc s
  | .doorbellStatusRead a core queue ctx => Sys2Proof.Machine.execDoorbellStatusRead a core queue ctx s
  | .store op => Sys2Proof.Machine.execStore op s
  | .flaggedStore op => Sys2Proof.Machine.execFlaggedStore op s
  | .atomic op => Sys2Proof.Machine.execAtomic op s
  | .accum op => Sys2Proof.Machine.execAccum op s
  | .copy op => Sys2Proof.Machine.execCopy op s
  | .fabricOpIssue core queue => Sys2Proof.Machine.execFabricOpIssue core queue s
  | .packetSend op pkt => Sys2Proof.Machine.execPacketSend op pkt s
  | .requestArrival p waiting => Sys2Proof.Machine.execRequestArrival p waiting s
  | .responseArrival r => Sys2Proof.Machine.execResponseArrival r s
  | .fabricOpComplete op => Sys2Proof.Machine.execFabricOpComplete op s
  | .planePortChange plane dev up => Sys2Proof.Machine.execPlanePortChange plane dev up s
  | .hotHoldExpiry dev line => Sys2Proof.Machine.execHotHoldExpiry dev line s
  | .packetAgeDiscard port place => Sys2Proof.Machine.execPacketAgeDiscard port place s
  | .replayEntryExpiry src slot seq => Sys2Proof.Machine.execReplayEntryExpiry src slot seq s
  | .busyResend op pkt => Sys2Proof.Machine.execBusyResend op pkt s
  | .txTimeout op pkt => Sys2Proof.Machine.execTxTimeout op pkt s
  | .lostCompletion op pkt => Sys2Proof.Machine.execLostCompletion op pkt s
  | .drainEnd ctx => Sys2Proof.Machine.execDrainEnd ctx s
  | .quietEnd ctx => Sys2Proof.Machine.execQuietEnd ctx s
  | .p1OrderHoldExpiry src => Sys2Proof.Machine.execP1OrderHoldExpiry src s
  | .topologyWrite p index sub value => Sys2Proof.Machine.execTopologyWrite p index sub value s
  | .flitReceive port lanes01 lanes23 spare => Sys2Proof.Machine.execFlitReceive port lanes01 lanes23 spare s
  | .nak port seq => Sys2Proof.Machine.execNak port seq s
  | .ackTimeout port => Sys2Proof.Machine.execAckTimeout port s
  | .linkGiveUp port => Sys2Proof.Machine.execLinkGiveUp port s
  | .laneDegrade port lane beyond => Sys2Proof.Machine.execLaneDegrade port lane beyond s
  | .laneMove port lane pair => Sys2Proof.Machine.execLaneMove port lane pair s
  | .laneFail port lane => Sys2Proof.Machine.execLaneFail port lane s
  | .retrain port => Sys2Proof.Machine.execRetrain port s
  | .portOutage port => Sys2Proof.Machine.execPortOutage port s
  | .outageHoldExpiry port relocked => Sys2Proof.Machine.execOutageHoldExpiry port relocked s
  | .laserInputLow engine held => Sys2Proof.Machine.execLaserInputLow engine held s
  | .portTraining port peer nonce => Sys2Proof.Machine.execPortTraining port peer nonce s
  | .trainingRetry port => Sys2Proof.Machine.execTrainingRetry port s
  | .hostBar0Access edge offset size write => Sys2Proof.Machine.execHostBar0Access edge offset size write s
  | .hostBar2Access edge offset size write => Sys2Proof.Machine.execHostBar2Access edge offset size write s
  | .hostReadComplete op => Sys2Proof.Machine.execHostReadComplete op s
  | .run op => Sys2Proof.Machine.execRun op s
  | .slot8L addr operand => Sys2Proof.Machine.execSlot8L addr operand s
  | .slot8R addr operand => Sys2Proof.Machine.execSlot8R addr operand s
  | .slot16L addr operand => Sys2Proof.Machine.execSlot16L addr operand s
  | .slot16R addr operand => Sys2Proof.Machine.execSlot16R addr operand s
  | .slot32L addr operand => Sys2Proof.Machine.execSlot32L addr operand s
  | .slot32R addr operand => Sys2Proof.Machine.execSlot32R addr operand s
  | .antlerUpChunk op tree => Sys2Proof.Machine.execAntlerUpChunk op tree s
  | .antlerDownChunk op tree => Sys2Proof.Machine.execAntlerDownChunk op tree s
  | .markList op tree => Sys2Proof.Machine.execMarkList op tree s
  | .repairPass op tree => Sys2Proof.Machine.execRepairPass op tree s
  | .runComplete op => Sys2Proof.Machine.execRunComplete op s
  | .antlerWaitTimeout op => Sys2Proof.Machine.execAntlerWaitTimeout op s
  | .load p table reserved => Sys2Proof.Machine.execLoad p table reserved s
  | .start p count reserved => Sys2Proof.Machine.execStart p count reserved s
  | .stop p reserved => Sys2Proof.Machine.execStop p reserved s
  | .unload p reserved => Sys2Proof.Machine.execUnload p reserved s
  | .stepOpen => Sys2Proof.Machine.execStepOpen s
  | .launchItem item => Sys2Proof.Machine.execLaunchItem item s
  | .postItem item => Sys2Proof.Machine.execPostItem item s
  | .waitItem item => Sys2Proof.Machine.execWaitItem item s
  | .layerItem item => Sys2Proof.Machine.execLayerItem item s
  | .lowrankItem item => Sys2Proof.Machine.execLowrankItem item s
  | .pipelineUnit => Sys2Proof.Machine.execPipelineUnit s
  | .gateVote => Sys2Proof.Machine.execGateVote s
  | .voteReceive fromRoot rank v => Sys2Proof.Machine.execVoteReceive fromRoot rank v s
  | .heritageVote rank w => Sys2Proof.Machine.execHeritageVote rank w s
  | .verdictApply => Sys2Proof.Machine.execVerdictApply s
  | .gateWaitExpiry => Sys2Proof.Machine.execGateWaitExpiry s
  | .serviceFailover sq => Sys2Proof.Machine.execServiceFailover sq s
  | .admitGroup p group n rank list reserved => Sys2Proof.Machine.execAdmitGroup p group n rank list reserved s
  | .admissionDone group digests => Sys2Proof.Machine.execAdmissionDone group digests s
  | .release p group reserved => Sys2Proof.Machine.execRelease p group reserved s
  | .configure p table count reserved => Sys2Proof.Machine.execConfigure p table count reserved s
  | .partner p dev override reserved => Sys2Proof.Machine.execPartner p dev override reserved s
  | .partnerTimeout => Sys2Proof.Machine.execPartnerTimeout s
  | .unpair p reserved => Sys2Proof.Machine.execUnpair p reserved s
  | .refresh p reserved => Sys2Proof.Machine.execRefresh p reserved s
  | .restore p fromMemory arg1 arg2 held reserved => Sys2Proof.Machine.execRestore p fromMemory arg1 arg2 held reserved s
  | .restoreRouting => Sys2Proof.Machine.execRestoreRouting s
  | .restorePosition => Sys2Proof.Machine.execRestorePosition s
  | .restoreTensors => Sys2Proof.Machine.execRestoreTensors s
  | .takeover p dev reserved => Sys2Proof.Machine.execTakeover p dev reserved s
  | .copyChunkReceive head ix chunk => Sys2Proof.Machine.execCopyChunkReceive head ix chunk s
  | .copyRequest => Sys2Proof.Machine.execCopyRequest s
  | .sealReport rank step failed => Sys2Proof.Machine.execSealReport rank step failed s
  | .jobSealNotice step failed => Sys2Proof.Machine.execJobSealNotice step failed s
  | .refetch line fetched => Sys2Proof.Machine.execRefetch line fetched s
  | .refetchNotice step => Sys2Proof.Machine.execRefetchNotice step s
  | .probeTimeout => Sys2Proof.Machine.execProbeTimeout s
  | .spareClaim answers sealedSteps => Sys2Proof.Machine.execSpareClaim answers sealedSteps s
  | .takeoverNotice lost spare target => Sys2Proof.Machine.execTakeoverNotice lost spare target s
  | .engineHang engine => Sys2Proof.Machine.execEngineHang engine s
  | .heartbeatMissed sq => Sys2Proof.Machine.execHeartbeatMissed sq s
  | .engineResetDone engine => Sys2Proof.Machine.execEngineResetDone engine s
  | .resetEscalation engine => Sys2Proof.Machine.execResetEscalation engine s
  | .clusterMoveDone cluster spareTests unreadable => Sys2Proof.Machine.execClusterMoveDone cluster spareTests unreadable s
  | .kickTurnDone failedClusters => Sys2Proof.Machine.execKickTurnDone failedClusters s
  | .fullRestartDone => Sys2Proof.Machine.execFullRestartDone s
  | .fenceDrainExpiry => Sys2Proof.Machine.execFenceDrainExpiry s
  | .engineReset p engine reserved => Sys2Proof.Machine.execEngineReset p engine reserved s
  | .clusterMove p cluster reserved => Sys2Proof.Machine.execClusterMove p cluster reserved s
  | .kickTurn p reserved => Sys2Proof.Machine.execKickTurn p reserved s
  | .fullRestart p reserved => Sys2Proof.Machine.execFullRestart p reserved s
  | .powerPhaseFault die => Sys2Proof.Machine.execPowerPhaseFault die s
  | .lockstepMismatch mc0 mc1 => Sys2Proof.Machine.execLockstepMismatch mc0 mc1 s
  | .simplexSelfTest pass => Sys2Proof.Machine.execSimplexSelfTest pass s
  | .managementWatchdog mc0 mc1 => Sys2Proof.Machine.execManagementWatchdog mc0 mc1 s
  | .sensorSample kind readings badSensors => Sys2Proof.Machine.execSensorSample kind readings badSensors s
  | .logEntry source => Sys2Proof.Machine.execLogEntry source s
  | .logReadCursorWrite p seq => Sys2Proof.Machine.execLogReadCursorWrite p seq s
  | .logReadData p offset count => Sys2Proof.Machine.execLogReadData p offset count s
  | .hello mailbox slot nonce encapKey => Sys2Proof.Machine.execHello mailbox slot nonce encapKey s
  | .finish mailbox hs signature tag => Sys2Proof.Machine.execFinish mailbox hs signature tag s
  | .handshakeTimeout hs => Sys2Proof.Machine.execHandshakeTimeout hs s
  | .close session => Sys2Proof.Machine.execClose session s
  | .sessionIdleExpiry session => Sys2Proof.Machine.execSessionIdleExpiry session s
  | .tagFailure session => Sys2Proof.Machine.execTagFailure session s
  | .fragmentTimeout session seq => Sys2Proof.Machine.execFragmentTimeout session seq s
  | .read p index sub offset count reserved => Sys2Proof.Machine.execRead p index sub offset count reserved s
  | .write p index sub offset more reserved value => Sys2Proof.Machine.execWrite p index sub offset more reserved value s
  | .describe p index sub reserved => Sys2Proof.Machine.execDescribe p index sub reserved s
  | .subscribe p severity reserved => Sys2Proof.Machine.execSubscribe p severity reserved s
  | .slotDoorbell slot sequencer seq => Sys2Proof.Machine.execSlotDoorbell slot sequencer seq s
  | .mailboxDoorbell len frame => Sys2Proof.Machine.execMailboxDoorbell len frame s
  | .begin p len reserved => Sys2Proof.Machine.execBegin p len reserved s
  | .eraseDone => Sys2Proof.Machine.execEraseDone s
  | .updateDataWrite p offset value => Sys2Proof.Machine.execUpdateDataWrite p offset value s
  | .verify p reserved => Sys2Proof.Machine.execVerify p reserved s
  | .verifyDone image => Sys2Proof.Machine.execVerifyDone image s
  | .activate p now reserved => Sys2Proof.Machine.execActivate p now reserved s
  | .confirm p reserved => Sys2Proof.Machine.execConfirm p reserved s
  | .abort p reserved => Sys2Proof.Machine.execAbort p reserved s
  | .hivanRestart p reserved => Sys2Proof.Machine.execHivanRestart p reserved s
  | .trialRollback => Sys2Proof.Machine.execTrialRollback s
  | .ownerRecordInstall p record => Sys2Proof.Machine.execOwnerRecordInstall p record s
  | .attestNonceWrite p nonce => Sys2Proof.Machine.execAttestNonceWrite p nonce s
  | .attestReportRead p offset count => Sys2Proof.Machine.execAttestReportRead p offset count s
  | .tamperTrip sensor tripped => Sys2Proof.Machine.execTamperTrip sensor tripped s
  | .tamperSelfTest sensor pass => Sys2Proof.Machine.execTamperSelfTest sensor pass s
  | .clear p reserved => Sys2Proof.Machine.execClear p reserved s
  | .unlock p reserved => Sys2Proof.Machine.execUnlock p reserved s
  | .reprovision serial trips signature newResponse certificate => Sys2Proof.Machine.execReprovision serial trips signature newResponse certificate s
  | .input48VRange volts heldUs => Sys2Proof.Machine.execInput48VRange volts heldUs s
  | .input12VRange volts heldUs => Sys2Proof.Machine.execInput12VRange volts heldUs s
  | .powerLimitWindow meanPower => Sys2Proof.Machine.execPowerLimitWindow meanPower s
  | .governorWindow current demand ballast => Sys2Proof.Machine.execGovernorWindow current demand ballast s
  | .discharge volts heldUs => Sys2Proof.Machine.execDischarge volts heldUs s
  | .thermalLimit => Sys2Proof.Machine.execThermalLimit s
  | .pwrEnAssert sinkCurrent => Sys2Proof.Machine.execPwrEnAssert sinkCurrent s
  | .pwrEnRelease => Sys2Proof.Machine.execPwrEnRelease s
  | .powerCycleRequest => Sys2Proof.Machine.execPowerCycleRequest s
  | .serviceInterfaceFrame f => Sys2Proof.Machine.execServiceInterfaceFrame f s
  | .hivanStart response slotId mc => Sys2Proof.Machine.execHivanStart response slotId mc s
  | .functionStart f => Sys2Proof.Machine.execFunctionStart f s
  | .functionReady f failed tests => Sys2Proof.Machine.execFunctionReady f failed tests s
  | .hbmInitialised => Sys2Proof.Machine.execHbmInitialised s
  | .installationWrite p index sub value => Sys2Proof.Machine.execInstallationWrite p index sub value s
  | .registerWrite p index sub value => Sys2Proof.Machine.execRegisterWrite p index sub value s
  | .edgeLinkStateChange edge state rateWidth d3hot => Sys2Proof.Machine.execEdgeLinkStateChange edge state rateWidth d3hot s
  | .fundamentalReset edge asserted => Sys2Proof.Machine.execFundamentalReset edge asserted s
  | .flitTransmit port => Sys2Proof.Machine.execFlitTransmit port s
  | .restartRetxPeriodEnd => Sys2Proof.Machine.execRestartRetxPeriodEnd s
  | .managementCoreError pass => Sys2Proof.Machine.execManagementCoreError pass s
  | .plcaStatusChange up => Sys2Proof.Machine.execPlcaStatusChange up s
  | .icmpv6EchoRequest dst payload => Sys2Proof.Machine.execIcmpv6EchoRequest dst payload s
  | .neighbourSolicitation target => Sys2Proof.Machine.execNeighbourSolicitation target s
  | .helperDataErased => Sys2Proof.Machine.execHelperDataErased s
  | .powerDownComplete => Sys2Proof.Machine.execPowerDownComplete s
  | .sealAcknowledgement step => Sys2Proof.Machine.execSealAcknowledgement step s
  | .partnerProposalReceived dev override feed imageBytes storeFits => Sys2Proof.Machine.execPartnerProposalReceived dev override feed imageBytes storeFits s

end Sys2Proof.Machine
end

