-- ==== Sys2Proof/Safety.lean ====
section
/-!
DEFINITION. The terms in which statements are made: a device on which no write waits, what it is for a command to complete,
the issue of a thread instruction, and what one lane, block or object of the device holds.
-/

namespace Sys2Proof.Machine

/-- No write of the open step waits for the job seal notice (R482), and no access is being held (R434). -/
structure Calm (s : State) : Prop where
  holds : s.m.ckpt.holds = false
  reached : s.m.seq.reached = false

/-- An access to a range is not held: the sequencer is not COMMITTING, or no line of the range is shadowed (R434). -/
def Unheld (d : Dev) (a n : Nat) : Prop := d.seq.st ≠ .committing ∨ ∀ l ∈ linesOf a n, shadowOf d (64 * l) = none

/-- An access to a range is held: it reaches a shadowed line while the sequencer is COMMITTING (R434). -/
def Held (d : Dev) (a n : Nat) : Prop := d.seq.st = .committing ∧ ∃ l ∈ linesOf a n, shadowOf d (64 * l) ≠ none

/-- No access to memory is held, and the LLC is settled, so that an eviction changes no byte (R258, R434). -/
structure MemoryOpen (d : Dev) : Prop where
  admits : d.seq.st ≠ .committing ∨ d.seq.regions = []
  settled : d.mem.settled = true

/-- The command answers a next state: the log and the queue are as they were, and the device has a property. -/
def Completes (c : Instr) (s : State) (P : Dev → Prop) : Prop := ∃ d, exec c s = .next { s with m := d } ∧ P d

/-- The command answers a next state in which only the device may differ, and it is this one. -/
def Becomes (c : Instr) (s : State) (d : Dev) : Prop := exec c s = .next { s with m := d }

/-! ## Threads -/

/-- A group issues an instruction with fields f: x says for which lanes and at which program counter. Its fetch is granted
(R82), its context is not fenced (R356), its encoding is legal for it (R74, R76), and none of its executing lanes waits for
an operand of its own (R71, R72). -/
structure Issues (s : State) (w : Where) (f : Fields) (cls op : Nat) (x : Issue) : Prop where
  calm : Calm s
  issue : issueOf s.m w f = some x
  fetch : fetchStatus s.m x.grid.ctx x.pc = ST.ok
  open_ : ctxRefusal s.m x.grid.ctx ≠ ST.fenced
  legal : opLegal cls op f (8 * x.grid.regs) = true
  due : operandsDue cls op f x = false

/-- A lane of a resident group. -/
def laneOf (d : Dev) (w : Where) (i : Nat) : Option Lane := (findGroup d w).bind (fun p => p.2.lanes[i]?)

/-- Only the lanes of group w and its issue count may differ: the rest of the device, every other group, and the counters,
shared memory and core of every block are as before. -/
structure LanesOnly (w : Where) (d d' : Dev) : Prop where
  rest : d' = { d with blocks := d'.blocks }
  blocks : ∀ g n, (findBlock d' g n).map (fun b => (b.core, b.cc, b.slm)) = (findBlock d g n).map (fun b => (b.core, b.cc, b.slm))
  groups : ∀ v, v ≠ w → (findGroup d' v).map Prod.snd = (findGroup d v).map Prod.snd

/-- Registers n of a lane from r up that a result of k registers written to r leaves alone (R74). -/
def Outside (r : BitVec 8) (k n : Nat) : Prop := r = 0xFF ∨ n < r.toNat ∨ r.toNat + k ≤ n

/-- What an instruction that writes k registers of each executing lane does to lane i (R74, R75): v is the result. -/
structure WritesRegs (f : Fields) (x : Issue) (k : Nat) (i : Nat) (l l' : Lane) (v : Nat) : Prop where
  pc : l'.pc = if i ∈ x.lanes then l.pc + 8 else l.pc
  preds : l'.preds = l.preds
  stack : l'.stack = l.stack
  runs : l'.st = l.st
  others : ∀ n : Nat, i ∉ x.act ∨ Outside f.dst k n → l'.regs[n]? = l.regs[n]?
  result : i ∈ x.act → f.dst.toNat + k ≤ Nat.min l.regs.length 255 → l'.wide f.dst k = v

/-- What an instruction that writes predicate p of each executing lane does to lane i: naming p7 discards (R65). -/
structure WritesPred (x : Issue) (p : Nat) (i : Nat) (l l' : Lane) (v : Bool) : Prop where
  pc : l'.pc = if i ∈ x.lanes then l.pc + 8 else l.pc
  regs : l'.regs = l.regs
  stack : l'.stack = l.stack
  runs : l'.st = l.st
  others : ∀ q : Nat, i ∉ x.act ∨ p = 7 ∨ q ≠ p → l'.preds[q]? = l.preds[q]?
  result : i ∈ x.act → p < Nat.min l.preds.length 7 → l'.preds[p]? = some v

/-- Every lane of group w that was there is there after the instruction, and stands to it as R says. -/
def EachLane (w : Where) (d d' : Dev) (R : Nat → Lane → Lane → Prop) : Prop :=
  ∀ i l, laneOf d w i = some l → ∃ l', laneOf d' w i = some l' ∧ R i l l'

/-- An instruction completes, changes only the lanes of its group, and each lane as R says. -/
def LaneResult (c : Instr) (s : State) (w : Where) (R : Nat → Lane → Lane → Prop) : Prop :=
  Completes c s (fun d => LanesOnly w s.m d ∧ EachLane w s.m d R)

/-- The lane of the issue moves on, and nothing else of it changes. -/
structure MovesOn (x : Issue) (i : Nat) (l l' : Lane) : Prop where
  pc : l'.pc = if i ∈ x.lanes then l.pc + 8 else l.pc
  regs : l'.regs = l.regs
  preds : l'.preds = l.preds
  stack : l'.stack = l.stack
  runs : l'.st = l.st

end Sys2Proof.Machine
end

