-- ==== Sys2Proof/Certificates/Slice0/Obligations.lean ====
section
/-!
DEFINITION. The statements for the provers, and the tables of rows that they range over. Each docstring names the rules of
spec/ that a statement formalises; what rests on the model's own choice names its log entry.
-/

open Sys2Proof Sys2Proof.Machine

namespace Sys2Proof.Claims

/-! ## Threads: integer, FP32, conversion and move classes (R73-R78, R181-R184) -/

/-- The type of the instruction is signed: I32 or I64 (R77). -/
def signedTy (f : Fields) : Bool := f.ity == 1 || f.ity == 3

/-- Operand B of the integer class at n bits: the immediate sign-extended, or the register or pair (R77). -/
def intOperandB (f : Fields) (l : Lane) (n : Nat) : BitVec n :=
  if bit f.imm 15 then (BitVec.ofNat 12 f.imm.toNat).signExtend n else BitVec.ofNat n (l.wide f.srcB f.iregs)

/-- A row of an operation table: command, OP, result from operands A, B and C. -/
structure IntRow where
  cmd : Instr
  op : Nat
  val : (n : Nat) → BitVec n → BitVec n → BitVec n → BitVec n

/-- The integer operations whose result the manual gives (R76, R77), on numbers of n bits. -/
def intRows (w : Where) (f : Fields) : List IntRow :=
  [⟨.add w f, 0x00, fun _ a b _ => a + b⟩, ⟨.sub w f, 0x01, fun _ a b _ => a - b⟩,
   ⟨.mulLo w f, 0x02, fun _ a b _ => a * b⟩,
   ⟨.mulHi w f, 0x03, fun n a b _ => if signedTy f then BitVec.ofInt n (a.toInt * b.toInt / 2 ^ n)
      else BitVec.ofNat n (a.toNat * b.toNat / 2 ^ n)⟩,
   ⟨.mad w f, 0x04, fun _ a b c => a * b + c⟩,
   ⟨.min w f, 0x05, fun _ a b _ => if (if signedTy f then b.slt a else b.ult a) then b else a⟩,
   ⟨.max w f, 0x06, fun _ a b _ => if (if signedTy f then a.slt b else a.ult b) then b else a⟩,
   ⟨.and w f, 0x07, fun _ a b _ => a &&& b⟩, ⟨.or w f, 0x08, fun _ a b _ => a ||| b⟩,
   ⟨.xor w f, 0x09, fun _ a b _ => a ^^^ b⟩, ⟨.not w f, 0x0A, fun _ a _ _ => ~~~a⟩,
   ⟨.shl w f, 0x0B, fun _ a b _ => a <<< (b.toNat % 2 ^ 32)⟩, ⟨.shr w f, 0x0C, fun _ a b _ => a >>> (b.toNat % 2 ^ 32)⟩,
   ⟨.sar w f, 0x0D, fun _ a b _ => a.sshiftRight (b.toNat % 2 ^ 32)⟩,
   ⟨.popc w f, 0x0E, fun n a _ _ => BitVec.ofNat n ((List.range n).countP a.getLsbD)⟩,
   ⟨.clz w f, 0x0F, fun n a _ _ => BitVec.ofNat n (if a = 0 then n else n - 1 - Nat.log2 a.toNat)⟩]

/-- A row of the FP32 class: command, OP, result. -/
structure FpRow where
  cmd : Instr
  op : Nat
  val : W32 → W32 → W32 → W32

/-- A result of the FP32 class: every NaN is the canonical one (R77). -/
def quieted (v : W32) : W32 := if (f32 v).isNan then 0x7FC00000 else v

/-- FP32 operations: the exact result rounded once to nearest even (R77). -/
def fpRows (w : Where) (f : Fields) : List FpRow :=
  [⟨.fadd w f, 0x00, fun a b _ => rne32 (vadd (f32 a) (f32 b))⟩,
   ⟨.fsub w f, 0x01, fun a b _ => rne32 (vadd (f32 a) (vneg (f32 b)))⟩,
   ⟨.fmul w f, 0x02, fun a b _ => rne32 (vmul (f32 a) (f32 b))⟩,
   ⟨.ffma w f, 0x03, fun a b c => rne32 (vadd (vmul (f32 a) (f32 b)) (f32 c))⟩,
   ⟨.fmin w f, 0x04, fun a b _ => fmin a b⟩, ⟨.fmax w f, 0x05, fun a b _ => fmax a b⟩,
   ⟨.fabs w f, 0x06, fun a _ _ => quieted (a &&& 0x7FFFFFFF)⟩, ⟨.fneg w f, 0x07, fun a _ _ => quieted (a ^^^ 0x80000000)⟩]

/-- Operand B of the FP32 class: the immediate converted exactly, or the register (R77). -/
def fpOperandB (f : Fields) (l : Lane) : W32 :=
  if bit f.imm 15 then f32OfInt (BitVec.ofNat 12 f.imm.toNat).toInt else l.reg f.srcB

end Sys2Proof.Claims

/-- R77, R76: each integer operation, on every lane that executes it, leaves in DST the result of its type's width from
operands A, B and C, wrapped; nothing else changes but the program counter of the lanes that issued. Every type, both
forms of operand B, and 0xFF as DST, which discards, are included. That POPC and CLZ of a 64-bit type write a pair, and that
CLZ of zero is the width, is the model's choice (log entry 109). -/
def Obligations.IntegerResults : Prop :=
  ∀ (w : Where) (f : Fields) (s : State) (x : Issue), ∀ r ∈ Claims.intRows w f, Issues s w f 0 r.op x →
    LaneResult r.cmd s w (fun i l l' => WritesRegs f x f.iregs i l l'
      (r.val (32 * f.iregs) (BitVec.ofNat _ (l.wide f.srcA f.iregs)) (Claims.intOperandB f l _)
        (BitVec.ofNat _ (l.wide f.srcC f.iregs))).toNat)

/-- R77: each FP32 operation leaves in DST its exact result rounded to nearest even, and the canonical NaN for every NaN. -/
def Sys2Proof.Claims.Fp32ResultsPart : Prop :=
  ∀ (w : Where) (f : Fields) (s : State) (x : Issue), ∀ r ∈ Claims.fpRows w f, Issues s w f 1 r.op x →
    LaneResult r.cmd s w (fun i l l' => WritesRegs f x 1 i l l'
      (r.val (l.reg f.srcA) (Claims.fpOperandB f l) (l.reg f.srcC)).toNat)

/-- R77: every NaN that an FP32 operation returns is 0x7FC00000, and FMIN and FMAX of a NaN are NaN and order -0 below +0. -/
def Sys2Proof.Claims.Fp32NanAndZeroOrderPart : Prop :=
  (∀ (w : Where) (f : Fields), ∀ r ∈ Claims.fpRows w f, ∀ a b c : W32,
    (f32 (r.val a b c)).isNan = true → r.val a b c = 0x7FC00000) ∧
  (∀ a b : W32, (f32 a).isNan = true ∨ (f32 b).isNan = true → fmin a b = 0x7FC00000 ∧ fmax a b = 0x7FC00000) ∧
  fmin 0x80000000 0 = 0x80000000 ∧ fmin 0 0x80000000 = 0x80000000 ∧ fmax 0x80000000 0 = 0 ∧ fmax 0 0x80000000 = 0

namespace Sys2Proof.Claims

/-- The comparisons of SETP on numbers of the type (R77). -/
def intCompare (c : Nat) (a b : Int) : Bool :=
  match c with
  | 0 => a == b | 1 => a != b | 2 => decide (a < b) | 3 => decide (a ≤ b) | 4 => decide (b < a) | 5 => decide (b ≤ a)
  | 6 => false | _ => true

/-- An operand of SETP as a number of its type. -/
def intNumber (f : Fields) (l : Lane) (r : BitVec 8) : Int :=
  if signedTy f then (BitVec.ofNat (32 * f.iregs) (l.wide r f.iregs)).toInt else l.wide r f.iregs

end Sys2Proof.Claims

/-- R77: SETP and FSETP write the predicate IMM[10:8] of each executing lane with the comparison IMM[7:5]. -/
def Obligations.ComparisonsWriteThePredicate : Prop :=
  ∀ (w : Where) (f : Fields) (s : State) (x : Issue),
    (Issues s w f 0 0x10 x → LaneResult (.setp w f) s w (fun i l l' => WritesPred x (fld f.imm 10 8) i l l'
      (Claims.intCompare (fld f.imm 7 5) (Claims.intNumber f l f.srcA) (Claims.intNumber f l f.srcB)))) ∧
    (Issues s w f 1 0x08 x → LaneResult (.fsetp w f) s w (fun i l l' => WritesPred x (fld f.imm 10 8) i l l'
      (cmpFp (fld f.imm 7 5) (l.reg f.srcA) (l.reg f.srcB))))

/-- R181, R182: CVT leaves in DST the value of SRC_A converted from its source to its destination type, unless SCL names a
scale of 0xFF in an executing lane. -/
def Sys2Proof.Claims.ConversionResultPart : Prop :=
  ∀ (w : Where) (f : Fields) (s : State) (x : Issue), Issues s w f 2 0x00 x →
    (bit f.imm 12 = true → ∀ i ∈ x.act, fld ((x.lane i).reg f.srcB) 7 0 ≠ 0xFF) →
    LaneResult (.cvt w f) s w (fun i l l' => WritesRegs f x 1 i l l'
      (cvtResult f (l.reg f.srcA) (fld (l.reg f.srcB) 7 0) (l.reg f.srcC) % 2 ^ 32))

namespace Sys2Proof.Claims

/-- The special functions: command, OP, and what R184 states of the result v for an argument a. -/
structure SpecialRow where
  cmd : Instr
  op : Nat
  rule : W32 → W32 → Prop

def specialRows (w : Where) (f : Fields) : List SpecialRow :=
  [⟨.rcp w f, 0x10, fun a v => (a = 0 → v = 0x7F800000) ∧ (a = 0x80000000 → v = 0xFF800000) ∧
      (a = 0x7F800000 → v = 0) ∧ (a = 0xFF800000 → v = 0x80000000)⟩,
   ⟨.rsq w f, 0x11, fun a v => (a = 0 → v = 0x7F800000) ∧ (a = 0x80000000 → v = 0xFF800000) ∧ (a = 0x7F800000 → v = 0) ∧
      (a = 0xFF800000 → v = 0x7FC00000) ∧ (a = 0xBF800000 → v = 0x7FC00000)⟩,
   ⟨.ex2 w f, 0x12, fun a v => (a = 0x7F800000 → v = 0x7F800000) ∧ (a = 0xFF800000 → v = 0)⟩,
   ⟨.lg2 w f, 0x13, fun a v => (a = 0 ∨ a = 0x80000000 → v = 0xFF800000) ∧ (a = 0x7F800000 → v = 0x7F800000) ∧
      (a = 0xFF800000 → v = 0x7FC00000) ∧ (a = 0xBF800000 → v = 0x7FC00000)⟩,
   ⟨.sin w f, 0x14, fun _ _ => True⟩, ⟨.cos w f, 0x15, fun _ _ => True⟩]

end Sys2Proof.Claims

/-- R184: each special function leaves in DST a result that is the canonical NaN wherever it or the argument is NaN, and the exact
value at zeros and infinities; within those limits the result is open (log entry 2). -/
def Sys2Proof.Claims.SpecialFunctionResultsPart : Prop :=
  ∀ (w : Where) (f : Fields) (s : State) (x : Issue), ∀ r ∈ Claims.specialRows w f, Issues s w f 2 r.op x →
    LaneResult r.cmd s w (fun i l l' => ∃ v : W32, WritesRegs f x 1 i l l' v.toNat ∧ r.rule (l.reg f.srcA) v ∧
      ((f32 v).isNan = true ∨ (f32 (l.reg f.srcA)).isNan = true → v = 0x7FC00000))

namespace Sys2Proof.Claims

/-- The special registers of lane i (R78). -/
def special (d : Dev) (x : Issue) (i n : Nat) : Nat :=
  match n with
  | 0 => i | 1 => x.w.group | 2 => x.block.no | 3 => x.grid.blocks | 4 => x.grid.blockGroups | 5 => x.block.core
  | 6 => x.block.core / 8 | 7 => x.grid.args % 2 ^ 32 | 8 => x.grid.args / 2 ^ 32 % 2 ^ 17 | 9 => laneMask x.act
  | _ => rd d OD.deviceNumber

end Sys2Proof.Claims

/-- R77, R78: MOV copies SRC_A, MOVI writes IMM with the high half clear, SREG reads the special register IMM[7:0]. -/
def Sys2Proof.Claims.MoveResultsPart : Prop :=
  ∀ (w : Where) (f : Fields) (s : State) (x : Issue),
    (Issues s w f 3 0x00 x → LaneResult (.mov w f) s w (fun i l l' => WritesRegs f x 1 i l l' (l.reg f.srcA).toNat)) ∧
    (Issues s w f 3 0x01 x → LaneResult (.movi w f) s w (fun i l l' => WritesRegs f x 1 i l l' f.imm.toNat)) ∧
    (Issues s w f 3 0x02 x → LaneResult (.sreg w f) s w (fun i l l' => WritesRegs f x 1 i l l'
      (Claims.special s.m x i (fld f.imm 7 0) % 2 ^ 32)))

/-- R76: SEL, BFE, BFI and PMOV complete; which values DST and, for PMOV, the predicates receive the manual does not state (log
entry 2); the rest is as for every integer operation and move. -/
def Obligations.OpenThreadOperationsComplete : Prop :=
  ∀ (w : Where) (f : Fields) (s : State) (x : Issue),
    (∀ c ∈ [(Instr.sel w f, 0x11), (Instr.bfe w f, 0x12), (Instr.bfi w f, 0x13)], Issues s w f 0 c.2 x →
      LaneResult c.1 s w (fun i l l' => ∃ v < 2 ^ (32 * f.iregs), WritesRegs f x f.iregs i l l' v)) ∧
    (Issues s w f 3 0x03 x → LaneResult (.pmov w f) s w (fun i l l' =>
      l'.pc = (if i ∈ x.lanes then l.pc + 8 else l.pc) ∧ l'.stack = l.stack ∧ l'.st = l.st ∧
      (∀ n : Nat, i ∉ x.act ∨ Outside f.dst 1 n → l'.regs[n]? = l.regs[n]?) ∧
      (i ∉ x.act → l'.preds = l.preds) ∧ l'.preds.length = l.preds.length))

/-- R77: the FP32 class: its results on every operand, and what NaN operands and zeros of both signs give FMIN and FMAX. -/
def Obligations.Fp32Results : Prop := Claims.Fp32ResultsPart ∧ Claims.Fp32NanAndZeroOrderPart

/-- R77, R78, R181, R182, R184: the conversion class, the special functions within their bounds, and the moves. -/
def Obligations.ConversionsFunctionsAndMoves : Prop := Claims.ConversionResultPart ∧ Claims.SpecialFunctionResultsPart ∧ Claims.MoveResultsPart

namespace Sys2Proof.Claims

/-- A group has faulted (R102): from d to d', with status st, at a program counter, for some lanes; `evs` are the events that
came before EV_2420. -/
structure Faulted (w : Where) (b : Block) (st : Status) (pc : Nat) (lanes : List Nat) (evs : List Event) (d d' : Dev) : Prop where
  status : rd d' OD.lastFaultStatus = st.toNat
  core : rd d' OD.lastFaultCore = b.core
  place : rd d' OD.lastFaultPC = pc
  lanes : rd d' OD.lastFaultLanes = laneMask lanes
  count : rd d' OD.groupFaults = (rd d OD.groupFaults + 1) % 2 ^ 64
  stops : findBlock d' w.grid w.block = none
  others : ∀ g n, ¬(g = w.grid ∧ n = w.block) → findBlock d' g n = findBlock d g n
  grid : gridOf d' w.grid =
    (gridOf d w.grid).map (fun g => { g with fault := some (g.fault.getD st), ended := g.ended + 1 })
  raised : d'.ev.raised = d.ev.raised ++ (evs ++ [({ id := 0x2420, inst := b.core, detail0 := st.toNat, details := [] } : Event)]).map
    (fun e => (cdPort (b.core / 512), e))
  rest : d' = { d with od := d'.od, ev := d'.ev, blocks := d'.blocks, grids := d'.grids }

/-- The group of an issue faults at the instruction issued. -/
def FaultsAt (c : Instr) (s : State) (w : Where) (x : Issue) (st : Status) : Prop :=
  Completes c s (Faulted w x.block st x.pc x.lanes [] s.m)

/-- What a control instruction does to lane i (R81): the executing lanes go to a program counter with a call stack. -/
structure Goes (x : Issue) (pc : Nat) (stack : List Nat) (i : Nat) (l l' : Lane) : Prop where
  pc : l'.pc = if i ∈ x.act then pc else if i ∈ x.lanes then l.pc + 8 else l.pc
  stack : l'.stack = if i ∈ x.act then stack else l.stack
  regs : l'.regs = l.regs
  preds : l'.preds = l.preds
  runs : l'.st = l.st

/-- Target of BRA and CALL: the instruction's own address plus 8 times IMM sign-extended, at 64 bits. -/
def target (f : Fields) (x : Issue) : Nat := (BitVec.ofNat 64 x.pc + 8 * f.imm.signExtend 64).toNat

end Sys2Proof.Claims

/-- R81: where BRA, BRX, CALL, RET send the lanes that execute, and what YIELD and NOP leave; nothing else changes. A
lane that has yielded is left out of the next 16 issues of its group while another lane can issue elsewhere. -/
def Sys2Proof.Claims.ControlFlowResultsPart : Prop :=
  (∀ (w : Where) (f : Fields) (s : State) (x : Issue),
    (Issues s w f 7 0x00 x → LaneResult (.bra w f) s w (fun i l l' => Claims.Goes x (Claims.target f x) l.stack i l l')) ∧
    (Issues s w f 7 0x01 x → LaneResult (.brx w f) s w (fun i l l' => Claims.Goes x (l.wide f.srcA 2) l.stack i l l')) ∧
    (Issues s w f 7 0x02 x → (∀ i ∈ x.act, (x.lane i).stack.length < 32) →
      LaneResult (.call w f) s w (fun i l l' => Claims.Goes x (Claims.target f x) ((x.pc + 8) :: l.stack) i l l')) ∧
    (Issues s w f 7 0x03 x → (∀ i ∈ x.act, (x.lane i).stack ≠ []) →
      LaneResult (.ret w f) s w (fun i l l' => Claims.Goes x (l.stack.headD 0) l.stack.tail i l l')) ∧
    (Issues s w f 7 0x05 x → LaneResult (.yieldIssue w f) s w (fun i l l' => MovesOn x i l l' ∧
      l'.yielded = if i ∈ x.act then some (x.group.issues + 1) else l.yielded)) ∧
    (Issues s w f 7 0x06 x → LaneResult (.nop w f) s w (fun i l l' => MovesOn x i l l' ∧ l'.yielded = l.yielded))) ∧
  (∀ (d : Dev) (w : Where) (f : Fields) (x : Issue) (i j : Nat) (l k : Lane) (y : Nat),
    issueOf d w f = some x → laneOf d w i = some l → l.yielded = some y → x.group.issues < y + 16 →
    laneOf d w j = some k → k.st = .run → k.yielded = none →
    (∀ q m, laneOf d w q = some m → m.pc = l.pc → q = i) → j ≠ i → i ∉ x.lanes)

/-- R76, R81, R83, R84, R93: the instructions that fault their group: a CALL with 32 entries on an executing lane's stack, a RET with
none, a BAR.GROUP whose mask leaves out an executing lane, a BAR.BLOCK whose count is no multiple of 32 or exceeds the
block's threads, a shared-memory access that is misaligned or past the allocation, and an undefined instruction word. -/
def Sys2Proof.Claims.InstructionFaultsPart : Prop :=
  ∀ (w : Where) (f : Fields) (s : State) (x : Issue),
    (Issues s w f 7 0x02 x → (∃ i ∈ x.act, 32 ≤ (x.lane i).stack.length) → Claims.FaultsAt (.call w f) s w x ST.state) ∧
    (Issues s w f 7 0x03 x → (∃ i ∈ x.act, (x.lane i).stack = []) → Claims.FaultsAt (.ret w f) s w x ST.state) ∧
    (Issues s w f 8 0x00 x → (∃ i ∈ x.act, ((x.lane i).reg f.srcA).getLsbD i = false) →
      Claims.FaultsAt (.barGroup w f) s w x ST.invalid) ∧
    (Issues s w f 8 0x01 x → (∃ i ∈ x.act, ((x.lane i).reg f.srcA).toNat % 32 ≠ 0 ∨
        32 * x.block.groups.length < ((x.lane i).reg f.srcA).toNat) → Claims.FaultsAt (.barBlock w f) s w x ST.invalid) ∧
    (∀ c ∈ [(Instr.lds w f, 4, 0x00, 2 ^ fld f.imm 2 0), (Instr.sts w f, 4, 0x01, 2 ^ fld f.imm 2 0),
        (Instr.atoms w f, 5, 0x00, atomBytes (atomTy f))], Issues s w f c.2.1 c.2.2.1 x →
      (∃ i ∈ x.act, ((x.lane i).reg f.srcA).toNat % c.2.2.2 ≠ 0 ∨
        1024 * x.grid.slmKib < ((x.lane i).reg f.srcA).toNat + c.2.2.2) → Claims.FaultsAt c.1 s w x ST.access) ∧
    (∀ u : W64, Calm s → issueOf s.m w (fieldsOf u) = some x → fetchStatus s.m x.grid.ctx x.pc = ST.ok →
      ctxRefusal s.m x.grid.ctx ≠ ST.fenced → opLegal (fld u 63 60) (fld u 59 52) (fieldsOf u) (8 * x.grid.regs) = false →
      Claims.FaultsAt (.illegalInstruction w u) s w x ST.invalid)

namespace Sys2Proof.Claims

/-- The instructions of threads: command, class, OP, and the fields that its word carries. -/
def threadRows (w : Where) (f : Fields) : List (Instr × Nat × Nat × Fields) :=
  (intRows w f).map (fun r => (r.cmd, 0, r.op, f)) ++ (fpRows w f).map (fun r => (r.cmd, 1, r.op, f)) ++
  (specialRows w f).map (fun r => (r.cmd, 2, r.op, f)) ++
  [(.setp w f, 0, 0x10, f), (.sel w f, 0, 0x11, f), (.bfe w f, 0, 0x12, f), (.bfi w f, 0, 0x13, f), (.fsetp w f, 1, 0x08, f),
   (.cvt w f, 2, 0x00, f), (.mov w f, 3, 0x00, f), (.movi w f, 3, 0x01, f), (.sreg w f, 3, 0x02, f), (.pmov w f, 3, 0x03, f),
   (.lds w f, 4, 0x00, f), (.sts w f, 4, 0x01, f), (.ld w f, 4, 0x02, f), (.st w f, 4, 0x03, f), (.atoms w f, 5, 0x00, f),
   (.atom w f, 5, 0x01, f), (.fenceAcquire w f, 6, 0x00, fenceFields 0 f), (.fenceRelease w f, 6, 0x00, fenceFields 1 f),
   (.fenceBoth w f, 6, 0x00, fenceFields 2 f), (.bra w f, 7, 0x00, f), (.brx w f, 7, 0x01, f), (.call w f, 7, 0x02, f),
   (.ret w f, 7, 0x03, f), (.exitLane w f, 7, 0x04, f), (.yieldIssue w f, 7, 0x05, f), (.nop w f, 7, 0x06, f),
   (.barGroup w f, 8, 0x00, f), (.barBlock w f, 8, 0x01, f), (.shfl w f, 9, 0x00, f), (.any w f, 0xA, 0x00, f),
   (.all w f, 0xA, 0x01, f), (.uni w f, 0xA, 0x02, f), (.ballot w f, 0xA, 0x03, f), (.matchVote w f, 0xA, 0x04, f),
   (.mxi w f, 0xB, 0x00, f), (.chi w f, 0xC, 0x00, f), (.fxi w f, 0xD, 0x00, f), (.waitc w f, 0xE, 0x00, f),
   (.waita w f, 0xE, 0x01, f)]

end Sys2Proof.Claims

/-- R74, R76, R82, R356: before any thread instruction has its effect, a fetch that is misaligned, not granted or outside usable
memory faults the group with its status, then a draining context with ST_FENCED, then an undefined modifier or a register
field outside the allocation with ST_INVALID. Where no lane of the group can issue, or an executing lane still waits for an
operand or an access of its own (R71, R72; log entry 108), nothing happens. A register field other than 0xFF that reaches past the thread's registers or is not aligned makes its operations illegal. -/
def Sys2Proof.Claims.BeforeEveryInstructionPart : Prop :=
  (∀ (w : Where) (f : Fields) (s : State), Calm s → ∀ r ∈ Claims.threadRows w f,
    (issueOf s.m w f = none → Becomes r.1 s s.m) ∧
    (∀ x, issueOf s.m w f = some x →
      (fetchStatus s.m x.grid.ctx x.pc ≠ ST.ok → Claims.FaultsAt r.1 s w x (fetchStatus s.m x.grid.ctx x.pc)) ∧
      (fetchStatus s.m x.grid.ctx x.pc = ST.ok → ctxRefusal s.m x.grid.ctx = ST.fenced → Claims.FaultsAt r.1 s w x ST.fenced) ∧
      (fetchStatus s.m x.grid.ctx x.pc = ST.ok → ctxRefusal s.m x.grid.ctx ≠ ST.fenced →
        opLegal r.2.1 r.2.2.1 r.2.2.2 (8 * x.grid.regs) = false → Claims.FaultsAt r.1 s w x ST.invalid) ∧
      (fetchStatus s.m x.grid.ctx x.pc = ST.ok → ctxRefusal s.m x.grid.ctx ≠ ST.fenced →
        opLegal r.2.1 r.2.2.1 r.2.2.2 (8 * x.grid.regs) = true → operandsDue r.2.1 r.2.2.1 r.2.2.2 x = true →
        Becomes r.1 s s.m))) ∧
  (∀ (f : Fields) (alloc cls op : Nat) (uses : List (BitVec 8 × Nat)) (ok : Bool) (r : BitVec 8) (k : Nat),
    opRules cls op f = some (uses, ok) → (r, k) ∈ uses → r ≠ 0xFF → (alloc < r.toNat + k ∨ r.toNat % k ≠ 0) →
    opLegal cls op f alloc = false)

namespace Sys2Proof.Claims

/-- Segment position of lane L for width w, and the source lane of a shuffle in each mode (R87); none: out of range. -/
def shuffleSource (mode w lane b : Nat) : Option Nat :=
  let i := lane % w
  if mode = 0 then (if b < w then some (lane - i + b) else none)
  else if mode = 1 then (if b ≤ i then some (lane - b) else none)
  else if mode = 2 then (if i + b < w then some (lane + b) else none)
  else if b < w then some (lane ^^^ b) else none

/-- Operand b of a shuffle of lane l. -/
def shuffleB (f : Fields) (l : Lane) : Nat := if f.srcB = 0xFF then fld f.imm 4 0 else (l.reg f.srcB).toNat

/-- The lane that lane i of an issue receives from: its source where that is in range and executes. -/
def receivesFrom (f : Fields) (x : Issue) (i : Nat) (l : Lane) : Option Nat :=
  (shuffleSource (fld f.imm 15 14) (2 ^ fld f.imm 13 11) i (shuffleB f l)).filter (fun j => decide (j ∈ x.act))

/-- Bits of the voting lanes that pass a test. -/
def voters (x : Issue) (f : Fields) (p : W32 → Bool) : Nat :=
  ((List.range 32).map (fun i => if x.act.contains i && p ((x.lane i).reg f.srcA) then 2 ^ i else 0)).sum

end Sys2Proof.Claims

/-- R87-R89: SHFL gives each executing lane its source lane's SRC_A and sets its predicate IMM[10:8], or its own SRC_A with
the predicate cleared where the source is out of range or does not execute. ANY, ALL and UNI write the predicate IMM[10:8] of
every voting lane, BALLOT and MATCH the mask of the voting lanes whose operand is not zero, or equals the lane's own. -/
def Obligations.ShuffleAndVoteResults : Prop :=
  ∀ (w : Where) (f : Fields) (s : State) (x : Issue),
    (Issues s w f 9 0x00 x → LaneResult (.shfl w f) s w (fun i l l' =>
      (∀ v, v = (match Claims.receivesFrom f x i l with | some j => (x.lane j).reg f.srcA | none => l.reg f.srcA) →
        (i ∈ x.act → f.dst.toNat < Nat.min l.regs.length 255 → l'.reg f.dst = v)) ∧
      (i ∈ x.act → fld f.imm 10 8 < Nat.min l.preds.length 7 →
        l'.preds[fld f.imm 10 8]? = some (Claims.receivesFrom f x i l).isSome) ∧
      (∀ n : Nat, i ∉ x.act ∨ Outside f.dst 1 n → l'.regs[n]? = l.regs[n]?) ∧
      (∀ q : Nat, i ∉ x.act ∨ fld f.imm 10 8 = 7 ∨ q ≠ fld f.imm 10 8 → l'.preds[q]? = l.preds[q]?) ∧
      l'.pc = (if i ∈ x.lanes then l.pc + 8 else l.pc) ∧ l'.stack = l.stack ∧ l'.st = l.st)) ∧
    (Issues s w f 0xA 0x00 x → LaneResult (.any w f) s w (fun i l l' => WritesPred x (fld f.imm 10 8) i l l'
      (decide (∃ j ∈ x.act, (x.lane j).reg f.srcA ≠ 0)))) ∧
    (Issues s w f 0xA 0x01 x → LaneResult (.all w f) s w (fun i l l' => WritesPred x (fld f.imm 10 8) i l l'
      (decide (∀ j ∈ x.act, (x.lane j).reg f.srcA ≠ 0)))) ∧
    (Issues s w f 0xA 0x02 x → LaneResult (.uni w f) s w (fun i l l' => WritesPred x (fld f.imm 10 8) i l l'
      (decide (∀ j ∈ x.act, ∀ k ∈ x.act, (x.lane j).reg f.srcA = (x.lane k).reg f.srcA)))) ∧
    (Issues s w f 0xA 0x03 x → x.group.lanes.length ≤ 32 → LaneResult (.ballot w f) s w (fun i l l' =>
      WritesRegs f x 1 i l l' (Claims.voters x f (fun v => v != 0)))) ∧
    (Issues s w f 0xA 0x04 x → x.group.lanes.length ≤ 32 → LaneResult (.matchVote w f) s w (fun i l l' =>
      WritesRegs f x 1 i l l' (Claims.voters x f (fun v => v == l.reg f.srcA))))

namespace Sys2Proof.Claims

/-- A waiting, exited or running state of each lane of a block after an instruction of group w: what st says; the rest of
the lane is as for any instruction. -/
def BlockLanes (w : Where) (x : Issue) (d d' : Dev) (st : Where → Nat → Lane → LaneSt) : Prop :=
  ∀ v i l, v.grid = w.grid → v.block = w.block → laneOf d v i = some l → ∃ l', laneOf d' v i = some l' ∧
    l'.st = st v i l ∧ l'.pc = (if v = w ∧ i ∈ x.lanes then l.pc + 8 else l.pc) ∧ l'.regs = l.regs ∧
    l'.preds = l.preds ∧ l'.stack = l.stack

/-- Only threads of the block may differ, and what the prefetchers of its core hold. -/
def BlockOnly (w : Where) (d d' : Dev) : Prop :=
  d' = { d with blocks := d'.blocks, mem := { d.mem with prefetch := d'.mem.prefetch } } ∧
  ∀ g n, ¬(g = w.grid ∧ n = w.block) → findBlock d' g n = findBlock d g n

/-- No thread of the block waits at a barrier but those at k in the groups named. -/
def OnlyAt (b : Block) (k : Sum (Nat × W32) (Nat × Nat)) (mine : Nat → Prop) : Prop :=
  ∀ n g, b.groups[n]? = some g → ∀ l ∈ g.lanes, barrierOf l = none ∨ (mine n ∧ barrierOf l = some k)

end Sys2Proof.Claims

/-- R83, R119: at a BAR.GROUP the executing lanes wait as long as a member of their mask still runs; once each has arrived
there or exited, all that wait there run on. -/
def Sys2Proof.Claims.GroupBarrierPart : Prop :=
  ∀ (w : Where) (f : Fields) (s : State) (x : Issue) (m : W32), Issues s w f 8 0x00 x → x.group.storeError = none →
    (∀ i ∈ x.act, (x.lane i).reg f.srcA = m ∧ m.getLsbD i = true) →
    Claims.OnlyAt x.block (.inl (fld f.imm 3 0, m)) (· = w.group) →
    ((∃ j l, laneOf s.m w j = some l ∧ m.getLsbD j = true ∧ j ∉ x.act ∧ l.st = .run) →
      Completes (.barGroup w f) s (fun d => LanesOnly w s.m d ∧ Claims.BlockLanes w x s.m d (fun v i l =>
        if v = w ∧ i ∈ x.act then .barGroup (fld f.imm 3 0) m s.m.tick else l.st))) ∧
    ((∀ j l, laneOf s.m w j = some l → m.getLsbD j = true →
        j ∈ x.act ∨ l.st = .done ∨ barrierOf l = some (.inl (fld f.imm 3 0, m))) →
      Completes (.barGroup w f) s (fun d => LanesOnly w s.m d ∧ Claims.BlockLanes w x s.m d (fun v i l =>
        if v = w ∧ (i ∈ x.act ∨ barrierOf l = some (.inl (fld f.imm 3 0, m))) then .run else l.st)))

/-- R84, R119: at a BAR.BLOCK with count c, taken as all threads of the block where it is 0, the executing lanes wait while
the threads that have arrived and the exited ones are fewer than c and a thread still runs; once they reach c, all run on. -/
def Sys2Proof.Claims.BlockBarrierPart : Prop :=
  ∀ (w : Where) (f : Fields) (s : State) (x : Issue) (c : Nat), Issues s w f 8 0x01 x → x.group.storeError = none →
    x.act ≠ [] → (∀ i ∈ x.act, (x.lane i).reg f.srcA = 0 ∧ c = 32 * x.block.groups.length ∨
      ((x.lane i).reg f.srcA).toNat = c ∧ c ≠ 0) → c % 32 = 0 → c ≤ 32 * x.block.groups.length →
    Claims.OnlyAt x.block (.inr (fld f.imm 3 0, c)) (fun _ => True) →
    (let arrived := x.act.length + (blockLanes x.block).countP (fun l => (barrierOf l).isSome)
     let exited := (blockLanes x.block).countP (fun l => decide (l.st = .done))
     (arrived + exited < c → (∃ v j l, v.grid = w.grid ∧ v.block = w.block ∧ laneOf s.m v j = some l ∧ l.st = .run ∧
        ¬(v = w ∧ j ∈ x.act)) →
      Completes (.barBlock w f) s (fun d => LanesOnly w s.m d ∧ Claims.BlockLanes w x s.m d (fun v i l =>
        if v = w ∧ i ∈ x.act then .barBlock (fld f.imm 3 0) c s.m.tick else l.st))) ∧
     (c ≤ arrived + exited → Completes (.barBlock w f) s (fun d => Claims.BlockOnly w s.m d ∧
        Claims.BlockLanes w x s.m d (fun v i l =>
          if (v = w ∧ i ∈ x.act) ∨ (barrierOf l).isSome = true then .run else l.st))))

namespace Sys2Proof.Claims

/-- EV_2421 of a block, once. -/
def mismatch (x : Issue) : Event := ⟨0x2421, x.block.core, 0, []⟩

/-- The groups of the block with a thread that waits at a barrier or executes the instruction. -/
def atBars (w : Where) (x : Issue) : List (Nat × Group) :=
  (x.block.groups.zipIdx.map (fun p => (p.2, p.1))).filter (fun p => p.1 == w.group || p.2.lanes.any (fun l => (barrierOf l).isSome))

end Sys2Proof.Claims

/-- R84: a BAR.BLOCK whose executing lanes meet threads that wait at its number with another count, or bring different counts
themselves (log entry 9), faults its group with ST_BARRIER_MISMATCH and raises EV_2421. -/
def Sys2Proof.Claims.BarrierCountsDifferPart : Prop :=
  ∀ (w : Where) (f : Fields) (s : State) (x : Issue), Issues s w f 8 0x01 x →
    (let c := fun i => if (x.lane i).reg f.srcA = 0 then 32 * x.block.groups.length else ((x.lane i).reg f.srcA).toNat
     (∀ i ∈ x.act, c i % 32 = 0 ∧ c i ≤ 32 * x.block.groups.length) →
     (∃ i ∈ x.act, (∃ j ∈ x.act, c i ≠ c j) ∨
       ∃ l ∈ blockLanes x.block, ∃ k, barrierOf l = some (.inr (fld f.imm 3 0, k)) ∧ k ≠ c i) →
     Completes (.barBlock w f) s (fun d => rd d OD.barrierMismatches = (rd s.m OD.barrierMismatches + 1) % 2 ^ 64 ∧
       Claims.Faulted w x.block ST.barrierMismatch x.pc x.lanes [Claims.mismatch x] s.m d))

/-- R85: two barriers of a group that wait for each other's members are dead: when the lanes of the second block, the group
faults with ST_BARRIER_MISMATCH, and each of the two is counted and raises EV_2421. The same of two block barriers, of which
every thread of the block waits at one: each group with a thread there faults. -/
def Sys2Proof.Claims.DeadBarriersFaultPart : Prop :=
  (∀ (w : Where) (f : Fields) (s : State) (x : Issue) (m m2 : W32) (n2 i j : Nat) (lj : Lane), Issues s w f 8 0x00 x →
    x.group.storeError = none → (∀ q ∈ x.act, (x.lane q).reg f.srcA = m ∧ m.getLsbD q = true) →
    Claims.OnlyAt x.block (.inl (n2, m2)) (· = w.group) → (n2, m2) ≠ (fld f.imm 3 0, m) →
    (∀ q l, laneOf s.m w q = some l → q ∈ x.act ∨ l.st = .done ∨ barrierOf l = some (.inl (n2, m2))) →
    i ∈ x.act → m2.getLsbD i = true → laneOf s.m w j = some lj → barrierOf lj = some (.inl (n2, m2)) → m.getLsbD j = true →
    Completes (.barGroup w f) s (fun d => rd d OD.barrierMismatches = (rd s.m OD.barrierMismatches + 2) % 2 ^ 64 ∧
      ∃ pc lanes, Claims.Faulted w x.block ST.barrierMismatch pc lanes [Claims.mismatch x, Claims.mismatch x] s.m d ∧
        ∀ q, q ∈ lanes ↔ q ∈ x.act ∨ ∃ l, laneOf s.m w q = some l ∧ barrierOf l = some (.inl (n2, m2)))) ∧
  (∀ (w : Where) (f : Fields) (s : State) (x : Issue) (c c2 n2 i : Nat) (l2 : Lane), Issues s w f 8 0x01 x →
    x.group.storeError = none → i ∈ x.act → l2 ∈ blockLanes x.block → barrierOf l2 = some (.inr (n2, c2)) → n2 ≠ fld f.imm 3 0 →
    (∀ q ∈ x.act, (x.lane q).reg f.srcA = 0 ∧ c = 32 * x.block.groups.length ∨ ((x.lane q).reg f.srcA).toNat = c ∧ c ≠ 0) →
    c % 32 = 0 → c ≤ 32 * x.block.groups.length → Claims.OnlyAt x.block (.inr (n2, c2)) (fun _ => True) →
    (∀ v q l, v.grid = w.grid → v.block = w.block → laneOf s.m v q = some l →
      (v = w ∧ q ∈ x.act) ∨ l.st = .done ∨ barrierOf l = some (.inr (n2, c2))) →
    (let exited := (blockLanes x.block).countP (fun l => decide (l.st = .done))
     x.act.length + exited < c → (blockLanes x.block).countP (fun l => (barrierOf l).isSome) + exited < c2 →
     Completes (.barBlock w f) s (fun d => rd d OD.barrierMismatches = (rd s.m OD.barrierMismatches + 2) % 2 ^ 64 ∧
       rd d OD.groupFaults = (rd s.m OD.groupFaults + (Claims.atBars w x).length) % 2 ^ 64 ∧
       rd d OD.lastFaultStatus = ST.barrierMismatch.toNat ∧ findBlock d w.grid w.block = none ∧
       gridOf d w.grid = (gridOf s.m w.grid).map (fun g =>
         { g with fault := some (g.fault.getD ST.barrierMismatch), ended := g.ended + 1 }))))

/-- R81: EXIT ends the executing lanes; with the last lane of its block the block leaves its core and counts as ended. -/
def Sys2Proof.Claims.ExitResultPart : Prop :=
  ∀ (w : Where) (f : Fields) (s : State) (x : Issue), Issues s w f 7 0x04 x → x.group.storeError = none →
    (Claims.OnlyAt x.block (.inr (0, 0)) (fun _ => False) →
      (∃ v j l, v.grid = w.grid ∧ v.block = w.block ∧ laneOf s.m v j = some l ∧ l.st ≠ .done ∧ ¬(v = w ∧ j ∈ x.act)) →
      LaneResult (.exitLane w f) s w (fun i l l' => l'.st = (if i ∈ x.act then .done else l.st) ∧
        l'.pc = (if i ∈ x.lanes then l.pc + 8 else l.pc) ∧ l'.regs = l.regs ∧ l'.preds = l.preds ∧ l'.stack = l.stack)) ∧
    ((∀ v j l, v.grid = w.grid → v.block = w.block → laneOf s.m v j = some l → l.st = .done ∨ (v = w ∧ j ∈ x.act)) →
      Completes (.exitLane w f) s (fun d => findBlock d w.grid w.block = none ∧
        (∀ g n, ¬(g = w.grid ∧ n = w.block) → findBlock d g n = findBlock s.m g n) ∧
        gridOf d w.grid = (gridOf s.m w.grid).map (fun g => { g with ended := g.ended + 1 }) ∧
        d = { s.m with blocks := d.blocks, grids := d.grids }))

/-- R86, R100: a thread that has waited at a barrier or on a counter longer than BarrierLimit faults its group with ST_TIMEOUT
at the instruction at which it waits and raises EV_2422; before that the commands do nothing. -/
def Sys2Proof.Claims.WaitLimitPart : Prop :=
  objDefault OD.barrierLimit = 100000 ∧ ∀ (w : Where) (i : Nat) (s : State) (b : Block) (g : Group) (l : Lane), Calm s → findGroup s.m w = some (b, g) →
    g.lanes[i]? = some l →
    (∀ t, (∃ n k, l.st = .barGroup n k t) ∨ (∃ n k, l.st = .barBlock n k t) →
      (t + rd s.m OD.barrierLimit < s.m.tick → Completes (.barrierTimeout w i) s
        (Claims.Faulted w b ST.timeout (l.pc - 8) [i] [⟨0x2422, b.core, 0, []⟩] s.m)) ∧
      (s.m.tick ≤ t + rd s.m OD.barrierLimit → Becomes (.barrierTimeout w i) s s.m)) ∧
    (∀ t, (∃ n k, l.st = .waitCc n k t) ∨ (∃ n k, l.st = .waitArr n k t) →
      (t + rd s.m OD.barrierLimit < s.m.tick → Completes (.counterWaitTimeout w i) s
        (Claims.Faulted w b ST.timeout (l.pc - 8) [i] [⟨0x2422, b.core, 0, []⟩] s.m)) ∧
      (s.m.tick ≤ t + rd s.m OD.barrierLimit → Becomes (.counterWaitTimeout w i) s s.m))

/-- R81: branches, calls, returns and hints, and a lane's exit with what ends after it. -/
def Obligations.ControlFlowAndExit : Prop := Claims.ControlFlowResultsPart ∧ Claims.ExitResultPart

/-- R74, R76, R81-R84, R93, R356: the forms of instructions that fault, and what every instruction meets before its own effect. -/
def Obligations.FaultsOfInstructions : Prop := Claims.InstructionFaultsPart ∧ Claims.BeforeEveryInstructionPart

/-- R83-R85, R119: a group barrier, a block barrier, and barriers that no lane can complete any more. -/
def Obligations.Barriers : Prop :=
  Claims.GroupBarrierPart ∧ Claims.BlockBarrierPart ∧ Claims.BarrierCountsDifferPart ∧ Claims.DeadBarriersFaultPart

namespace Sys2Proof.Claims

/-- The instruction word with a class, an operation and fields, as the table of R73 places them. -/
def wordWith (cls op : Nat) (f : Fields) : W64 :=
  BitVec.ofNat 64 (cls * 2 ^ 60 + op * 2 ^ 52 + f.pred.toNat * 2 ^ 49 + (if f.pneg then 2 ^ 48 else 0) + f.dst.toNat * 2 ^ 40 +
    f.srcA.toNat * 2 ^ 32 + f.srcB.toNat * 2 ^ 24 + f.srcC.toNat * 2 ^ 16 + f.imm.toNat)

end Sys2Proof.Claims

/-- R73, R76, R97: the word of each instruction of threads decodes to that instruction with every field as it stands, and every
word whose class, operation or kind of fence the tables do not define decodes to the illegal instruction. -/
def Obligations.InstructionWords : Prop :=
  (∀ (w : Where) (f : Fields), ∀ r ∈ Claims.threadRows w f, r.2.2.2 = f →
    decodeThread w (Claims.wordWith r.2.1 r.2.2.1 f) = r.1) ∧
  (∀ (w : Where) (u : W64), (∀ r ∈ Claims.threadRows w (fieldsOf u),
      ¬(fld u 63 60 = r.2.1 ∧ fld u 59 52 = r.2.2.1 ∧ fieldsOf u = r.2.2.2)) →
    decodeThread w u = .illegalInstruction w u)

namespace Sys2Proof.Claims

/-- Memory but for what the LLC slices and the prefetchers hold. -/
def sameMem (m m' : MemState) : Prop := m' = { m with llc := m'.llc, prefetch := m'.prefetch }

/-- Memory but for its bytes and what the LLC slices and the prefetchers hold. -/
def sameLines (m m' : MemState) : Prop := m' = { m with cells := m'.cells, llc := m'.llc, prefetch := m'.prefetch }

/-- The result of an atomic operation on numbers of n bits (R90); INC.WRAP and DEC.WRAP are open (log entry 2). -/
def atomValue (f : Fields) (old x cmp : Nat) : Nat :=
  let n := 8 * atomBytes (fld f.imm 11 9)
  let o := BitVec.ofNat n old
  let y := BitVec.ofNat n x
  let signed := fld f.imm 11 9 == 1 || fld f.imm 11 9 == 3
  let float := fld f.imm 11 9 == 4
  match fld f.imm 15 12 with
  | 0 => if float then (rne32 (vadd (f32 (BitVec.ofNat 32 old)) (f32 (BitVec.ofNat 32 x)))).toNat else (o + y).toNat
  | 1 => if float then (fmin (BitVec.ofNat 32 old) (BitVec.ofNat 32 x)).toNat
         else if (if signed then y.slt o else y.ult o) then x else old
  | 2 => if float then (fmax (BitVec.ofNat 32 old) (BitVec.ofNat 32 x)).toNat
         else if (if signed then o.slt y else o.ult y) then x else old
  | 3 => (o &&& y).toNat | 4 => (o ||| y).toNat | 5 => (o ^^^ y).toNat | 6 => x
  | 7 => if old = cmp then x else old
  | 8 => Config.incWrap old x % 2 ^ n
  | _ => Config.decWrap old x % 2 ^ n

/-- The operands of the lanes of a list applied to a value in that order (R91, R92). -/
def atomAll (f : Fields) (x : Issue) (old : Nat) (lanes : List Nat) : Nat :=
  let k := atomBytes (fld f.imm 11 9) / 4
  lanes.foldl (fun v j => atomValue f v ((x.lane j).wide f.srcB k) ((x.lane j).wide f.srcC k)) old

/-- The executing lanes whose access of n bytes from their offset covers byte o; the last of them is the highest. -/
def covering (x : Issue) (at_ : Nat → Nat) (n o : Nat) : List Nat :=
  x.act.filter (fun i => decide (at_ i ≤ o) && decide (o < at_ i + n))

/-- A shared-memory offset. -/
def slmAt (f : Fields) (x : Issue) (i : Nat) : Nat := ((x.lane i).reg f.srcA).toNat

/-- Every executing lane's shared-memory access of n bytes is aligned and within the allocation (R93). -/
abbrev SlmFits (f : Fields) (x : Issue) (n : Nat) : Prop :=
  ∀ i ∈ x.act, slmAt f x i % n = 0 ∧ slmAt f x i + n ≤ 1024 * x.grid.slmKib

/-- Only the lanes of w and its block's shared memory may differ. -/
def BlockOfW (w : Where) (d d' : Dev) : Prop :=
  d' = { d with blocks := d'.blocks } ∧ (∀ g n, ¬(g = w.grid ∧ n = w.block) → findBlock d' g n = findBlock d g n) ∧
  ∀ v i, v ≠ w → laneOf d' v i = laneOf d v i

/-- Bytes of a memory access of a size code. -/
def size (f : Fields) : Nat := 2 ^ fld f.imm 2 0

end Sys2Proof.Claims

/-- R93, R94, R96: LDS gives DST the bytes at the offset, zero-extended; STS stores each executing lane's bytes, the highest lane's
where lanes write one word, and leaves every other byte of shared memory; accesses that do not fit fault (InstructionFaults). -/
def Sys2Proof.Claims.SharedMemoryAccessPart : Prop :=
  ∀ (w : Where) (f : Fields) (s : State) (x : Issue), Claims.SlmFits f x (Claims.size f) →
    (Issues s w f 4 0x00 x → LaneResult (.lds w f) s w (fun i l l' => WritesRegs f x (sizeRegs (fld f.imm 2 0)) i l l'
      (leNat ((List.range (Claims.size f)).map (fun k => mget 0 x.block.slm (Claims.slmAt f x i + k)))))) ∧
    (Issues s w f 4 0x01 x → Completes (.sts w f) s (fun d => Claims.BlockOfW w s.m d ∧ EachLane w s.m d (MovesOn x) ∧
      ∃ b, findBlock d w.grid w.block = some b ∧ ∀ o, mget 0 b.slm o =
        match (Claims.covering x (Claims.slmAt f x) (Claims.size f) o).getLast? with
        | some i => (leBytes (Claims.size f) ((x.lane i).wide f.srcB (sizeRegs (fld f.imm 2 0)))).getD
            (o - Claims.slmAt f x i) 0
        | none => mget 0 x.block.slm o))

/-- R90-R93: ATOMS gives each executing lane what its word held once the operands of the lower lanes were applied; the word ends
with all of them applied in ascending lane order; other bytes stay. Scope BLOCK or wider empties the core's prefetch buffers. -/
def Sys2Proof.Claims.SharedMemoryAtomicsPart : Prop :=
  ∀ (w : Where) (f : Fields) (s : State) (x : Issue), Issues s w f 5 0x00 x →
    Claims.SlmFits f x (atomBytes (fld f.imm 11 9)) →
    (let n := atomBytes (fld f.imm 11 9)
     let off := Claims.slmAt f x
     let old := fun o => leNat ((List.range n).map (fun k => mget 0 x.block.slm (o + k)))
     Completes (.atoms w f) s (fun d =>
      (∀ v i, v ≠ w → laneOf d v i = laneOf s.m v i) ∧ Claims.BlockOnly w s.m d ∧
      EachLane w s.m d (fun i l l' => WritesRegs f x (n / 4) i l l'
        (Claims.atomAll f x (old (off i)) (x.act.filter (fun j => off j == off i && decide (j < i))))) ∧
      ∃ b, findBlock d w.grid w.block = some b ∧
        (∀ i ∈ x.act, leNat ((List.range n).map (fun k => mget 0 b.slm (off i + k))) =
          Claims.atomAll f x (old (off i)) (x.act.filter (fun j => off j == off i))) ∧
        ∀ o, (∀ i ∈ x.act, ¬(off i ≤ o ∧ o < off i + n)) → mget 0 b.slm o = mget 0 x.block.slm o))

namespace Sys2Proof.Claims

/-- Address in the pair SRC_A, and the local address it stands for (R96). -/
def addr (f : Fields) (x : Issue) (i : Nat) : Nat := (x.lane i).wide f.srcA 2
def local_ (f : Fields) (x : Issue) (i : Nat) : Nat := addr f x i % 2 ^ 49

/-- Every executing lane names local data memory of n bytes, aligned, granted, backed and not poisoned (R96, R295); the LLC is
settled, so that an eviction changes no byte. -/
abbrev LocalData (s : State) (f : Fields) (x : Issue) (k : Need) (n : Nat) : Prop :=
  ∀ i ∈ x.act, addr f x i % n = 0 ∧ (addr f x i / 2 ^ 49 = 0 ∨ addr f x i / 2 ^ 49 = devNo s.m) ∧
    inControl (local_ f x i) = false ∧ spaceStatus s.m (local_ f x i) n = ST.ok ∧
    grantedFor s.m x.grid.ctx k (local_ f x i) n = true ∧ poisonAt s.m (local_ f x i) = false ∧ s.m.mem.settled = true

/-- No executing lane's access of n bytes is held (R434). -/
abbrev NoneHeld (s : State) (f : Fields) (x : Issue) (n : Nat) : Prop := ∀ i ∈ x.act, Unheld s.m (local_ f x i) n

/-- What stores ask besides: the tandem store is not touched (R477), the backing CXL port is up (R280). -/
abbrev Writable (s : State) (f : Fields) (x : Issue) (n : Nat) : Prop :=
  ∀ i ∈ x.act, inTandemStore s.m (local_ f x i) n = false ∧ writeBarred s.m (local_ f x i) = false

end Sys2Proof.Claims

/-- R96, R434: LD of local memory gives DST the bytes that each executing lane's location reads as, zero-extended, when the core's
prefetchers hold nothing; all of memory stays. -/
def Sys2Proof.Claims.LocalLoadPart : Prop :=
  ∀ (w : Where) (f : Fields) (s : State) (x : Issue), Issues s w f 4 0x02 x → Claims.LocalData s f x Need.load (Claims.size f) →
    Claims.NoneHeld s f x (Claims.size f) → (mget Prefetcher.none s.m.mem.prefetch x.block.core).buffer = [] →
    Completes (.ld w f) s (fun d => LanesOnly w { s.m with mem := d.mem } d ∧ Claims.sameMem s.m.mem d.mem ∧
      EachLane w s.m d (fun i l l' => WritesRegs f x (sizeRegs (fld f.imm 2 0)) i l l'
        (leNat ((List.range (Claims.size f)).map (fun k => byteAt s.m (Claims.local_ f x i + k))))))

/-- R94, R96, R482: with no region loaded, ST to local memory stores each executing lane's bytes at its location, the highest
lane's where lanes store to the same byte; every other byte of memory and every register stays. -/
def Sys2Proof.Claims.LocalStorePart : Prop :=
  ∀ (w : Where) (f : Fields) (s : State) (x : Issue), Issues s w f 4 0x03 x →
    Claims.LocalData s f x Need.store (Claims.size f) → Claims.Writable s f x (Claims.size f) → s.m.seq.regions = [] →
    Completes (.st w f) s (fun d => LanesOnly w { s.m with mem := d.mem } d ∧ EachLane w s.m d (MovesOn x) ∧
      Claims.sameLines s.m.mem d.mem ∧
      ∀ a < 2 ^ 49, byteAt d a = match (Claims.covering x (Claims.local_ f x) (Claims.size f) a).getLast? with
        | some i => (leBytes (Claims.size f) ((x.lane i).wide f.srcB (sizeRegs (fld f.imm 2 0)))).getD
            (a - Claims.local_ f x i) 0
        | none => byteAt s.m a)

/-- R434: while a step is open, ST by one lane to a region writes the half that is not committed: the location reads as stored, the
other bytes of its region as before, and the committed half of every location keeps its bytes. -/
def Sys2Proof.Claims.StoreToShadowPart : Prop :=
  ∀ (w : Where) (f : Fields) (s : State) (x : Issue) (r : Shadow) (i : Nat), Issues s w f 4 0x03 x → x.act = [i] →
    Claims.LocalData s f x Need.store (Claims.size f) → Claims.Writable s f x (Claims.size f) → s.m.seq.regions = [r] →
    inStep s.m = true → r.base % 64 = 0 → r.half1 % 64 = 0 → r.length % 64 = 0 → r.base + r.length ≤ 2 ^ 49 →
    r.half1 + r.length ≤ 2 ^ 49 → (r.base + r.length ≤ r.half1 ∨ r.half1 + r.length ≤ r.base) → s.m.mem.lost = none →
    r.base ≤ Claims.local_ f x i → Claims.local_ f x i < r.base + r.length →
    (∀ c : Bool, poisoned s.m.mem (storeAt s.m.mem (halfAddr r c (Claims.local_ f x i)) / 64) = false) →
    (let a := Claims.local_ f x i
     Completes (.st w f) s (fun d =>
      (∀ k < Claims.size f, byteAt d (a + k) =
        (leBytes (Claims.size f) ((x.lane i).wide f.srcB (sizeRegs (fld f.imm 2 0)))).getD k 0) ∧
      (∀ b, r.base ≤ b → b < r.base + r.length → (b < a ∨ a + Claims.size f ≤ b) → byteAt d b = byteAt s.m b) ∧
      (∀ b, r.base ≤ b → b < r.base + r.length →
        cellAt d.mem (storeAt s.m.mem (halfAddr r (s.m.seq.half.contains (b / 64)) b)) =
          cellAt s.m.mem (storeAt s.m.mem (halfAddr r (s.m.seq.half.contains (b / 64)) b))) ∧
      d.seq.half = s.m.seq.half ∧ a / 64 ∈ d.seq.written))

/-- R434: a load, store or atomic of local data memory by which a lane reaches a shadowed line while the sequencer is COMMITTING
is held: nothing of it has happened, and its thread comes with it again (log entry 128). -/
def Sys2Proof.Claims.AccessHeldPart : Prop :=
  ∀ (w : Where) (f : Fields) (s : State) (x : Issue) (i : Nat), i ∈ x.act →
    (Issues s w f 4 0x02 x → Claims.LocalData s f x Need.load (Claims.size f) →
      (mget Prefetcher.none s.m.mem.prefetch x.block.core).buffer = [] → Held s.m (Claims.local_ f x i) (Claims.size f) →
      Becomes (.ld w f) s s.m) ∧
    (Issues s w f 4 0x03 x → Claims.LocalData s f x Need.store (Claims.size f) → Claims.Writable s f x (Claims.size f) →
      Held s.m (Claims.local_ f x i) (Claims.size f) → Becomes (.st w f) s s.m) ∧
    (Issues s w f 5 0x01 x → Claims.LocalData s f x Need.atomic (atomBytes (fld f.imm 11 9)) →
      Claims.Writable s f x (atomBytes (fld f.imm 11 9)) →
      Held s.m (Claims.local_ f x i) (atomBytes (fld f.imm 11 9)) → Becomes (.atom w f) s s.m)

/-- R91, R92, R122, R123: with no region loaded, ATOM on local memory gives each executing lane what its location held once the
operands of the lower lanes that name it were applied, and leaves the location with all of them applied; other bytes stay. -/
def Obligations.LocalAtomic : Prop :=
  ∀ (w : Where) (f : Fields) (s : State) (x : Issue), Issues s w f 5 0x01 x →
    Claims.LocalData s f x Need.atomic (atomBytes (fld f.imm 11 9)) → Claims.Writable s f x (atomBytes (fld f.imm 11 9)) →
    s.m.seq.regions = [] →
    (let n := atomBytes (fld f.imm 11 9)
     let loc := Claims.local_ f x
     Completes (.atom w f) s (fun d => LanesOnly w { s.m with mem := d.mem } d ∧
      Claims.sameLines s.m.mem d.mem ∧
      EachLane w s.m d (fun i l l' => WritesRegs f x (n / 4) i l l'
        (Claims.atomAll f x (leNat (bytesAt s.m (loc i) n)) (x.act.filter (fun j => loc j == loc i && decide (j < i))))) ∧
      (∀ i ∈ x.act, leNat (bytesAt d (loc i) n) =
        Claims.atomAll f x (leNat (bytesAt s.m (loc i) n)) (x.act.filter (fun j => loc j == loc i))) ∧
      ∀ a < 2 ^ 49, (∀ i ∈ x.act, ¬(loc i ≤ a ∧ a < loc i + n)) → byteAt d a = byteAt s.m a))

/-- R90-R94, R96: loads, stores and atomics of shared local memory. -/
def Obligations.SharedMemory : Prop := Claims.SharedMemoryAccessPart ∧ Claims.SharedMemoryAtomicsPart

/-- R94, R96, R434, R482: loads and stores of the device's own memory, to the half that is open for them, within and outside a
step, and while the sequencer is COMMITTING. -/
def Obligations.LocalLoadsAndStores : Prop :=
  Claims.LocalLoadPart ∧ Claims.LocalStorePart ∧ Claims.StoreToShadowPart ∧ Claims.AccessHeldPart

namespace Sys2Proof.Claims

/-- Every executing lane names another device, aligned to n bytes of its mapped ranges, under a LIVE context, and a link die works
(R96, R288, R293, R630); the operations of the group's earlier stores have lower numbers than the next one. -/
abbrev RemoteAccess (s : State) (f : Fields) (x : Issue) (n : Nat) : Prop :=
  ctxRefusal s.m x.grid.ctx = ST.ok ∧ useAny s.m linkDies = ST.ok ∧ (∀ p ∈ x.group.stores, p.op < s.m.tw.nextOp) ∧
  ∀ i ∈ x.act, addr f x i % n = 0 ∧ addr f x i / 2 ^ 49 ≠ 0 ∧ addr f x i / 2 ^ 49 ≠ devNo s.m ∧
    mapped (gLocal (addr f x i)) n = true

/-- The earlier remote stores and atomics of lane i, not yet acknowledged, that overlap n bytes at a (R114). -/
def earlier (x : Issue) (i a n : Nat) : List Nat :=
  (x.group.stores.filter (fun p => p.lane == i && decide (p.addr < a + n) && decide (a < p.addr + p.size))).map (fun p => p.op)

/-- Those, and the lane's earlier loads and atomics that have not returned and overlap the bytes (R113). -/
def before (x : Issue) (i a n : Nat) : List Nat :=
  earlier x i a n ++
  (x.group.awaits.filter (fun p => p.lane == i && decide (p.addr < a + n) && decide (a < p.addr + p.size))).map (fun p => p.op)

/-- The locations that the executing lanes name, each once, in the order of their lowest lanes, and the lanes that name one. -/
def places (f : Fields) (x : Issue) : List Nat := (x.act.map (addr f x)).eraseDups
def naming (f : Fields) (x : Issue) (a : Nat) : List Nat := x.act.filter (fun j => addr f x j == a)

/-- The operands of a list of lanes as the payload of a merged atomic carries them (log entry 10). -/
def operandBytes (f : Fields) (x : Issue) (ls : List Nat) : Bytes :=
  let n := atomBytes (fld f.imm 11 9)
  ls.flatMap (fun j => leBytes n ((x.lane j).wide f.srcB (n / 4)) ++
    (if fld f.imm 15 12 = 7 then leBytes n ((x.lane j).wide f.srcC (n / 4)) else []))

/-- The group of w after the instruction. -/
def groupAfter (w : Where) (d : Dev) (P : Group → Prop) : Prop := ∃ b g, findGroup d w = some (b, g) ∧ P g

/-- An operation that carries a thread's remote access from its core's thread slot (R304, R114, R355): one packet, or none
and ST_ACCESS or ST_PEER_LIMIT where its pages do not allow it. -/
structure Carries (s : State) (x : Issue) (kind : PktKind) (use : OpUse) (after : List Nat) (len : Nat) (op : FabOp) : Prop where
  use_ : op.use_ = use
  slot : op.slot = 8192 + x.block.core
  ctx : op.desc.ctx = x.grid.ctx
  epoch : op.epoch = (ctxOf s.m x.grid.ctx).epoch
  begun : op.begun = true
  after : op.after = after
  packets : (op.status = ST.ok ∧ op.fixed = false ∧ op.pkts.map (fun p => (p.kind, p.len, p.st)) = [(kind, len, .waiting)]) ∨
    ((op.status = ST.access ∨ op.status = ST.peerLimit) ∧ op.fixed = true ∧ op.pkts = [])

/-- Only the lanes and pending stores of w, the outstanding operations, counters, events and free draws may differ. -/
def OpsOnly (w : Where) (d d' : Dev) : Prop :=
  d' = { d with blocks := d'.blocks, od := d'.od, ev := d'.ev, free := d'.free,
                tw := { d.tw with ops := d'.tw.ops, nextOp := d'.tw.nextOp, seqs := d'.tw.seqs } } ∧
  LanesOnly w d { d with blocks := d'.blocks }

end Sys2Proof.Claims

/-- R72, R91, R92, R96, R108, R113, R114, R304, R317: LD and ST of another device issue one operation per executing lane in
ascending order (two of 8 bytes for 16), ATOM one per location that carries the operands of every lane that names it (log entry
10). A load or atomic is held behind the lane's earlier accesses to those bytes that have not come back, a store behind the lane's
stores and those of lower lanes to the same location. Every lane runs on, and the group notes what its registers wait for. -/
def Obligations.RemoteAccess : Prop :=
  ∀ (w : Where) (f : Fields) (s : State) (x : Issue),
    (let id := fun i => s.m.tw.nextOp + x.act.idxOf i
     let n := Claims.size f
     let a := Claims.addr f x
     (Issues s w f 4 0x02 x → n ≤ 8 → Claims.RemoteAccess s f x n → Completes (.ld w f) s (fun d => Claims.OpsOnly w s.m d ∧
      (∀ i ∈ x.act, ∃ op, mfind d.tw.ops (id i) = some op ∧
        Claims.Carries s x .read (.loadLane w) (Claims.before x i (a i) n) n op) ∧
      EachLane w s.m d (MovesOn x) ∧ Claims.groupAfter w d (fun g => g.stores = x.group.stores ∧ g.awaits = x.group.awaits ++
        x.act.map (fun i => { lane := i, addr := a i, size := n, reg := f.dst, regs := sizeRegs (fld f.imm 2 0), op := id i,
                              pc := x.pc, atomic := false })))) ∧
     (Issues s w f 4 0x03 x → n ≤ 8 → Claims.RemoteAccess s f x n → Completes (.st w f) s (fun d => Claims.OpsOnly w s.m d ∧
      (∀ i ∈ x.act, ∃ op, mfind d.tw.ops (id i) = some op ∧
        Claims.Carries s x .store (.storeLane w i)
          (Claims.earlier x i (a i) n ++ (x.act.filter (fun j => decide (j < i) && a j == a i)).map id) n op ∧
        word op.desc.words 2 = BitVec.ofNat 64 (leNat (leBytes n ((x.lane i).wide f.srcB (sizeRegs (fld f.imm 2 0)))))) ∧
      EachLane w s.m d (MovesOn x) ∧ Claims.groupAfter w d (fun g => g.awaits = x.group.awaits ∧
        g.stores = x.group.stores ++ x.act.map (fun i => { lane := i, addr := a i, size := n, op := id i })))) ∧
     (Issues s w f 5 0x01 x → Claims.RemoteAccess s f x (atomBytes (fld f.imm 11 9)) →
      (let k := atomBytes (fld f.imm 11 9)
       let at_ := fun b => s.m.tw.nextOp + (Claims.places f x).idxOf b
       Completes (.atom w f) s (fun d =>
        (∀ b ∈ Claims.places f x, ∃ op, mfind d.tw.ops (at_ b) = some op ∧
          Claims.Carries s x .atomic (.atomLane w) ((Claims.naming f x b).flatMap (fun j => Claims.before x j b k)) k op ∧
          (∀ i is, Claims.naming f x b = i :: is →
            word op.desc.words 2 = BitVec.ofNat 64 ((x.lane i).wide f.srcB (k / 4)) ∧ op.data = Claims.operandBytes f x is)) ∧
        d.tw.nextOp = s.m.tw.nextOp + (Claims.places f x).length ∧
        EachLane w s.m d (MovesOn x) ∧ Claims.groupAfter w d (fun g =>
          g.stores = x.group.stores ++ (Claims.places f x).flatMap (fun b => (Claims.naming f x b).map (fun j =>
            { lane := j, addr := b, size := k, op := at_ b })) ∧
          g.awaits = x.group.awaits ++ (Claims.places f x).flatMap (fun b => (Claims.naming f x b).map (fun j =>
            { lane := j, addr := b, size := k, reg := f.dst, regs := k / 4, op := at_ b, pc := x.pc, atomic := true })))))) ∧
     (Issues s w f 4 0x02 x → n = 16 → Claims.RemoteAccess s f x n → Completes (.ld w f) s (fun d => Claims.OpsOnly w s.m d ∧
      EachLane w s.m d (MovesOn x) ∧ Claims.groupAfter w d (fun g => g.awaits = x.group.awaits ++ x.act.flatMap (fun i =>
        [{ lane := i, addr := a i, size := 8, reg := f.dst, regs := 2, op := s.m.tw.nextOp + 2 * x.act.idxOf i, pc := x.pc,
           atomic := false },
         { lane := i, addr := a i + 8, size := 8, reg := if f.dst = 0xFF then 0xFF else f.dst + 2, regs := 2,
           op := s.m.tw.nextOp + 2 * x.act.idxOf i + 1, pc := x.pc, atomic := false }])))) ∧
     (Issues s w f 4 0x03 x → n = 16 → Claims.RemoteAccess s f x n → Completes (.st w f) s (fun d => Claims.OpsOnly w s.m d ∧
      EachLane w s.m d (MovesOn x) ∧ ∃ b g, findGroup d w = some (b, g) ∧ g.stores = x.group.stores ++ x.act.flatMap (fun i =>
        [{ lane := i, addr := a i, size := 8, op := s.m.tw.nextOp + 2 * x.act.idxOf i },
         { lane := i, addr := a i + 8, size := 8, op := s.m.tw.nextOp + 2 * x.act.idxOf i + 1 }]))))

namespace Sys2Proof.Claims

/-- Only the prefetch buffers of a core may differ in memory; they are empty where `drop` holds. -/
def Buffers (core : Nat) (drop : Bool) (d d' : Dev) : Prop :=
  d'.mem = { d.mem with prefetch := d'.mem.prefetch } ∧
  (∀ c, c ≠ core → mget Prefetcher.none d'.mem.prefetch c = mget Prefetcher.none d.mem.prefetch c) ∧
  mget Prefetcher.none d'.mem.prefetch core = (let p := mget Prefetcher.none d.mem.prefetch core
    if drop then { p with buffer := [] } else p)

/-- The remote stores and atomics of threads that no coherence point has acknowledged, those of ended blocks among them. -/
def unacked (d : Dev) : List Nat :=
  (d.tw.ops.filter (fun o => match o.2.use_ with | .storeLane _ _ => true | .atomLane _ => true | _ => false)).map (fun o => o.1)

/-- A release or both fence of kind k for an issue: it waits for what is unacknowledged at SYSTEM scope only (R115, R117); an
acquire side of BLOCK scope or wider drops what the core's prefetchers hold (R270). -/
def FenceResult (c : Instr) (s : State) (w : Where) (f : Fields) (x : Issue) (acquire : Bool) : Prop :=
  let waits : Bool := fld f.imm 1 0 == 3 && !(unacked s.m).isEmpty && !x.act.isEmpty
  Completes c s (fun d => Buffers x.block.core (acquire && decide (1 ≤ fld f.imm 1 0)) s.m d ∧
    LanesOnly w { s.m with mem := d.mem } d ∧
    EachLane w s.m d (fun i l l' => l'.st = (if waits && x.act.contains i then .waitFence else l.st) ∧
      l'.pc = (if i ∈ x.lanes then l.pc + 8 else l.pc) ∧ l'.regs = l.regs ∧ l'.preds = l.preds ∧ l'.stack = l.stack) ∧
    ∃ b g, findGroup d w = some (b, g) ∧ g.fences = x.group.fences ++
      (if waits then [{ lanes := x.act, ops := unacked s.m, acquires := acquire, status := ST.ok }] else []))

end Sys2Proof.Claims

/-- R97, R114, R115, R117, R118, R134: what the three kinds of FENCE do; a fence ends once every store it waits for is
acknowledged, with a group fault where one of them failed, and drops again what the core's prefetchers hold where it is an acquire
too; an acknowledgement takes its store off the pending ones, and an error goes to the fences that wait for it, else the group
keeps the first one (log entry 110). -/
def Sys2Proof.Claims.FencesAndAcknowledgementsPart : Prop :=
  (∀ (w : Where) (f : Fields) (s : State) (x : Issue),
    (Issues s w (fenceFields 0 f) 6 0x00 x → Completes (.fenceAcquire w f) s (fun d =>
      Claims.Buffers x.block.core (decide (1 ≤ fld f.imm 1 0)) s.m d ∧ LanesOnly w { s.m with mem := d.mem } d ∧
      EachLane w s.m d (MovesOn x))) ∧
    (Issues s w (fenceFields 1 f) 6 0x00 x → x.group.storeError = none → Claims.FenceResult (.fenceRelease w f) s w f x false) ∧
    (Issues s w (fenceFields 2 f) 6 0x00 x → x.group.storeError = none → Claims.FenceResult (.fenceBoth w f) s w f x true)) ∧
  (∀ (w : Where) (s : State) (b : Block) (g : Group), Calm s → findGroup s.m w = some (b, g) →
    ((∀ fw ∈ g.fences, ∃ i ∈ fw.ops, (mfind s.m.tw.ops i).isSome = true) → Becomes (.fenceComplete w) s s.m) ∧
    (∀ fw, g.fences = [fw] → (∀ i ∈ fw.ops, mfind s.m.tw.ops i = none) →
      (fw.status = ST.ok → Completes (.fenceComplete w) s (fun d => LanesOnly w { s.m with mem := d.mem } d ∧
        Claims.Buffers b.core fw.acquires s.m d ∧
        (∃ b' g', findGroup d w = some (b', g') ∧ g'.fences = []) ∧
        EachLane w s.m d (fun i l l' => l' = { l with st := if i ∈ fw.lanes ∧ l.st = .waitFence then .run else l.st }))) ∧
      (∀ l0 l ls, fw.status ≠ ST.ok → fw.lanes = l0 :: ls → g.lanes[l0]? = some l →
        Completes (.fenceComplete w) s (Claims.Faulted w b fw.status (l.pc - 8) fw.lanes [] s.m)))) ∧
  (∀ (w : Where) (s : State) (b : Block) (g : Group) (ix : Nat) (p : Pending) (op : FabOp) (i : Nat) (st : Status), Calm s →
    findGroup s.m w = some (b, g) → g.stores[ix]? = some p → mfind s.m.tw.ops p.op = some op → op.use_ = .storeLane w i →
    op.fixed = false → (∀ q ∈ op.pkts, q.st = .flying) →
    Completes (.storeAck w ix st) s (fun d => mfind d.tw.ops p.op = none ∧ d.mem = s.m.mem ∧ EachLane w s.m d (fun _ l l' => l' = l) ∧
      ∃ b' g', findGroup d w = some (b', g') ∧ g'.stores = g.stores.filter (fun q => q.op != p.op) ∧
        (let met := s.m.blocks.any (fun b => b.groups.any (fun g => g.fences.any (fun fw => fw.ops.contains p.op)))
         g'.storeError = (if st = ST.ok ∨ met = true then g.storeError else some (g.storeError.getD st)) ∧
         g'.fences = (if st = ST.ok then g.fences else g.fences.map (fun fw =>
           if fw.ops.contains p.op then { fw with status := if fw.status = ST.ok then st else fw.status } else fw)))))

/-- R118: the first store error of a group is delivered as a fault at its next release or both fence, barrier, counter wait,
posting instruction or EXIT, and counted, by an instruction that no lane executes too (log entry 9). -/
def Sys2Proof.Claims.DeferredStoreErrorDeliveredPart : Prop :=
  ∀ (w : Where) (f : Fields) (s : State) (x : Issue) (st : Status), x.group.storeError = some st →
    ∀ r ∈ [(Instr.fenceRelease w f, 6, 0x00, fenceFields 1 f), (.fenceBoth w f, 6, 0x00, fenceFields 2 f), (.exitLane w f, 7, 0x04, f),
      (.barGroup w f, 8, 0x00, f), (.barBlock w f, 8, 0x01, f), (.mxi w f, 0xB, 0x00, f), (.chi w f, 0xC, 0x00, f),
      (.fxi w f, 0xD, 0x00, f), (.waitc w f, 0xE, 0x00, f), (.waita w f, 0xE, 0x01, f)],
    Issues s w r.2.2.2 r.2.1 r.2.2.1 x →
    (r.2.1 = 8 → r.2.2.1 = 0 → ∀ i ∈ x.act, ((x.lane i).reg f.srcA).getLsbD i = true) →
    (r.2.1 = 8 → r.2.2.1 = 1 → (∀ i ∈ x.act, (x.lane i).reg f.srcA = 0) ∧
      ∀ l ∈ blockLanes x.block, ∀ k, barrierOf l ≠ some (.inr k)) →
    Completes r.1 s (fun d => rd d OD.deferredStoreErrors = (rd s.m OD.deferredStoreErrors + 1) % 2 ^ 64 ∧
      Claims.Faulted w x.block st x.pc x.lanes [] s.m d)

namespace Sys2Proof.Claims

/-- A counter less a value, modulo 2^32 as a signed number, is zero or positive (R100). -/
def counterReached (counter : Nat) (v : W32) : Bool := decide (0 ≤ (BitVec.ofNat 32 counter - v).toInt)

/-- The result of WAITC or WAITA: the lanes whose counter has reached their value go on, the others wait. -/
def WaitResult (c : Instr) (s : State) (w : Where) (x : Issue) (go : Nat → Bool) (st : Nat → LaneSt) : Prop :=
  Completes c s (fun d => Buffers x.block.core (x.act.any go) s.m d ∧ LanesOnly w { s.m with mem := d.mem } d ∧
    EachLane w s.m d (fun i l l' => l'.st = (if x.act.contains i && !go i then st i else l.st) ∧
      l'.pc = (if i ∈ x.lanes then l.pc + 8 else l.pc) ∧ l'.regs = l.regs ∧ l'.preds = l.preds ∧ l'.stack = l.stack))

end Sys2Proof.Claims

/-- R100, R101: WAITC and WAITA hold each executing lane until its counter reaches the value in SRC_A; the lanes that go on make
the core's prefetchers drop what they hold. -/
def Sys2Proof.Claims.CounterWaitsPart : Prop :=
  ∀ (w : Where) (f : Fields) (s : State) (x : Issue), x.group.storeError = none →
    (Issues s w f 0xE 0x00 x → Claims.WaitResult (.waitc w f) s w x
      (fun i => Claims.counterReached (x.block.cc.getD (fld f.imm 3 0) 0).toNat ((x.lane i).reg f.srcA))
      (fun i => .waitCc (fld f.imm 3 0) ((x.lane i).reg f.srcA) s.m.tick)) ∧
    (Issues s w f 0xE 0x01 x → Claims.WaitResult (.waita w f) s w x
      (fun i => Claims.counterReached (counterAt s.m (fld ((x.lane i).reg f.srcB) 15 0)) ((x.lane i).reg f.srcA))
      (fun i => .waitArr (fld ((x.lane i).reg f.srcB) 15 0) ((x.lane i).reg f.srcA) s.m.tick))

namespace Sys2Proof.Claims

/-- The status that a post of a matrix descriptor is answered with (R98, R150, R630). -/
def matrixStatus (s : State) (x : Issue) (a : Nat) : Status :=
  let w := wordsOf 16 (readMem s.m a 128).2
  if a % 128 ≠ 0 then ST.invalid else if (readMem s.m a 128).1 ≠ ST.ok then (readMem s.m a 128).1
  else
    let c := x.block.core / 8
    let u := engineUse s.m ((if takesSkate s.m w then 0x2000 else 0x1000) + c) c
    if u ≠ ST.ok then u
    else if mxMalformed w then ST.invalid else if !mxFormats w then ST.format else if mxTooLong w then ST.length
    else if mxDenied s.m x.grid.ctx w then ST.access else ST.ok

/-- The same for a chain descriptor (R98, R236). -/
def chainStatus (s : State) (x : Issue) (a : Nat) : Status :=
  let w := wordsOf 21 (readMem s.m a 168).2
  if a % 64 ≠ 0 then ST.invalid else if (readMem s.m a 168).1 ≠ ST.ok then (readMem s.m a 168).1
  else
    let u := engineUse s.m (0x3000 + x.block.core) (x.block.core / 8)
    if u ≠ ST.ok then u
    else if chMalformed w then ST.invalid else if chFormatBad w then ST.format
    else if (chInputs w).any tooLong || (chOutputs w).any tooLong then ST.length
    else if chDenied s.m x.grid.ctx w then ST.access else ST.ok

/-- What a post of one lane leaves: DST holds the status, the lane moves on, and nothing else of the threads changes. -/
def PostAnswer (f : Fields) (s : State) (w : Where) (x : Issue) (st : Status) (d : Dev) : Prop :=
  LanesOnly w { s.m with units := d.units, piste := d.piste, tw := d.tw } d ∧
  EachLane w s.m d (fun j l l' => WritesRegs f x 1 j l l' st.toNat)

/-- The lane stays at the instruction; the rest of each lane is as for any instruction. -/
def Stays (c : Instr) (s : State) (w : Where) (x : Issue) (i : Nat) : Prop :=
  LaneResult c s w (fun j l l' => l'.pc = (if j = i then x.pc else if j ∈ x.lanes then l.pc + 8 else l.pc) ∧
    l'.regs = l.regs ∧ l'.preds = l.preds ∧ l'.stack = l.stack ∧ l'.st = l.st)

end Sys2Proof.Claims

/-- R98, R99, R162, R310: a post by one executing lane writes the acceptance status to DST; only an accepted descriptor enters the
queue of its unit, engine or fabric queue. With the queue full every executing lane stays at the instruction. -/
def Obligations.PostingInstructions : Prop :=
  ∀ (w : Where) (f : Fields) (s : State) (x : Issue) (i : Nat), x.group.storeError = none → x.act = [i] →
    (Claims.addr f x i / 2 ^ 49 = 0 ∨ Claims.addr f x i / 2 ^ 49 = devNo s.m) →
    (let a := Claims.local_ f x i
     let by_ : Poster := { grid := w.grid, block := w.block, cc := fld f.imm 3 0, ctx := x.grid.ctx, step := x.grid.step,
                           mb := x.grid.mb }
     (Issues s w f 0xB 0x00 x →
      (let ws := wordsOf 16 (readMem s.m a 128).2
       let k := 2 * (x.block.core / 8) + (if takesSkate s.m ws then 1 else 0)
       let u := mget ExecUnit.empty s.m.units k
       (matrixFull x a s.m = false → Completes (.mxi w f) s (fun d =>
          Claims.PostAnswer f s w x (Claims.matrixStatus s x a) d ∧ d.tw = s.m.tw ∧ d.piste = s.m.piste ∧
          ∀ q, mget ExecUnit.empty d.units q = if q = k ∧ Claims.matrixStatus s x a = ST.ok
            then { u with queue := u.queue ++ [{ words := ws, by_ }] } else mget ExecUnit.empty s.m.units q)) ∧
       (matrixFull x a s.m = true → Claims.Stays (.mxi w f) s w x i))) ∧
     (Issues s w f 0xC 0x00 x →
      (let ws := wordsOf 21 (readMem s.m a 168).2
       let u := mget ExecUnit.empty s.m.piste x.block.core
       (u.queue.length < 4 → Completes (.chi w f) s (fun d =>
          Claims.PostAnswer f s w x (Claims.chainStatus s x a) d ∧ d.tw = s.m.tw ∧ d.units = s.m.units ∧
          ∀ q, mget ExecUnit.empty d.piste q = if q = x.block.core ∧ Claims.chainStatus s x a = ST.ok
            then { u with queue := u.queue ++ [{ words := ws, by_ }] } else mget ExecUnit.empty s.m.piste q)) ∧
       (4 ≤ u.queue.length → Claims.Stays (.chi w f) s w x i))) ∧
     (Issues s w f 0xD 0x00 x →
      (let k := 4 * x.block.core + fld f.imm 1 0
       let y := readFabDesc s.m a x.grid.ctx (.lane w.grid w.block) x.grid.step x.grid.mb
       ((queueOf s.m k).accepted.length < 64 → Completes (.fxi w f) s (fun d =>
          ∃ st, Claims.PostAnswer f s w x st d ∧ d.units = s.m.units ∧ d.piste = s.m.piste ∧
            (works s.m (computeFn x.block.core) = true → useAny s.m linkDies = ST.ok → st = fabAccept s.m a x.grid.ctx y) ∧
            (queueOf d k).accepted = (queueOf s.m k).accepted ++ (if st = ST.ok then [y] else []) ∧
            ∀ q, q ≠ k → queueOf d q = queueOf s.m q)) ∧
       (64 ≤ (queueOf s.m k).accepted.length →
          Claims.Stays (.fxi w f) s w x i))))

/-- R97, R114, R115, R117, R118, R134: fences, acknowledgements, and the delivery of an error of an earlier remote store. -/
def Obligations.FencesAndDeferredErrors : Prop := Claims.FencesAndAcknowledgementsPart ∧ Claims.DeferredStoreErrorDeliveredPart

/-- R86, R100, R101: waits for counters, and the end of a wait at its limit. -/
def Obligations.WaitsAndTheirLimits : Prop := Claims.WaitLimitPart ∧ Claims.CounterWaitsPart

namespace Sys2Proof.Claims

/-- A request that reaches its object: Hivan answers on the path, its session is open, it may write, and nothing locks it out. -/
structure Permitted (d : Dev) (p : Path) (key : Nat) (acc : Access) : Prop where
  answers : answers d p = true
  known : unknownSession d p = false
  right : mayWrite d p acc = true
  unlocked : lockedOut d key acc p = false

/-- The same with an owner that is READY or DEGRADED, or that takes writes while it starts (R568, R631). -/
structure Accepted (d : Dev) (p : Path) (key : Nat) (acc : Access) : Prop extends Permitted d p key acc where
  owner : ownerStatus d key false = ST.ok

/-- Only object values, Hivan's own state and what is sent may differ; the objects outside a list are as before. -/
def ObjectsOnly (keys : List Nat) (d d' : Dev) : Prop :=
  d' = { d with od := d'.od, hv := d'.hv, sent := d'.sent } ∧ ∀ k, k ∉ keys → rd d' k = rd d k

/-- The objects of the reported t_step_max, which a new setpoint or a moved rail reports anew (R43, R44). -/
def maxKeys : List Nat := [OD.stepMax, OD.stepMaxSource, OD.stepMaxPeak]

/-- The same where t_step_max is reported anew, with EV_2112 at a crossing: the events and its arming may differ besides. -/
def ReportOnly (keys : List Nat) (d d' : Dev) : Prop :=
  d' = { d with od := d'.od, hv := d'.hv, sent := d'.sent, ev := d'.ev, pow := { d.pow with limitArmed := d'.pow.limitArmed } } ∧
  ∀ k, k ∉ keys ++ maxKeys → rd d' k = rd d k

end Sys2Proof.Claims

/-- R38, R40, R10: a setpoint written in an authenticated session, 620 to 880 mV in steps of 5, is kept and in force down to the caps;
any other value is rejected with ST_INVALID, and any other path with ST_ACCESS, the setpoint unchanged. -/
def Sys2Proof.Claims.SupplySetpointWritePart : Prop :=
  objDefault OD.supplySetpoint = 750 ∧ ∀ (p : Path) (mv : Nat) (s : State), Calm s → answers s.m p = true → unknownSession s.m p = false →
    (Claims.Accepted s.m p OD.supplySetpoint .rws → 620 ≤ mv → mv ≤ 880 → mv % 5 = 0 →
      Completes (.supplySetpointWrite p mv) s (fun d => d.hv.replyStatus = ST.ok ∧ rd d OD.supplySetpoint = mv ∧
        rd d OD.setpointInForce = min (min mv (rd s.m OD.thermalCap)) (min (rd s.m OD.powerCap) s.m.pow.phaseCap) ∧
        Claims.ReportOnly [OD.supplySetpoint, OD.setpointInForce] s.m d)) ∧
    (authed s.m p = true → (mv < 620 ∨ 880 < mv ∨ mv % 5 ≠ 0) → Completes (.supplySetpointWrite p mv) s (fun d =>
      d.hv.replyStatus = ST.invalid ∧ Claims.ObjectsOnly [] s.m d)) ∧
    (authed s.m p = false → Completes (.supplySetpointWrite p mv) s (fun d =>
      d.hv.replyStatus = ST.access ∧ Claims.ObjectsOnly [] s.m d))

namespace Sys2Proof.Claims

/-- What is in force: the lowest of the written setpoint and the caps (R40, R598, R599, R610). -/
def inForce (d : Dev) : Nat :=
  min (min (rd d OD.supplySetpoint) (rd d OD.thermalCap)) (min (rd d OD.powerCap) d.pow.phaseCap)

/-- EV_2112 with the monitor as its detail. -/
def limitEvent (i : Nat) : Nat × Event := (16, { id := 0x2112, inst := 0, detail0 := i, details := [] })

end Sys2Proof.Claims

/-- R44: a setpoint that lowers the rails makes the reported t_step_max, at once, the calibrated guide model at the target and the
highest measured temperature where that is above the measured maximum; during the ramp and until the next window it stays so (log
entry 104). -/
def Sys2Proof.Claims.LoweringIsReportedAtOncePart : Prop :=
  (∀ (p : Path) (mv i : Nat) (x t y : ℚ) (s : State), Calm s → Claims.Accepted s.m p OD.supplySetpoint .rws → 620 ≤ mv → mv ≤ 880 →
    mv % 5 = 0 → largestReading s.m = some (i, x) → hottestDie s.m = some t →
    s.m.pow.loweredTo = none →
    (let v := min (min mv (rd s.m OD.thermalCap)) (min (rd s.m OD.powerCap) s.m.pow.phaseCap)
     0 < v → v < s.m.pow.rail → y = guideModel (mkRat v 1000) t * mkRat s.m.pow.ratioNum s.m.pow.ratioDen → x < y →
     Completes (.supplySetpointWrite p mv) s (fun d => rd d OD.stepMax = (f32OfRat y).toNat ∧ rd d OD.stepMaxSource = i))) ∧
  (∀ (delta i : Nat) (x t y : ℚ) (s : State), Calm s → s.m.pow.rail ≠ 0 → works s.m OD.readyThermal = true →
    largestReading s.m = some (i, x) → hottestDie s.m = some t → 0 < Claims.inForce s.m → Claims.inForce s.m < s.m.pow.rail →
    (∀ l, s.m.pow.loweredTo = some l → Claims.inForce s.m ≤ l) →
    y = guideModel (mkRat (Claims.inForce s.m) 1000) t * mkRat s.m.pow.ratioNum s.m.pow.ratioDen → x < y →
    Completes (.setpointRamp delta) s (fun d => rd d OD.stepMax = (f32OfRat y).toNat ∧ rd d OD.stepMaxSource = i))

/-- R39, R43, R45, R46, R62: the ramp moves the rails toward the setpoint in force by at most its step; a window keeps each reading and
reports the largest with the lowest monitor that has it, and EV_2112 at a crossing, armed again below the limit; a count of zero
fails a monitor; a tick. -/
def Sys2Proof.Claims.RampWindowAndTickPart : Prop :=
  (∀ (delta : Nat) (s : State), Calm s →
    (s.m.pow.rail ≠ 0 → works s.m OD.readyThermal = true → Completes (.setpointRamp delta) s (fun d =>
      d.pow.rail = (if s.m.pow.rail < Claims.inForce s.m then min (Claims.inForce s.m) (s.m.pow.rail + delta)
        else max (Claims.inForce s.m) (s.m.pow.rail - delta)) ∧
      d.pow.loweredTo = (if d.pow.rail < s.m.pow.rail then some (min d.pow.rail (s.m.pow.loweredTo.getD d.pow.rail))
        else s.m.pow.loweredTo) ∧
      rd d OD.supplyMeasured = d.pow.rail ∧ (∀ k, k ∉ OD.supplyMeasured :: Claims.maxKeys → rd d k = rd s.m k) ∧
      d = { s.m with od := d.od, ev := d.ev, pow := { s.m.pow with
        rail := d.pow.rail, loweredTo := d.pow.loweredTo, limitArmed := d.pow.limitArmed } })) ∧
    ((s.m.pow.rail = 0 ∨ works s.m OD.readyThermal = false) → Becomes (.setpointRamp delta) s s.m)) ∧
  (∀ (r : Nat → W32) (x : Nat → ℚ) (s : State), Calm s → (∀ i < 40, ratOf (r i) = some (x i)) → rd s.m OD.monitorFailed = 0 →
    (∀ die < 6, dieModel s.m die = none) → s.m.pow.rail ≤ Claims.inForce s.m →
    Completes (.monitorWindow ((List.range 40).map (fun i => some (r i)))) s (fun d =>
      (∀ i < 40, rd d (monitorKey i) = (r i).toNat) ∧
      ∃ j < 40, (∀ i < 40, x i ≤ x j) ∧ (∀ i < j, x i < x j) ∧ rd d OD.stepMaxSource = j ∧
        rd d OD.stepMax = (r j).toNat ∧
        rd d OD.stepMaxPeak = (if ratBits (rd s.m OD.stepMaxPeak) < x j then (r j).toNat else rd s.m OD.stepMaxPeak) ∧
        d.ev.raised = s.m.ev.raised ++
          (if ratBits (rd s.m OD.stepLimit) < x j ∧ s.m.pow.limitArmed = true then [Claims.limitEvent j] else []) ∧
        d.pow.limitArmed = (if x j < ratBits (rd s.m OD.stepLimit) then true
          else if ratBits (rd s.m OD.stepLimit) < x j then false else s.m.pow.limitArmed) ∧
        d.pow.loweredTo = none ∧ d.mem = s.m.mem ∧ d.hv = s.m.hv)) ∧
  (∀ (i : Nat) (rs : List (Option W32)) (s : State), Calm s → i < 40 → rs[i]? = some none →
    (rd s.m OD.monitorFailed).testBit i = false → Completes (.monitorWindow rs) s (fun d =>
      (rd d OD.monitorFailed).testBit i = true ∧
      (monitorPort i, ({ id := 0x2111, inst := i, detail0 := 0, details := [] } : Event)) ∈ d.ev.raised)) ∧
  (∀ s : State, Calm s → Completes .tick s (fun d => d.tick = s.m.tick + 1 ∧
    rd d OD.tickCount = (rd s.m OD.tickCount + 1) % 2 ^ 64 ∧
    rd d OD.thermalCapTime = (if rd s.m OD.thermalCap < 880 then (rd s.m OD.thermalCapTime + 1) % 2 ^ 64
      else rd s.m OD.thermalCapTime) ∧
    (∀ k, k ≠ OD.tickCount → k ≠ OD.thermalCapTime → rd d k = rd s.m k) ∧ d = { s.m with tick := d.tick, od := d.od }))

namespace Sys2Proof.Claims

/-- Words held by the packets of a FIFO. -/
def held (f : Fifo) : Nat := (f.packets.map (fun p => p.length)).sum

/-- What publishing a packet makes of a FIFO of a depth (R56, R57): one word always stays free for a gap marker. -/
def published (port : Nat) (trace : Bool) (depth : Nat) (p : List W64) (f : Fifo) : Fifo :=
  let marker : W64 := BitVec.ofNat 64 (0xF * 2 ^ 60 + port * 2 ^ 52 + (if trace then 2 ^ 48 else 0) +
    min f.dropPkts (2 ^ 24 - 1) * 2 ^ 24 + min f.dropWords (2 ^ 24 - 1))
  let g := if f.dropPkts = 0 then 0 else 1
  if held f + g + p.length + 1 ≤ depth
  then { packets := f.packets ++ (if g = 0 then [] else [[marker]]) ++ [p], dropPkts := 0, dropWords := 0 }
  else { f with dropPkts := f.dropPkts + 1, dropWords := f.dropWords + p.length }

/-- A trace packet of so many words: the first carries KIND 2 and LENGTH, one less than the words (R54). -/
def traceWords (ws : List W64) : List W64 :=
  BitVec.ofNat 64 (2 * 2 ^ 60 + (ws.length - 1) * 2 ^ 56 + fld (word ws 0) 55 0) :: ws.drop 1

end Sys2Proof.Claims

/-- R54-R59, R536: a die's oldest raised event enters its event FIFO of 512 words, and while capture is enabled a trace packet of 1 to
16 words its trace FIFO of 4,096; whole or not at all, drops counted, a gap marker first after drops. No other FIFO changes. That the
full flag is exact is the model's choice (R51; log entry 106). -/
def Obligations.PacketPublishing : Prop :=
  ∀ (port : Nat) (s : State), Calm s → port < 10 →
    (∀ pre e post, s.m.ev.raised = pre ++ [(port, e)] ++ post → (∀ q ∈ pre, q.1 ≠ port) → e.details.length ≤ 15 →
      Completes (.packetPublish port none) s (fun d => d.ev.raised = pre ++ post ∧
        (∀ q, mget Fifo.empty d.ev.events q = if q = port then Claims.published port false 512 (eventPacket e)
          (mget Fifo.empty s.m.ev.events port) else mget Fifo.empty s.m.ev.events q) ∧
        d = { s.m with ev := { s.m.ev with raised := d.ev.raised, events := d.ev.events } })) ∧
    ((∀ q ∈ s.m.ev.raised, q.1 ≠ port) → Becomes (.packetPublish port none) s s.m) ∧
    (∀ ws : List W64, 1 ≤ ws.length → ws.length ≤ 16 →
      ((rd s.m OD.traceEnable).testBit port = true → Completes (.packetPublish port (some ws)) s (fun d =>
        (∀ q, mget Fifo.empty d.ev.traces q = if q = port then Claims.published port true 4096 (Claims.traceWords ws)
          (mget Fifo.empty s.m.ev.traces port) else mget Fifo.empty s.m.ev.traces q) ∧
        d = { s.m with ev := { s.m.ev with traces := d.ev.traces } })) ∧
      ((rd s.m OD.traceEnable).testBit port = false → Becomes (.packetPublish port (some ws)) s s.m))

namespace Sys2Proof.Claims

/-- Arrival counter n has been raised by one, and only threads that waited for it and their cores' prefetch buffers are
affected besides (R121, R319). -/
def Raised (n : Nat) (d d' : Dev) : Prop :=
  (∀ k, counterAt d' k = if k = n then (counterAt d n + 1) % 2 ^ 64 else counterAt d k) ∧
  (∀ v i l, laneOf d v i = some l → ∃ l', laneOf d' v i = some l' ∧ l'.pc = l.pc ∧ l'.regs = l.regs ∧
    l'.st = match l.st with
      | .waitArr k x t => if k = n ∧ counterReached (counterAt d' n) x = true then .run else .waitArr k x t
      | o => o)

/-- A grid as its launch descriptor's four words state it (R66), just accepted. -/
structure IsLaunched (g : Grid) (ws : List W64) (step mb : Nat) : Prop where
  entry : g.entry = fld (word ws 0) 48 0
  blocks : g.blocks = fld (word ws 1) 31 0
  groups : g.blockGroups = fld (word ws 1) 37 32
  regs : g.regs = fld (word ws 1) 42 38
  slm : g.slmKib = fld (word ws 1) 51 43
  args : g.args = fld (word ws 2) 48 0
  ctx : g.ctx = fld (word ws 2) 54 49
  done_ : g.doneCounter = fld (word ws 3) 15 0
  cores : g.firstCore = fld (word ws 3) 26 16 ∧ g.lastCore = fld (word ws 3) 37 27
  work : g.step = step ∧ g.mb = mb
  fresh : g.next = 0 ∧ g.ended = 0 ∧ g.fault = none ∧ g.complete = false

/-- The cases of R67 on the words of a launch descriptor, but for the last: a block that cannot be resident. -/
abbrev badLaunch (ws : List W64) : Prop :=
  fld (word ws 0) 63 49 ≠ 0 ∨ fld (word ws 1) 63 52 ≠ 0 ∨ fld (word ws 2) 63 55 ≠ 0 ∨ fld (word ws 3) 63 38 ≠ 0 ∨
  fld (word ws 0) 48 0 % 8 ≠ 0 ∨ fld (word ws 1) 37 32 = 0 ∨ 32 < fld (word ws 1) 37 32 ∨ fld (word ws 1) 42 38 = 0 ∨
  256 < fld (word ws 1) 51 43 ∨ fld (word ws 3) 37 27 < fld (word ws 3) 26 16

end Sys2Proof.Claims

/-- R66-R70, R102, R293, R432: what a launch accepts or refuses, and that only a LAUNCH item of the loaded table posts one; where the
next block of a grid starts and with what state, when a grid ends and raises its counter, and that a legal word is no illegal
instruction. -/
def Obligations.GridsAndBlocks : Prop :=
  (∀ (addr mb : Nat) (s : State), Calm s → launchItemOf s.m addr mb = none → Becomes (.launch addr mb) s s.m) ∧
  (∀ (addr mb k : Nat) (it : ItemRun) (s : State), Calm s → launchItemOf s.m addr mb = some k → mfind s.m.seq.items k = some it →
    it.kind = 1 → it.addr = addr → it.mb = mb → mayBegin s.m it = true → (readMem s.m addr 32).1 = ST.ok →
    (let ws := wordsOf 4 (readMem s.m addr 32).2
     (launchStatus s.m ws = ST.ok → fld (word ws 1) 31 0 ≠ 0 → Completes (.launch addr mb) s (fun d =>
        d.nextGrid = s.m.nextGrid + 1 ∧ (∃ g, mfind d.grids s.m.nextGrid = some g ∧
          Claims.IsLaunched g ws (rd s.m OD.stepNumber) mb) ∧
        (∀ k, k ≠ s.m.nextGrid → mfind d.grids k = mfind s.m.grids k) ∧
        (∀ j, mfind d.seq.items j = (mfind s.m.seq.items j).map (fun i =>
          if j = k then { i with st := .begun, grid := some s.m.nextGrid } else i)) ∧
        d = { s.m with grids := d.grids, nextGrid := d.nextGrid, seq := { s.m.seq with items := d.seq.items } })) ∧
     (launchStatus s.m ws = ST.ok → fld (word ws 1) 31 0 = 0 → Completes (.launch addr mb) s (fun d =>
        Claims.Raised (fld (word ws 3) 15 0) s.m d ∧ d.grids = s.m.grids ∧
        mfind d.seq.items k = some { it with st := .done })) ∧
     ((Claims.badLaunch ws ∨ ctxRefusal s.m (fld (word ws 2) 54 49) ≠ ST.ok) → Completes (.launch addr mb) s (fun d =>
        mfind d.seq.items k = some { it with st := .done } ∧ d.seq.cause = max s.m.seq.cause 4 ∧
        d = { s.m with seq := { s.m.seq with items := d.seq.items, cause := d.seq.cause } })))) ∧
  (∀ (n core : Nat) (s : State) (g : Grid), Calm s → mfind s.m.grids n = some g →
    (mayStart s.m core g = true → Completes (.blockStart n core) s (fun d =>
      mfind d.grids n = some { g with next := g.next + 1 } ∧ (∀ k, k ≠ n → mfind d.grids k = mfind s.m.grids k) ∧
      (∃ b, d.blocks = s.m.blocks ++ [b] ∧ b.grid = n ∧ b.no = g.next ∧ b.core = core ∧ b.slm = [] ∧
        b.cc = List.replicate 16 0 ∧ b.groups.length = g.blockGroups ∧ ∀ q ∈ b.groups, q.lanes.length = 32 ∧
          ∀ l ∈ q.lanes, l.pc = g.entry ∧ l.st = .run ∧ l.stack = [] ∧ l.preds = List.replicate 7 false ∧
            l.regs = List.replicate (8 * g.regs) 0) ∧ d = { s.m with grids := d.grids, blocks := d.blocks })) ∧
    ((g.fault.isSome = true ∨ g.blocks ≤ g.next ∨ core < g.firstCore ∨ g.lastCore < core ∨
        works s.m (computeFn core) = false) → Becomes (.blockStart n core) s s.m) ∧
    (g.complete = false → g.ended = g.next → (g.fault.isSome = true ∨ g.next = g.blocks) →
      Completes (.gridComplete n) s (fun d => Claims.Raised g.doneCounter s.m d ∧
        mfind d.grids n = some { g with complete := true } ∧ ∀ k, k ≠ n → mfind d.grids k = mfind s.m.grids k)) ∧
    ((g.ended ≠ g.next ∨ (g.fault = none ∧ g.next ≠ g.blocks)) → Becomes (.gridComplete n) s s.m)) ∧
  (∀ (w : Where) (u : W64) (s : State) (x : Issue),
    Issues s w (fieldsOf u) (fld u 63 60) (fld u 59 52) x → Becomes (.illegalInstruction w u) s s.m)

/-- R10, R38-R40, R43-R45, R46, R62: the setpoint written, its ramp, the monitors' windows, and a tick. -/
def Obligations.SupplySetpoint : Prop :=
  Claims.SupplySetpointWritePart ∧ Claims.LoweringIsReportedAtOncePart ∧ Claims.RampWindowAndTickPart

namespace Sys2Proof.Claims

/-- The N3 wide order (R194): groups of 16 exact products, each exact sum rounded once, added with one rounding. -/
def wideOrder (a b : Nat → W32) (k : Nat) : W32 :=
  (List.range ((k + 15) / 16)).foldl (fun acc j =>
    rne32 (vadd (f32 acc) (f32 (rne32 (vsum ((List.range (min 16 (k - 16 * j))).map
      (fun i => vmul (f32 (a (16 * j + i))) (f32 (b (16 * j + i))))))))))  0

/-- The FP32 number at an address. -/
def f32At (d : Dev) (a : Nat) : W32 := BitVec.ofNat 32 (leNat (bytesAt d a 4))

/-- Address a lies in one of n rows of `len` bytes that start `ld` bytes apart. -/
def inRows (base ld len n a : Nat) : Prop := ∃ m < n, base + m * ld ≤ a ∧ a < base + m * ld + len

/-- A unit or engine can take its oldest descriptor `op`: it is idle, works, and is not fenced (R152, R509, R511, R514). -/
structure Ready (d : Dev) (u : ExecUnit) (engine cluster : Nat) (op : UnitOp) (rest : List UnitOp) : Prop where
  queue : u.queue = op :: rest
  idle : u.run = none
  use_ : engineUse d engine cluster = ST.ok

/-- Engine of a cluster's array or skate path. -/
def unitId (cluster : Nat) (skate : Bool) : Nat := (if skate then 0x2000 else 0x1000) + cluster
def unitAt (d : Dev) (cluster : Nat) (skate : Bool) : ExecUnit :=
  mget ExecUnit.empty d.units (2 * cluster + if skate then 1 else 0)

end Sys2Proof.Claims

/-- R142, R151, R152, R166: an idle unit takes its oldest descriptor; with M or N zero nothing is read or written; every byte outside
the rows of C and its scales stays; otherwise-started units stay. R194: the one element of a 1 by 1 FP32 product in N3 wide order. -/
def Sys2Proof.Claims.MatrixStartPart : Prop :=
  ∀ (c : Nat) (skate : Bool) (s : State) (op : UnitOp) (rest : List UnitOp), Calm s → MemoryOpen s.m → c < 256 →
    Claims.Ready s.m (Claims.unitAt s.m c skate) (Claims.unitId c skate) c op rest →
    (skate = true → ∀ r, (Claims.unitAt s.m c false).run = some r → r.checks = []) →
    (let w := op.words
     Completes (.matrixOpStart c skate false) s (fun d => (∃ r, r.op = op ∧
        Claims.unitAt d c skate = { queue := rest, run := some r } ∧
        (mxM w = 0 ∨ mxN w = 0 → r = UnitRun.fresh op ∧ d.mem = s.m.mem)) ∧
      (∀ k, k ≠ 2 * c + (if skate then 1 else 0) → mget ExecUnit.empty d.units k = mget ExecUnit.empty s.m.units k) ∧
      (s.m.seq.regions = [] → ∀ a < 2 ^ 49, ¬Claims.inRows (mxCAddr w) (mxLdC w) (rowBytes (mxC w) (mxN w)) (mxM w) a →
        ¬Claims.inRows (mxCScale w) (blocks32 (mxN w)) (blocks32 (mxN w)) (mxM w) a → byteAt d a = byteAt s.m a) ∧
      (mxM w = 1 → mxN w = 1 → mxMode w = 0 → mxA w = 0 → mxB w = 0 → mxC w = 0 → mxTransA w = false → mxTransB w = false →
        mxAccIn w = false → mxRnd w = false → s.m.seq.regions = [] → anyOverlap (mxInputs w) (mxOutputs w) = false →
        mxCAddr w % 4 = 0 → writeStatus s.m (mxCAddr w) 4 = ST.ok → writeBarred s.m (mxCAddr w) = false →
        (∀ a, poisonAt s.m a = false) →
        bytesAt d (mxCAddr w) 4 = leBytes 4 (Claims.wideOrder (fun k => Claims.f32At s.m (mxAAddr w + 4 * k))
          (fun k => Claims.f32At s.m (mxBAddr w + k * mxLdB w)) (mxK w)).toNat)))

/-- R160, R164: on the skate path the parts of C are 128 columns of up to 16 rows, the row groups in ascending order. A part that
meets poison or a failed write ends the operation, and nothing of it is written: the run's parts before it stand. -/
def Sys2Proof.Claims.MatrixPartsPart : Prop :=
  (∀ (w : List W64) (i : Nat), i < partCount true w →
    (let p := partAt true w i
     p.m0 = 16 * (i / ((mxN w + 127) / 128)) ∧ p.m1 = min (mxM w) (p.m0 + 16) ∧ p.n0 = 128 * (i % ((mxN w + 127) / 128)) ∧
     p.n1 = min (mxN w) (p.n0 + 128) ∧ p.m0 < p.m1 ∧ p.n0 < p.n1)) ∧
  (∀ (w : List W64) (m n : Nat) (skate : Bool), m < mxM w → n < mxN w →
    ∃ i < partCount skate w, let p := partAt skate w i
      p.m0 ≤ m ∧ m < p.m1 ∧ p.n0 ≤ n ∧ n < p.n1 ∧
      ∀ j < partCount skate w, (let q := partAt skate w j; q.m0 ≤ m ∧ m < q.m1 ∧ q.n0 ≤ n ∧ n < q.n1) → j = i) ∧
  (∀ (skate mixed : Bool) (before d : Dev) (r : UnitRun) (i : Nat), r.status = ST.ok →
    (let x := runPart skate mixed before (r, d) i
     x.1.status ≠ ST.ok → x.1.done = r.done ∧ x.1.checks = r.checks ∧ (d.mem.settled = true → x.2.mem.cells = d.mem.cells) ∧
       x.2.seq.written = d.seq.written))

namespace Sys2Proof.Claims

/-- Completion counter n of a resident block has been raised by one, and the threads that waited for it run on (R100). -/
def CcRaised (g no n : Nat) (d d' : Dev) : Prop :=
  ∀ b, findBlock d g no = some b → n < b.cc.length → ∃ b', findBlock d' g no = some b' ∧
    b'.cc.getD n 0 = BitVec.ofNat 32 ((b.cc.getD n 0).toNat + 1) ∧ (∀ k, k ≠ n → b'.cc[k]? = b.cc[k]?) ∧
    ∀ gi i l, laneOf d ⟨g, no, gi⟩ i = some l → ∃ l', laneOf d' ⟨g, no, gi⟩ i = some l' ∧
      l'.pc = l.pc ∧ l'.regs = l.regs ∧ l'.st = match l.st with
        | .waitCc k v t => if k = n ∧ counterReached (b'.cc.getD n 0).toNat v = true then .run else .waitCc k v t
        | o => o

/-- A counter has been raised by one where b holds, and is as before where not. -/
def Counted (key : Nat) (b : Bool) (d d' : Dev) : Prop := rd d' key = if b then (rd d key + 1) % 2 ^ 64 else rd d key

/-- The flags of an operation have joined its grid's numerics summary (R205). -/
def Summarised (r : UnitRun) (d d' : Dev) : Prop :=
  mfind d'.grids r.op.by_.grid = (mfind d.grids r.op.by_.grid).map (fun g =>
    { g with ovf := g.ovf || r.ovf, nan := g.nan || r.nan, inf := g.inf || r.inf })

def flag (b : Bool) (i : Nat) : Nat := if b then 2 ^ i else 0

/-- The two words of the record of a matrix operation (R154) and of a chain (R245). -/
def matrixRecord (skate : Bool) (r : UnitRun) : Bytes :=
  leBytes 8 (r.status.toNat + flag skate 16 + flag r.ovf 17 + flag r.inx 18 + flag r.nan 19 + flag r.inf 20 +
    min r.done (2 ^ 32 - 1) * 2 ^ 32) ++
  leBytes 8 (min r.ovfCount (2 ^ 32 - 1) + min r.nanInfCount (2 ^ 32 - 1) * 2 ^ 32)
def chainRecord (r : UnitRun) : Bytes :=
  leBytes 8 (r.status.toNat + flag r.ovf 16 + flag r.nan 17 + flag r.inf 18 + min r.done (2 ^ 32 - 1) * 2 ^ 32) ++
  leBytes 8 (min r.ovfCount (2 ^ 32 - 1) + min r.nanInfCount (2 ^ 32 - 1) * 2 ^ 32)

/-- A record of 16 bytes stands at an address, if one is asked for and its line can be written, and no other byte has changed. -/
def RecordAt (a : Nat) (bs : Bytes) (d d' : Dev) : Prop :=
  d.seq.regions = [] → (a ≠ 0 → a % 16 = 0 → writeStatus d a 16 = ST.ok → writeBarred d a = false → poisonAt d a = false →
    bytesAt d' a 16 = bs) ∧ ∀ b < 2 ^ 49, ¬(a ≠ 0 ∧ a ≤ b ∧ b < a + 16) → byteAt d' b = byteAt d b

/-- Events that the end of an operation raises on its compute die: an overflow, then a failure (R154, R164, R246). -/
def endEvents (r : UnitRun) (die inst ovf fail : Nat) : List (Nat × Event) :=
  (if r.ovf then [(die, ({ id := ovf, inst := inst, detail0 := 0, details := [] } : Event))] else []) ++
  (if r.status = ST.ok then [] else [(die, ({ id := fail, inst := inst, detail0 := 0, details := [] } : Event))])

end Sys2Proof.Claims

/-- R153, R154, R164, R205, R215: a running operation whose checks are served ends, with ST_OK by MATRIX_OP_COMPLETE and otherwise by
MATRIX_READ_POISON: the record is written, the counter raised, the summary joined, counts and events as stated. -/
def Sys2Proof.Claims.MatrixEndPart : Prop :=
  ∀ (c : Nat) (skate : Bool) (s : State) (r : UnitRun), Calm s → MemoryOpen s.m → (Claims.unitAt s.m c skate).run = some r →
    engineInReset s.m (Claims.unitId c skate) = false → clusterFenced s.m c = false →
    (r.checks = [] →
      Completes (if r.status = ST.ok then .matrixOpComplete c skate else .matrixReadPoison c skate) s (fun d =>
        Claims.unitAt d c skate = { queue := (Claims.unitAt s.m c skate).queue, run := none } ∧
        (∀ k, k ≠ 2 * c + (if skate then 1 else 0) → mget ExecUnit.empty d.units k = mget ExecUnit.empty s.m.units k) ∧
        Claims.RecordAt (mxRecord r.op.words) (Claims.matrixRecord skate r) s.m d ∧
        Claims.CcRaised r.op.by_.grid r.op.by_.block r.op.by_.cc s.m d ∧ Claims.Summarised r s.m d ∧
        (∀ k, k ∉ [OD.arrayOps, OD.skateOps, OD.overflowOps, OD.failedOps, OD.recordWriteFailures] → rd d k = rd s.m k) ∧
        Claims.Counted OD.skateOps skate s.m d ∧ Claims.Counted OD.arrayOps (!skate) s.m d ∧
        Claims.Counted OD.overflowOps r.ovf s.m d ∧
        Claims.Counted OD.failedOps (r.status != ST.ok) s.m d ∧
        (mxRecord r.op.words = 0 → d.ev.raised = s.m.ev.raised ++ Claims.endEvents r (c / 64) c 0x2431 0x2430))) ∧
    (r.checks ≠ [] → Becomes (.matrixOpComplete c skate) s s.m ∧ Becomes (.matrixReadPoison c skate) s s.m) ∧
    (∀ i rest, r.checks = i :: rest → engineInReset s.m (0x2000 + c) = false →
      (skate = false → ∀ q, (Claims.unitAt s.m c true).run = some q → q.checks ≠ []) → Completes (.tileCheck c skate) s (fun d =>
      Claims.unitAt d c skate = { Claims.unitAt s.m c skate with run := some { r with checks := rest } } ∧
      (rd d OD.slicesUnchecked = (rd s.m OD.slicesUnchecked + 1) % 2 ^ 64 ∧ rd d OD.slicesChecked = rd s.m OD.slicesChecked ∧
          rd d OD.sliceMismatches = rd s.m OD.sliceMismatches ∧ d.mem = s.m.mem ∨
       rd d OD.slicesChecked = (rd s.m OD.slicesChecked + 1) % 2 ^ 64 ∧ rd d OD.slicesUnchecked = rd s.m OD.slicesUnchecked ∧
          (rd d OD.sliceMismatches = rd s.m OD.sliceMismatches ∧ d.grids = s.m.grids ∨
           rd d OD.sliceMismatches = (rd s.m OD.sliceMismatches + 1) % 2 ^ 64 ∧ rd d OD.lastMismatchCluster = c ∧
             mfind d.grids r.op.by_.grid = (mfind s.m.grids r.op.by_.grid).map (fun g => { g with mismatch := true })))))

/-- R228, R237, R245-R247: an idle Piste engine takes its oldest descriptor, writes only its outputs, row scalars and scale record,
and ends like a matrix operation, by CHAIN_OP_COMPLETE with ST_OK and otherwise by CHAIN_READ_POISON. -/
def Obligations.ChainOperations : Prop :=
  (∀ (core : Nat) (s : State) (op : UnitOp) (rest : List UnitOp), Calm s → MemoryOpen s.m → core < 2048 →
    Claims.Ready s.m (mget ExecUnit.empty s.m.piste core) (0x3000 + core) (core / 8) op rest →
    (let w := op.words
     Completes (.chainOpStart core false) s (fun d => (∃ r, r.op = op ∧
        mget ExecUnit.empty d.piste core = { queue := rest, run := some r } ∧
        (chRows w = 0 ∨ chCols w = 0 → r = UnitRun.fresh op ∧ d.mem = s.m.mem)) ∧
      (∀ k, k ≠ core → mget ExecUnit.empty d.piste k = mget ExecUnit.empty s.m.piste k) ∧
      (s.m.seq.regions = [] → ∀ a < 2 ^ 49,
        ¬(chTap0 w ≠ 15 ∧ Claims.inRows (chOut0 w) (chLdOut0 w) (rowBytes (chFmtOut0 w) (chCols w)) (chRows w) a) →
        ¬(chTap1 w ≠ 15 ∧ Claims.inRows (chOut1 w) (chLdOut1 w) (rowBytes (chFmtOut1 w) (chCols w)) (chRows w) a) →
        ¬Claims.inRows (chOut0Scale w) (blocks32 (chCols w)) (blocks32 (chCols w)) (chRows w) a →
        ¬Claims.inRows (chRs w) (4 * chNrs w) (4 * chNrs w) (chRows w) a →
        ¬(chRec w ≤ a ∧ a < chRec w + 160) → byteAt d a = byteAt s.m a)))) ∧
  (∀ (core : Nat) (s : State) (r : UnitRun), Calm s → MemoryOpen s.m → (mget ExecUnit.empty s.m.piste core).run = some r →
    engineInReset s.m (0x3000 + core) = false → clusterFenced s.m (core / 8) = false →
    Completes (if r.status = ST.ok then .chainOpComplete core else .chainReadPoison core) s (fun d =>
      mget ExecUnit.empty d.piste core = { queue := (mget ExecUnit.empty s.m.piste core).queue, run := none } ∧
      (∀ k, k ≠ core → mget ExecUnit.empty d.piste k = mget ExecUnit.empty s.m.piste k) ∧
      Claims.RecordAt (chRecord r.op.words) (Claims.chainRecord r) s.m d ∧
      Claims.CcRaised r.op.by_.grid r.op.by_.block r.op.by_.cc s.m d ∧ Claims.Summarised r s.m d ∧
      (∀ k, k ∉ [OD.chainOps, OD.overflowChains, OD.failedChains, OD.recordWriteFailures] → rd d k = rd s.m k) ∧
      Claims.Counted OD.chainOps true s.m d ∧
      Claims.Counted OD.overflowChains r.ovf s.m d ∧
      Claims.Counted OD.failedChains (r.status != ST.ok) s.m d ∧
      (chRecord r.op.words = 0 → d.ev.raised = s.m.ev.raised ++ Claims.endEvents r (core / 512) core 0x2441 0x2440)))

/-- R142, R151-R154, R160, R164, R166, R205, R215: a matrix operation from its start to its record. -/
def Obligations.MatrixOperations : Prop := Claims.MatrixStartPart ∧ Claims.MatrixPartsPart ∧ Claims.MatrixEndPart

namespace Sys2Proof.Claims

/-- Events raised on the way, after those that were there. -/
def Raises (es : List (Nat × Event)) (d d' : Dev) : Prop := ∃ l, d'.ev.raised = d.ev.raised ++ l ∧ ∀ e ∈ es, e ∈ l

def ev (port id inst detail0 : Nat) (details : List Nat) : Nat × Event := (port, { id, inst, detail0, details })

/-- A function reports a state and a reason; a change of state is a transition and raises EV_2001 (R571, R572). -/
structure Reports (f : FunctionKey) (st reason : Nat) (d d' : Dev) : Prop where
  state : readyState d' f = st
  reason_ : readyReason d' f = reason
  count : readyCount d' f = if readyState d f = st then readyCount d f else (readyCount d f + 1) % 2 ^ 16
  event : readyState d f ≠ st → Raises [ev (readyPort f) 0x2001 0 (readyState d f * 2 ^ 24 + f) [rd d' f]] d d'

/-- The line of HBM a symbol-error pattern is decoded for, as its controller holds it. -/
def decoded (d : Dev) (l : Nat) (errs : List (Nat × BitVec 16)) : Decoded :=
  decodeLine (poisoned d.mem l) (cellsAt d.mem (64 * l) 64) errs

end Sys2Proof.Claims

/-- R260, R261, R263: a line stored without errors is delivered clean and the poison pattern as poison; a wrong symbol, data or check,
and two wrong symbols are corrected (on a line of rising bytes); three wrong symbols there are not. -/
def Sys2Proof.Claims.LineCodePart : Prop :=
  (∀ line : Bytes, line.length = 64 → decodeLine false line [] = .clean line) ∧ (∀ line : Bytes, decodeLine true line [] = .poison) ∧
  (let line : Bytes := (List.range 64).map (BitVec.ofNat 8)
   decodeLine false line [(35, 0x8001)] = .corrected 1 line ∧ decodeLine false line [(0, 0x0001)] = .corrected 1 line ∧
   decodeLine false line [(4, 0xFFFF), (20, 0x1234)] = .corrected 2 line ∧
   decodeLine false line [(4, 0x0001), (5, 0x0001), (6, 0x0001)] = .bad)

namespace Sys2Proof.Claims

/-- The line of a granule's place decodes without a correction, as the scrub reads HBM's own copy of it (R264). -/
def readsClean (m : MemState) (l : Nat) : Prop :=
  heldDirty m l = true ∨ (∃ b, decodeLine (hbmCopy m l).poison (hbmCopy m l).data [] = .clean b) ∨
  decodeLine (hbmCopy m l).poison (hbmCopy m l).data [] = .poison

/-- The bytes of every line but one are as before. -/
def otherLines (l : Nat) (d d' : Dev) : Prop := ∀ a, (a < 64 * l ∨ 64 * l + 64 ≤ a) → cellAt d'.mem a = cellAt d.mem a

end Sys2Proof.Claims

/-- R261-R265, R268: what reading a line from HBM does where no slice and no queue holds it: a codeword, its own or another, is
delivered to its slice with HBM's copy as it was; poison reads as poison; a corrected line is written back; an uncorrectable one is
poison. A granule is retired at its place, and stands in the table once its copy is done. The scrub. -/
def Sys2Proof.Claims.HbmReadsPart : Prop :=
  (∀ (addr : Nat) (errs : List (Nat × BitVec 16)) (s : State), Calm s → MemoryOpen s.m →
    (let l := addr / 64
     let p := physGranule s.m.mem (l / 4)
     (inLlc s.m.mem l = true ∨ queued s.m.mem l = true ∨ cxlEnd ≤ addr → ∀ od, Becomes (.hbmRead addr errs od) s s.m) ∧
     (addr < reserveEnd → inLlc s.m.mem l = false → queued s.m.mem l = false → makeRoom (setKey (64 * l)) s.m.mem ≠ none →
      (∀ b, Claims.decoded s.m l errs = .clean b →
        Completes (.hbmRead addr errs false) s (fun d => inLlc d.mem l = true ∧ cellsAt d.mem (64 * l) 64 = b ∧
          poisoned d.mem l = false ∧ hbmCopy d.mem l = copyOf s.m.mem l ∧ Claims.otherLines l s.m d ∧
          d = { s.m with mem := d.mem })) ∧
      (Claims.decoded s.m l errs = .poison →
        Completes (.hbmRead addr errs false) s (fun d => inLlc d.mem l = true ∧ poisoned d.mem l = true ∧
          d.mem.cells = s.m.mem.cells ∧ d = { s.m with mem := d.mem })) ∧
      (∀ b, Claims.decoded s.m l errs = .corrected 1 b → 1 < rd s.m OD.retireCount → s.m.mem.corrected = [] →
        Completes (.hbmRead addr errs false) s (fun d => cellsAt d.mem (64 * l) 64 = b ∧ poisoned d.mem l = false ∧
          Claims.otherLines l s.m d ∧ inLlc d.mem l = true ∧
          d.mem.corrected = [(p, [s.m.tick])] ∧ Claims.Counted OD.linesCorrected true s.m d)) ∧
      (∀ b g, Claims.decoded s.m l errs = .corrected 2 b → s.m.mem.retired = [] → nextSpare s.m.mem = some g →
        Completes (.hbmRead addr errs false) s (fun d => Claims.Counted OD.linesCorrected true s.m d ∧
          d.mem.retired = [{ granule := p, spare := g, done := false }] ∧ d.ev = s.m.ev)) ∧
      (Claims.decoded s.m l errs = .bad → Completes (.hbmRead addr errs false) s (fun d =>
          poisoned d.mem l = true ∧ d.mem.cells = s.m.mem.cells ∧ Claims.Counted OD.linesPoisoned true s.m d ∧
          d.ev.raised = s.m.ev.raised ++
            [Claims.ev (controllerPort (pcOf (256 * p) / 32)) 0x2802 (pcOf (256 * p) / 32) 0 [64 * l]]))))) ∧
  (∀ (p : Nat) (s : State), Calm s →
    ((∀ r ∈ s.m.mem.retired, r.granule = p → r.done = true) → Becomes (.granuleRetireDone p) s s.m) ∧
    (∀ r ∈ s.m.mem.retired, r.granule = p → r.done = false → Completes (.granuleRetireDone p) s (fun d =>
      d.mem = { s.m.mem with retired := s.m.mem.retired.map (fun r => if r.granule = p then { r with done := true } else r) } ∧
      Claims.Counted (OD.granulesRetired + pcOf (256 * p) / 32) true s.m d ∧
      Claims.Raises [Claims.ev (controllerPort (pcOf (256 * p) / 32)) 0x2803 (pcOf (256 * p) / 32) 0 []] s.m d))) ∧
  (∀ (s : State), Calm s →
    (works s.m OD.readyHbm = false → ∀ reads, Becomes (.scrubGranule reads) s s.m) ∧
    (works s.m OD.readyHbm = true →
      (∀ g, heldAt s.m.mem s.m.mem.scrubNext = some g → ∀ i < 4, Claims.readsClean s.m.mem (4 * g + i)) →
      Becomes (.scrubGranule []) s { s.m with mem := { s.m.mem with
        scrubNext := (s.m.mem.scrubNext + 1) % (reserveEnd / 256) } }))

/-- R259, R267, R269, R273, R280: a lost die, its re-homing with and without enough reserve, and a second loss; an LLC error that
poisons a line, disables a way or loses a slice; a line a confirmed stream wants enters its core's buffer; a combining queue gives
up a line, not one of a port that is down. -/
def Sys2Proof.Claims.MemoryFaultsAndQueuesPart : Prop :=
  (∀ (stack die : Nat) (s : State), Calm s → inStep s.m = false →
    (s.m.mem.lost = none → Becomes (.dieLoss stack die true) s
      { s.m with mem := { s.m.mem with lost := some (16 * stack + die), rehoming := true, healed := [], lostPoison := true } }) ∧
    (∀ y, s.m.mem.lost = some y → y ≠ 16 * stack + die → Completes (.dieLoss stack die true) s (fun d =>
      Claims.Reports OD.readyHbm RS.failed 4 s.m d ∧ d.mem = s.m.mem)) ∧
    (∀ y, s.m.mem.lost = some y → s.m.mem.rehoming = true →
      (2 ^ 25 ≤ reserveLeft s.m.mem y ∧ works s.m OD.readyHbm = true ∨ reserveLeft s.m.mem y < 2 ^ 25) →
      Completes .dieRehomeDone s (fun d =>
        (if reserveLeft s.m.mem y < 2 ^ 25 then Claims.Reports OD.readyHbm RS.failed 4 s.m d
         else Claims.Reports OD.readyHbm RS.degraded 2 s.m d) ∧
        rd d OD.lostDie = y ∧ d.mem = { s.m.mem with rehoming := false } ∧
        Claims.Raises [Claims.ev (controllerPort (y / 16)) 0x2804 (y / 16) (y % 2 ^ 28) []] s.m d)) ∧
    (s.m.mem.rehoming = false → Becomes .dieRehomeDone s s.m)) ∧
  (∀ (addr way : Nat) (s : State), Calm s → s.m.mem.settled = true →
    (let key := 16 * setKey (64 * (addr / 64)) + way
     (inLlc s.m.mem (addr / 64) = true → way < 12 →
       Completes (.llcEccError addr way .double) s (fun d =>
         poisoned d.mem (storeAt s.m.mem (64 * (addr / 64)) / 64) = true ∧ d.mem.cells = s.m.mem.cells ∧
         d = { s.m with mem := d.mem }) ∧
       (key ∉ s.m.mem.llcOff → mget [] s.m.mem.llcErrs key = [] → Completes (.llcEccError addr way .single) s (fun d =>
         mget [] d.mem.llcErrs key = [s.m.tick] ∧ d = { s.m with mem := { s.m.mem with llcErrs := d.mem.llcErrs } })) ∧
       (∀ t, key ∉ s.m.mem.llcOff → mget [] s.m.mem.llcErrs key = [t] → s.m.tick ≤ t + rd s.m OD.retireWindow * 1000000 →
         Completes (.llcEccError addr way .single) s (fun d => key ∈ d.mem.llcOff ∧ Claims.Counted OD.llcWaysDisabled true s.m d ∧
           d.mem.cells = s.m.mem.cells ∧ Claims.Raises [Claims.ev (4 + key / 16 / 4096 / 64) 0x2810 (key / 16 / 4096) 0 []] s.m d))) ∧
     (zone addr = .hbm ∨ zone addr = .reserve ∨ zone addr = .cxl → Completes (.llcEccError addr way .unreadable) s (fun d =>
       Claims.Reports OD.readyMemory RS.failed 4 s.m d ∧ d.mem.cells = s.m.mem.cells ∧
       ∀ e ∈ s.m.mem.llc, if sliceOf (64 * e.line) = sliceOf addr
         then e ∉ d.mem.llc ∧ (e.dirty = true → poisoned d.mem (storeAt s.m.mem (64 * e.line) / 64) = true) else e ∈ d.mem.llc)))) ∧
  (∀ (core l : Nat) (s : State), Calm s → MemoryOpen s.m →
    (let p := mget Prefetcher.none s.m.mem.prefetch core
     let wants := ∃ t ∈ p.trackers, 2 ≤ t.hits ∧ ∃ k, 1 ≤ k ∧ k ≤ rd s.m OD.prefetchDistance ∧ (l : Int) = t.last + t.stride * k
     (wants → (readMem s.m (64 * l) 64).1 = ST.ok → (∀ b ∈ p.buffer, b.line ≠ l) → Completes (.prefetchFill core l) s (fun d =>
       mget Prefetcher.none d.mem.prefetch core =
         { p with buffer := ({ line := l, data := bytesAt s.m (64 * l) 64 } :: p.buffer).take 64 } ∧
       (∀ c, c ≠ core → mget Prefetcher.none d.mem.prefetch c = mget Prefetcher.none s.m.mem.prefetch c) ∧
       d = { s.m with mem := { s.m.mem with llc := d.mem.llc, prefetch := d.mem.prefetch } })) ∧
     ((¬wants ∨ (readMem s.m (64 * l) 64).1 ≠ ST.ok) → Becomes (.prefetchFill core l) s s.m))) ∧
  (∀ (line : Nat) (needed : Bool) (s : State), Calm s → Becomes (.combineWriteback line needed) s
    { s.m with mem := { s.m.mem with
      combining := s.m.mem.combining.filter (fun q => q.line != line || pinned s.m.mem q.line) } })

/-- R276, R277, R280, R283, R393: a CXL port that times out goes down; a training brings it up again with the same expander, fails it
with another, or is its first, each with its link state; an expander that has not kept its contents reads as zero (log entry 6); a
port down for CxlFailTime fails and its lines leave the LLC. -/
def Sys2Proof.Claims.CxlPortsPart : Prop :=
  ∀ (e : Nat) (s : State) (x : CxlPort), Calm s → mget CxlPort.none s.m.mem.cxl e = x →
    (x.st = .up → Completes (.cxlTimeout e) s (fun d =>
      mget CxlPort.none d.mem.cxl e = { x with st := .down, downSince := s.m.tick, lastTrain := s.m.tick } ∧
      Claims.Reports (edgeFn e) RS.degraded 4 s.m d ∧ Claims.Raises [Claims.ev (8 + e) 0x2820 e 0 []] s.m d ∧
      rd d (OD.edgeLinkState + e) = 0 ∧ d.mem.cells = s.m.mem.cells)) ∧
    (x.st ≠ .up → Becomes (.cxlTimeout e) s s.m) ∧
    (∀ cap ser lat rate width kept, x.st = .off → edgeRoleOf s.m e = 2 → readyState s.m (edgeFn e) ≠ RS.absent →
      Completes (.cxlRetrain e true ⟨cap, ser, lat, kept⟩ rate width) s (fun d => mget CxlPort.none d.mem.cxl e =
          { st := .up, capacity := cap, serial := ser, downSince := 0, lastTrain := s.m.tick } ∧
        rd d (OD.cxlCapacity + e) = cap ∧ rd d (OD.cxlExpanderLatency + e) = lat ∧
        rd d (OD.edgeLinkState + e) = 2 + rate % 8 * 2 ^ 3 + width % 32 * 2 ^ 6 ∧
        (kept = true → d.mem.cells = s.m.mem.cells) ∧
        (kept = false → s.m.mem.llc = [] → s.m.mem.combining = [] → ∀ p, cellAt d.mem p =
          if cxlStore e ≤ p ∧ p < cxlStore (e + 1) then 0 else cellAt s.m.mem p))) ∧
    (∀ lat rate width, x.st = .down → x.lastTrain + 100000 ≤ s.m.tick →
      Completes (.cxlRetrain e true ⟨x.capacity, x.serial, lat, true⟩ rate width) s (fun d =>
      mget CxlPort.none d.mem.cxl e = { x with st := .up, lastTrain := s.m.tick } ∧
      Claims.Reports (edgeFn e) RS.ready 0 s.m d ∧ rd d (OD.cxlExpanderLatency + e) = lat ∧ d.mem.cells = s.m.mem.cells ∧
      (∀ q ∈ d.mem.llc, behindPort s.m.mem e q.line = true → q.dirty = false) ∧
      (∀ q ∈ d.mem.combining, behindPort s.m.mem e q.line = false) ∧
      Claims.Raises [Claims.ev (8 + e) 0x2821 e 0 []] s.m d)) ∧
    (∀ tr cap ser lat rate width kept, x.st = .down → s.m.tick < x.lastTrain + 100000 →
      Becomes (.cxlRetrain e tr ⟨cap, ser, lat, kept⟩ rate width) s s.m) ∧
    (∀ cap ser lat rate width kept, x.st = .down → x.lastTrain + 100000 ≤ s.m.tick → (cap ≠ x.capacity ∨ ser ≠ x.serial) →
      Completes (.cxlRetrain e true ⟨cap, ser, lat, kept⟩ rate width) s (fun d => (mget CxlPort.none d.mem.cxl e).st = .failed ∧
        Claims.Reports (edgeFn e) RS.failed 4 s.m d)) ∧
    (x.st = .down → x.downSince + rd s.m OD.cxlFailTime ≤ s.m.tick → Completes (.cxlFailTime e) s (fun d =>
      mget CxlPort.none d.mem.cxl e = { x with st := .failed } ∧ Claims.Reports (edgeFn e) RS.failed 4 s.m d ∧
      Claims.Raises [Claims.ev (8 + e) 0x2822 e 0 []] s.m d ∧ (∀ q ∈ d.mem.llc, behindPort s.m.mem e q.line = false) ∧
      ∀ q ∈ d.mem.combining, behindPort s.m.mem e q.line = false)) ∧
    ((x.st ≠ .down ∨ s.m.tick < x.downSince + rd s.m OD.cxlFailTime) → Becomes (.cxlFailTime e) s s.m)

namespace Sys2Proof.Claims

/-- An element operation: command, bytes of an operand and of a target element, new target value. -/
structure AccRow where
  cmd : Nat → Bytes → Instr
  operand : Nat
  target : Nat
  val : Nat → Nat → Nat

/-- The accumulate codes (R271, R272) and the slot codes (R398). -/
def accRows : List AccRow :=
  let wide := fun (f : Fmt) (x : Nat) => f32 (rne32 (decode f x))
  let f := fun (x : Nat) => BitVec.ofNat 32 x
  [⟨.accAddI32, 4, 4, fun o x => (o + x) % 2 ^ 32⟩, ⟨.accAddI64, 8, 8, fun o x => (o + x) % 2 ^ 64⟩,
   ⟨.accAddF32, 4, 4, fun o x => (rne32 (vadd (f32 (f o)) (f32 (f x)))).toNat⟩,
   ⟨.accAddBf16, 2, 4, fun o x => (rne32 (vadd (f32 (f o)) (wide .bf16 x))).toNat⟩,
   ⟨.accAddFp16, 2, 4, fun o x => (rne32 (vadd (f32 (f o)) (wide .fp16 x))).toNat⟩,
   ⟨.accMaxF32, 4, 4, fun o x => (fmax (f o) (f x)).toNat⟩, ⟨.accMinF32, 4, 4, fun o x => (fmin (f o) (f x)).toNat⟩,
   ⟨.slot8L, 1, 1, fun _ x => x⟩, ⟨.slot8R, 1, 1, fun _ x => x⟩,
   ⟨.slot16L, 2, 4, fun _ x => (rne32 (decode .bf16 x)).toNat⟩, ⟨.slot16R, 2, 4, fun _ x => (rne32 (decode .bf16 x)).toNat⟩,
   ⟨.slot32L, 4, 4, fun _ x => x⟩, ⟨.slot32R, 4, 4, fun _ x => x⟩]

end Sys2Proof.Claims

/-- R271, R272, R275, R398: an accumulate or slot write of whole elements at an aligned address combines each operand with the
element it reaches, in place, and leaves every other byte; one that is misaligned or has a part of an element does nothing. -/
def Obligations.ElementOperations : Prop :=
  ∀ r ∈ Claims.accRows, ∀ (addr : Nat) (bs : Bytes) (s : State), Calm s →
    (let n := bs.length / r.operand
     (addr % r.target ≠ 0 ∨ bs.length % r.operand ≠ 0 → Becomes (r.cmd addr bs) s s.m) ∧
     (addr % r.target = 0 → bs.length % r.operand = 0 → s.m.seq.regions = [] → s.m.mem.settled = true → writeStatus s.m addr (n * r.target) = ST.ok →
      (∀ a, addr ≤ a → a < addr + n * r.target → poisonAt s.m a = false ∧ writeBarred s.m a = false) →
      Completes (r.cmd addr bs) s (fun d =>
        (∀ i < n, leNat (bytesAt d (addr + r.target * i) r.target) =
          r.val (leNat (bytesAt s.m (addr + r.target * i) r.target)) (leNat ((bs.drop (r.operand * i)).take r.operand))) ∧
        (∀ a < 2 ^ 49, (a < addr ∨ addr + n * r.target ≤ a) → byteAt d a = byteAt s.m a) ∧
        d = { s.m with mem := { s.m.mem with cells := d.mem.cells, llc := d.mem.llc, combining := d.mem.combining } })))

/-- R260-R265: the code of a line, and reads of HBM with errors within, at and beyond what it corrects. -/
def Obligations.LinesOfHbm : Prop := Claims.LineCodePart ∧ Claims.HbmReadsPart

/-- R259, R267, R269, R273, R276, R277, R280: faults of slices and dies, the scrubber, the queues, and the CXL ports. -/
def Obligations.MemoryFaultsAndCxl : Prop := Claims.MemoryFaultsAndQueuesPart ∧ Claims.CxlPortsPart

namespace Sys2Proof.Claims

/-- Only objects, Hivan's own state, what is sent, events and what f lists may differ from d. -/
def Replied (d d' : Dev) : Prop := d' = { d with od := d'.od, odBytes := d'.odBytes, hv := d'.hv, sent := d'.sent, ev := d'.ev }

/-- A command written to its object and accepted is answered ST_OK, its STATUS reads as given, and P holds of the device (R554). -/
def Commanded (c : Instr) (s : State) (p : Path) (key : Nat) (acc : Access) (st : Status) (P : Dev → Prop) : Prop :=
  Accepted s.m p key acc → commandPending s.m key = false →
    Completes c s (fun d => d.hv.replyStatus = ST.ok ∧ commandStatus d key = st.toNat ∧ P d)

/-- A write that reaches its object is refused with a status and changes nothing; a refusal with ST_STATE is counted (R555). While
another command of the object is pending the status is ST_STATE, unless the encoding is refused. -/
def TurnedAway (c : Instr) (s : State) (p : Path) (key : Nat) (acc : Access) (st : Status) (es : List (Nat × Event)) : Prop :=
  Accepted s.m p key acc → (commandPending s.m key = false ∨ st = ST.state ∨ st = ST.invalid ∨ st = ST.length) →
    Completes c s (fun d => d.hv.replyStatus = st ∧ Replied s.m d ∧ d.odBytes = s.m.odBytes ∧
    (∀ k, k ≠ OD.stateRefusals → rd d k = rd s.m k) ∧ Counted OD.stateRefusals (st == ST.state) s.m d ∧ Raises es s.m d)

/-- EV_3004 (R292). -/
def ctxEvent (c : Nat) (x : Ctx) : Nat × Event := ev 8 0x3004 0 ((c + ctxCode x.st * 2 ^ 8 + x.epoch * 2 ^ 10) % 2 ^ 28) []

/-- Context c has become x, with its event, and every other context is as before. -/
def CtxBecomes (c : Nat) (x : Ctx) (d d' : Dev) : Prop :=
  ctxOf d' c = x ∧ (∀ k, k ≠ c → ctxOf d' k = ctxOf d k) ∧ Raises [ctxEvent c x] d d'

end Sys2Proof.Claims

/-- R290, R291, R292, R295, R356: the four states of a context and what moves it from one to the next; the teardown takes its accepted
descriptors from every queue, then its table entries, regions and epoch; a region write outside DRAINING and QUIET. -/
def Obligations.ContextLifecycle : Prop :=
  ∀ (p : Path) (c : Nat) (s : State) (x : Ctx), Calm s → c < 64 → ctxOf s.m c = x →
    (x.st = .free → Claims.Commanded (.create p c false) s p OD.contextCommand .rws ST.ok (fun d =>
      Claims.CtxBecomes c { x with st := .live, since := s.m.tick } s.m d ∧
      (∀ q, (queueOf d q).accepted = (queueOf s.m q).accepted) ∧ Claims.Replied { s.m with tw := d.tw } d)) ∧
    (x.st ≠ .free → Claims.TurnedAway (.create p c false) s p OD.contextCommand .rws ST.state []) ∧
    (x.st = .live → Claims.Commanded (.teardown p c false) s p OD.contextCommand .rws ST.ok (fun d =>
      Claims.CtxBecomes c { x with st := .draining, since := s.m.tick } s.m d ∧
      (∀ q, (queueOf d q).accepted = (queueOf s.m q).accepted.filter (fun y => y.ctx != c)))) ∧
    (x.st ≠ .live → Claims.TurnedAway (.teardown p c false) s p OD.contextCommand .rws ST.state []) ∧
    (let quiet : Ctx := { st := .quiet, epoch := (x.epoch + 1) % 2 ^ 16, regions := [], since := s.m.tick }
     (x.st = .draining → (∀ o ∈ s.m.tw.ops, o.2.desc.ctx ≠ c) → Completes (.drainEnd c) s (fun d =>
       Claims.CtxBecomes c quiet s.m d ∧ d.tw.ftt0 = s.m.tw.ftt0.filter (fun e => e.ctx != c) ∧
       d.tw.ftt1 = s.m.tw.ftt1.filter (fun e => e.ctx != c) ∧ d.mem = s.m.mem ∧ d.tw.ops = s.m.tw.ops)) ∧
     (∀ id op, x.st = .draining → s.m.tw.ops = [(id, op)] → op.desc.ctx = c → op.use_ = .queue → isRun op.desc = false →
       (x.since + tDrain s.m ≤ s.m.tick → Completes (.drainEnd c) s (fun d => Claims.CtxBecomes c quiet s.m d ∧ d.tw.ops = [] ∧
         Claims.Counted OD.drainExpired true s.m d)) ∧
       (s.m.tick < x.since + tDrain s.m → Becomes (.drainEnd c) s s.m))) ∧
    (x.st ≠ .draining → Becomes (.drainEnd c) s s.m) ∧
    (x.st = .quiet → x.since + tLifeUs s.m ≤ s.m.tick → Completes (.quietEnd c) s (fun d =>
      Claims.CtxBecomes c { x with st := .free, since := s.m.tick } s.m d ∧
      d = { s.m with tw := { s.m.tw with ctxs := d.tw.ctxs }, ev := d.ev })) ∧
    ((x.st ≠ .quiet ∨ s.m.tick < x.since + tLifeUs s.m) → Becomes (.quietEnd c) s s.m) ∧
    (∀ (slot : Nat) (w1 w2 : W64), slot < 64 →
      (let bad := fld w1 15 4 ≠ 0 ∨ fld w1 63 49 ≠ 0 ∨ fld w2 15 0 ≠ 0 ∨ fld w2 63 49 ≠ 0 ∨ fld w2 48 16 < fld w1 48 16
       let cmd := Instr.localRegionWrite p c slot w1 w2 false
       (¬bad → (x.st = .free ∨ x.st = .live) → Claims.Commanded cmd s p OD.localRegionCommand .rws ST.ok (fun d =>
         ctxOf d c = { x with regions := mset x.regions slot ⟨bit w1 1, bit w1 2, bit w1 3, fld w1 48 16, fld w2 48 16, bit w1 0⟩ } ∧ (∀ k, k ≠ c → ctxOf d k = ctxOf s.m k) ∧
         Claims.Replied { s.m with tw := { s.m.tw with ctxs := d.tw.ctxs } } d)) ∧
       (bad → Claims.TurnedAway cmd s p OD.localRegionCommand .rws ST.invalid []) ∧
       (¬bad → (x.st = .draining ∨ x.st = .quiet) → Claims.TurnedAway cmd s p OD.localRegionCommand .rws ST.state [])))

namespace Sys2Proof.Claims

/-- The table will become t: the command is pending until both copies hold it (R302). -/
def NewTable (t : List FttEntry) (d d' : Dev) : Prop :=
  Replied { d with tw := { d.tw with fttPending := some { newTable := t, bulk := false, rest := [], inserted := 0 } } } d'

/-- An entry's two words are well formed: V set, no reserved bit, a size of 64 KiB, 2 MiB or 1 GiB to which KEY and TGT are aligned (R297). -/
abbrev goodEntry (e0 e1 : W64) : Prop :=
  bit e0 0 = true ∧ fld e0 15 13 = 0 ∧ fld e1 63 48 = 0 ∧
  ((fld e0 2 1 = 0) ∨ (fld e0 2 1 = 1 ∧ fld e0 63 16 % 2 ^ 5 = 0 ∧ fld e1 47 0 % 2 ^ 5 = 0) ∨
   (fld e0 2 1 = 2 ∧ fld e0 63 16 % 2 ^ 14 = 0 ∧ fld e1 47 0 % 2 ^ 14 = 0))

/-- An entry overlaps none of the table and finds its set with fewer than 8 entries (R299). -/
abbrev fits (t : List FttEntry) (e : FttEntry) : Prop :=
  (∀ f ∈ t, fttOverlap e f = false) ∧ (t.filter (fun f => fttSet f == fttSet e)).length < 8

end Sys2Proof.Claims

/-- R289, R297-R302, R331, R350: the table's commands, each pending until both copies hold its result, a conflict and a full set; a bulk
insertion goes on entry by entry; numbers and topology are written only while every context is FREE; a plane's port of a device, the
loss of the last path to a device and its return (R333). -/
def Obligations.TranslationTable : Prop :=
  (∀ (p : Path) (e0 e1 : W64) (s : State), Calm s → Claims.goodEntry e0 e1 →
    (let e := entryOf e0 e1
     let t := s.m.tw.ftt0
     let open_ := ((ctxOf s.m e.ctx).st = .free ∨ (ctxOf s.m e.ctx).st = .live) ∧ s.m.tw.fttPending = none
     let C := fun (c : Instr) (t' : List FttEntry) => Claims.Commanded c s p OD.fttCommand .rws ST.pending (Claims.NewTable t' s.m)
     let no := fun (c : Instr) (st : Status) (es : List (Nat × Event)) => Claims.TurnedAway c s p OD.fttCommand .rws st es
     (open_ → Claims.fits t e → C (.insert p e0 e1 false) (t ++ [e])) ∧
     (open_ → (∃ f ∈ t, fttOverlap e f = true) → no (.insert p e0 e1 false) ST.fttConflict []) ∧
     (open_ → (∀ f ∈ t, fttOverlap e f = false) → 8 ≤ (t.filter (fun f => fttSet f == fttSet e)).length →
       no (.insert p e0 e1 false) ST.fttFull [Claims.ev 8 0x3002 0 0 []]) ∧
     (open_ → C (.remove p e0 e1 false) (t.filter (fun f => !(f.ctx == e.ctx && f.size == e.size && f.key == e.key)))) ∧
     (open_ → (∃ f ∈ t, fttSame e f = true) → C (.setrights p e0 e1 false) (t.map (fun f => if fttSame e f then e else f))) ∧
     (open_ → (∀ f ∈ t, fttSame e f = false) → no (.setrights p e0 e1 false) ST.state []) ∧
     (open_ → C (.removeContext p e.ctx false) (t.filter (fun f => f.ctx != e.ctx))) ∧
     (¬open_ → ∀ c ∈ [Instr.insert p e0 e1 false, .remove p e0 e1 false, .setrights p e0 e1 false, .removeContext p e.ctx false],
       no c ST.state []) ∧
     (open_ → Claims.fits t e → ∀ es, es.length < 4096 → Claims.Accepted s.m p OD.fttBulkInsert .rws →
       Completes (.fttBulkInsert p ((e0, e1) :: es)) s (fun d => d.hv.replyStatus = ST.ok ∧
         d.tw = { s.m.tw with fttPending := some { newTable := t ++ [e], bulk := true, rest := es, inserted := 0 } } ∧
         rd d OD.fttBulkResult = ST.pending.toNat * 2 ^ 32)) ∧
     Claims.TurnedAway (.fttBulkInsert p []) s p OD.fttBulkInsert .rws ST.length [])) ∧
  (∀ (s : State) (t : List FttEntry), Calm s →
    (s.m.tw.fttPending = some { newTable := t, bulk := false, rest := [], inserted := 0 } →
      Completes .fttCommandDone s (fun d => d.tw = { s.m.tw with ftt0 := t, ftt1 := t, fttPending := none } ∧
        commandStatus d OD.fttCommand = ST.ok.toNat ∧ (∀ k, k ≠ OD.fttCommand → rd d k = rd s.m k) ∧
        d = { s.m with tw := d.tw, od := d.od })) ∧
    (∀ n, s.m.tw.fttPending = some { newTable := t, bulk := true, rest := [], inserted := n } → n < 2 ^ 32 - 1 →
      Completes .fttCommandDone s (fun d => d.tw = { s.m.tw with ftt0 := t, ftt1 := t, fttPending := none } ∧
        rd d OD.fttBulkResult = n + 1 ∧ d = { s.m with tw := d.tw, od := d.od })) ∧
    (s.m.tw.fttPending = none → Becomes .fttCommandDone s s.m)) ∧
  (∀ (p : Path) (n : Nat) (s : State), Calm s → n < 2 ^ 15 →
    ((∀ q ∈ s.m.tw.ctxs, q.2.st = .free) → Claims.Accepted s.m p OD.deviceNumber .rws →
      Completes (.deviceNumberWrite p n) s (fun d => d.hv.replyStatus = ST.ok ∧ rd d OD.deviceNumber = n ∧
        (∀ k, k ≠ OD.deviceNumber → rd d k = rd s.m k) ∧
        Claims.Replied { s.m with sec := d.sec, installed := d.installed, installedBytes := d.installedBytes } d)) ∧
    (∀ k, (ctxOf s.m k).st ≠ .free → Claims.TurnedAway (.deviceNumberWrite p n) s p OD.deviceNumber .rws ST.state [])) ∧
  (∀ (p : Path) (v : Nat) (s : State), Calm s → ∀ key ∈ topologyKeys, ∀ o, objDef key = some o → inRange o v = true →
    (let cmd := Instr.topologyWrite p (key / 256) (key % 256) v
     (keepOk (wr key v s.m) = true → (∀ q ∈ s.m.tw.ctxs, q.2.st = .free) → Claims.Accepted s.m p key o.access →
       Completes cmd s (fun d => d.hv.replyStatus = ST.ok ∧ rd d key = v ∧ (∀ k, k ≠ key → rd d k = rd s.m k) ∧
         Claims.Replied { s.m with sec := d.sec, installed := d.installed, installedBytes := d.installedBytes } d)) ∧
     (keepOk (wr key v s.m) = false → Claims.TurnedAway cmd s p key o.access ST.invalid []) ∧
     (∀ k, keepOk (wr key v s.m) = true → (ctxOf s.m k).st ≠ .free → Claims.TurnedAway cmd s p key o.access ST.state []))) ∧
  (∀ (plane dev : Nat) (up : Bool) (s : State), Calm s →
    (plane < 32 → Completes (.planePortChange plane dev up) s (fun d =>
      (∀ q, (mget 0 d.tw.planes dev).testBit q = if q = plane then up else (mget 0 s.m.tw.planes dev).testBit q) ∧
      (∀ k, k ≠ dev → mget 0 d.tw.planes k = mget 0 s.m.tw.planes k) ∧
      (let gone := dev ≠ devNo s.m ∧ portsTo d dev = [] ∧ dev ∉ s.m.tw.unreachable
       (∀ k, k ∈ d.tw.unreachable ↔ portsTo d k = [] ∧ (k ∈ s.m.tw.unreachable ∨ gone ∧ k = dev)) ∧
       (gone → Claims.Raises [Claims.ev 8 0x3041 0 dev []] s.m d) ∧ (¬gone → d.ev = s.m.ev)) ∧
      d = { s.m with tw := { s.m.tw with planes := d.tw.planes, unreachable := d.tw.unreachable }, ev := d.ev })) ∧
    (32 ≤ plane → Becomes (.planePortChange plane dev up) s s.m))

namespace Sys2Proof.Claims

/-- No step is loaded, no line is poison, and n bytes at a may be written (R255, R263, R280); the LLC is settled, so that an eviction
changes no byte. -/
abbrev CanWrite (d : Dev) (a n : Nat) : Prop :=
  d.seq.regions = [] ∧ d.mem.settled = true ∧ writeStatus d a n = ST.ok ∧ (∀ b, poisonAt d b = false) ∧
  ∀ b, a ≤ b → b < a + n → writeBarred d b = false

/-- Bytes bs stand at a, and every other byte of memory is as before. -/
def Stored (a : Nat) (bs : Bytes) (d d' : Dev) : Prop :=
  bytesAt d' a bs.length = bs ∧ ∀ b < 2 ^ 49, (b < a ∨ a + bs.length ≤ b) → byteAt d' b = byteAt d b

/-- An issued operation of a queue that has not begun and was not refused at its link die. -/
structure Issued (d : Dev) (id : Nat) (op : FabOp) : Prop where
  found : findOp d id = some op
  fresh : op.begun = false
  queue : op.use_ = .queue
  good : op.fixed = false

/-- Only operation id has changed, to op. -/
def OpIs (id : Nat) (op : FabOp) (d d' : Dev) : Prop :=
  findOp d' id = some op ∧ ∀ k, k ≠ id → findOp d' k = findOp d k

/-- A copy within the device has been made: n bytes. -/
def Copied (id : Nat) (op : FabOp) (n : Nat) (d d' : Dev) : Prop :=
  OpIs id { op with begun := true, fixed := true, status := ST.ok, bytes := n } d d' ∧
  d' = { d with mem := d'.mem, tw := { d.tw with ops := d'.tw.ops } }

/-- Every operation but a RUN and a copy within the device leaves through its link die, whatever device its operands name (R287,
R311-R315). -/
abbrev goesOut (d : Dev) (x : FabDesc) : Prop :=
  fdOp x = 1 ∨ fdOp x = 2 ∨ fdOp x = 3 ∨ fdOp x = 4 ∧ (gDev (fdDst x) ≠ devNo d ∨ gDev (fdSrc x) ≠ devNo d)

/-- Its destination counter is at its target; that of a get or of a copy within the device is here (R320). -/
abbrev countsThere (d : Dev) (x : FabDesc) : Prop :=
  fdOp x = 1 ∨ fdOp x = 2 ∨ fdOp x = 3 ∨ fdOp x = 4 ∧ gDev (fdSrc x) = devNo d ∧ gDev (fdDst x) ≠ devNo d

/-- An operation of a lower number in the same queue waits for credits, which holds back this one (R338). -/
def BehindOne (d : Dev) (id slot : Nat) : Prop :=
  slot < 8192 ∧ ∃ o ∈ d.tw.ops, o.1 < id ∧ o.2.slot = slot ∧ o.2.begun = true ∧ o.2.fixed = false ∧
    ∃ q ∈ o.2.pkts, q.st = .waiting ∧ q.busyAt = none ∧ creditOf d (gDev q.dst) ≤ outstandingTo d (gDev q.dst)

/-- The descriptor a doorbell post reads (R305). -/
def posted (d : Dev) (addr ctx : Nat) : FabDesc := readFabDesc d addr ctx .doorbell (rd d OD.stepNumber) 0xFFFF

/-- A doorbell after a post: its status, one more store counted; nothing else but queues, counters and events differs (R305). -/
def BellRung (core queue ctx : Nat) (st : Status) (d d' : Dev) : Prop :=
  let key := 64 * (4 * core + queue) + ctx
  mget Bell.empty d'.tw.bells key = { status := st, count := ((mget Bell.empty d.tw.bells key).count + 1) % 2 ^ 48 } ∧
  (∀ k, k ≠ key → mget Bell.empty d'.tw.bells k = mget Bell.empty d.tw.bells k) ∧ d'.hv.busStatus = ST.ok ∧
  d' = { d with tw := { d.tw with bells := d'.tw.bells, queues := d'.tw.queues }, od := d'.od, ev := d'.ev, hv := d'.hv }

end Sys2Proof.Claims

/-- R305, R306: a doorbell post by a processor queues its descriptor, or refuses it with the status that the doorbell keeps. -/
def Sys2Proof.Claims.DoorbellPart : Prop :=
  ∀ (core queue ctx : Nat) (desc : W64) (s : State), Calm s → core < 2048 → queue < 4 → ctx < 64 →
    (let q := 4 * core + queue
     let x := Claims.posted s.m desc.toNat ctx
     let acc := fabAccept s.m desc.toNat ctx x
     let cmd := Instr.doorbellPost .sequencer core queue ctx desc
     (useAny s.m linkDies = ST.ok →
      (acc = ST.ok → (queueOf s.m q).accepted.length < 64 → Completes cmd s (fun d => Claims.BellRung core queue ctx ST.ok s.m d ∧
        (queueOf d q).accepted = (queueOf s.m q).accepted ++ [x] ∧ (∀ k, k ≠ q → queueOf d k = queueOf s.m k) ∧ d.od = s.m.od)) ∧
      (acc = ST.ok → 64 ≤ (queueOf s.m q).accepted.length → Completes cmd s (fun d =>
        Claims.BellRung core queue ctx ST.state s.m d ∧ (∀ k, queueOf d k = queueOf s.m k) ∧
        Claims.Counted OD.doorbellRefusals true s.m d ∧ Claims.Raises [Claims.ev (core / 512) 0x3003 core 0 []] s.m d)) ∧
      (acc ≠ ST.ok → Completes cmd s (fun d => Claims.BellRung core queue ctx acc s.m d ∧ (∀ k, queueOf d k = queueOf s.m k) ∧
        d.od = s.m.od)) ∧
      (desc.toNat % 64 ≠ 0 → acc = ST.invalid)) ∧
     Becomes (.doorbellStatusRead .sequencer core queue ctx) s
       (let b := mget Bell.empty s.m.tw.bells (64 * q + ctx)
        { s.m with hv := { s.m.hv with busStatus := ST.ok, bus := b.status.toNat + b.count * 2 ^ 16 } }) ∧
     (∀ c ∈ [Instr.doorbellPost .other core queue ctx desc, .doorbellStatusRead .other core queue ctx],
       Becomes c s { s.m with hv := { s.m.hv with bus := 0, busStatus := ST.access } }))

/-- R133, R306, R315, R390: a host's post is a store of control space that its link die turns round, once the host's earlier writes are
acknowledged; without a linked host nothing happens. -/
def Sys2Proof.Claims.HostDoorbellPart : Prop :=
  ∀ (e core queue ctx : Nat) (desc : W64) (s : State), Calm s → core < 2048 → queue < 4 → ctx < 64 → devNo s.m < 2 ^ 15 →
    (let cmd := Instr.doorbellPost (.host e) core queue ctx desc
     let key := 64 * (4 * core + queue) + ctx
     let id := s.m.tw.nextOp
     let dst := gAddr (devNo s.m) (doorbellBase + 16 * key)
     (hostLinked s.m e = false → Becomes cmd s s.m) ∧
     (hostLinked s.m e = true → findOp s.m id = none → (∀ k ∈ hostWrites s.m e, k < id) →
      (hostWrites s.m e = [] → lacksRoom s.m dst = false → s.m.tw.retxUntil = none → stillStarting s.m (gLocal dst) = false →
        (∀ o ∈ s.m.tw.ops, ¬(o.2.slot = 10244 + e ∧ o.2.seq = mget 0 s.m.tw.seqs (10244 + e))) →
        Completes cmd s (fun d => (mget Bell.empty d.tw.bells key).count = ((mget Bell.empty s.m.tw.bells key).count + 1) % 2 ^ 48 ∧
          (∀ k, k ≠ key → mget Bell.empty d.tw.bells k = mget Bell.empty s.m.tw.bells k) ∧ (∀ k, findOp d k = findOp s.m k) ∧
          mget 0 d.tw.seqs (10244 + e) = (mget 0 s.m.tw.seqs (10244 + e) + 1) % 2 ^ 32 ∧ d.mem = s.m.mem)) ∧
      (hostWrites s.m e ≠ [] → (∀ k ∈ hostWrites s.m e, (findOp s.m k).isSome) → Completes cmd s (fun d =>
        d.tw.bells = s.m.tw.bells ∧ d.tw.queues = s.m.tw.queues ∧ d.mem = s.m.mem ∧
        ∃ op, Claims.OpIs id op s.m d ∧ op.use_ = .hostWrite e ∧ op.after = hostWrites s.m e ∧ op.fixed = false ∧
          op.pkts = [PktRec.new .store dst 0 8]))))

/-- R296, R298, R304, R338, R398: a queue issues its oldest descriptor with the slot's next sequence number; a page that lacks the
right makes it ST_ACCESS, and the page that has it says where its packet goes. -/
def Sys2Proof.Claims.FabricIssuePart : Prop :=
  ∀ (core queue : Nat) (s : State) (x : FabDesc) (rest : List FabDesc), Calm s →
    (let q := 4 * core + queue
     let id := s.m.tw.nextOp
     let cmd := Instr.fabricOpIssue core queue
     ((queueOf s.m q).accepted = [] → Becomes cmd s s.m) ∧
     (rd s.m OD.outstandingPerQueue ≤ (slotOps s.m q).length → Becomes cmd s s.m) ∧
     (Claims.BehindOne s.m id q → Becomes cmd s s.m) ∧
     ((queueOf s.m q).accepted = x :: rest → (slotOps s.m q).length < rd s.m OD.outstandingPerQueue → creditHeld s.m q id = false →
      runHolds s.m q = false → engineInReset s.m (0x5000 + core) = false → useAny s.m linkDies = ST.ok →
      Completes cmd s (fun d => (queueOf d q).accepted = rest ∧ (∀ k, k ≠ q → queueOf d k = queueOf s.m k) ∧
        (∀ k, mget 0 d.tw.seqs k = if k = q then (mget 0 s.m.tw.seqs q + 1) % 2 ^ 32 else mget 0 s.m.tw.seqs k) ∧
        d.tw.nextOp = id + 1 ∧ d.mem = s.m.mem ∧ ∃ op, Claims.OpIs id op s.m d ∧ op.desc = x ∧ op.use_ = .queue ∧ op.slot = q ∧
        op.epoch = (ctxOf s.m x.ctx).epoch ∧ op.seq = mget 0 s.m.tw.seqs q ∧ op.begun = false ∧
        (fdOp x = 1 → fdDstCntEn x = false → fdDst x % 2 ^ fdSize x = 0 → s.m.tw.fttPending = none →
          ((∀ e, fttLookup s.m.tw.ftt0 x.ctx (fdDst x) = some e → e.wr = false) → op.status = ST.access ∧ op.fixed = true ∧
            op.pkts = [] ∧ rd d OD.lastDenialPage = fdDst x / 65536 * 65536 ∧ rd d OD.lastDenialContext = x.ctx ∧
            Claims.Counted OD.fttDenials true s.m d) ∧
          (∀ e, fttLookup s.m.tw.ftt0 x.ctx (fdDst x) = some e → e.wr = true →
            (let tgt := e.tgt * 65536 + fdDst x % 2 ^ pageBits e.size
             (mapped (gLocal tgt) 1 = false → op.status = ST.access ∧ op.fixed = true ∧ op.pkts = []) ∧
             (mapped (gLocal tgt) 1 = true → peerGen s.m (gDev tgt) = 3 → op.status = ST.ok ∧ op.fixed = false ∧
               op.pkts = [PktRec.new .store tgt 0 (2 ^ fdSize x)])))))))

/-- R303-R306, R310, R338: doorbells of processors and of hosts, and the issue of a queue's descriptors. -/
def Obligations.DoorbellsAndIssue : Prop := Claims.DoorbellPart ∧ Claims.HostDoorbellPart ∧ Claims.FabricIssuePart

/-- R129, R130, R311-R314, R318: an operation that leaves through the link die begins; a copy within the device is made at once, 64
bytes of a poisoned line as poison; a flagged store waits for the queue's earlier operations. -/
def Sys2Proof.Claims.OperationBeginsPart : Prop :=
  ∀ (id : Nat) (op : FabOp) (s : State), Calm s → Claims.Issued s.m id op →
    (let x := op.desc
     let begins := fun (d : Dev) => Claims.OpIs id { op with begun := true } s.m d ∧ d = { s.m with tw := { s.m.tw with ops := d.tw.ops } }
     (isRun x = false → Claims.goesOut s.m x →
      (fdOp x = 1 → fdFlag x = false → Completes (.store id) s begins) ∧
      (fdOp x = 1 → fdFlag x = true → slotOps s.m op.slot = [(id, op)] → coveredFailure s.m id op = none →
        Completes (.flaggedStore id) s begins) ∧
      (fdOp x = 2 → Completes (.atomic id) s begins) ∧ (fdOp x = 3 → Completes (.accum id) s begins) ∧
      (fdOp x = 4 → Completes (.copy id) s begins)) ∧
     (fdOp x = 4 → ¬Claims.goesOut s.m x → Claims.CanWrite s.m (gLocal (fdDst x)) (fdLen x) →
      Completes (.copy id) s (fun d => Claims.Copied id op (fdLen x) s.m d ∧
        Claims.Stored (gLocal (fdDst x)) (bytesAt s.m (gLocal (fdSrc x)) (fdLen x)) s.m d)) ∧
     (fdOp x = 1 → fdFlag x = true → (∃ o ∈ slotOps s.m op.slot, o.1 < id) → Becomes (.flaggedStore id) s s.m) ∧
     (∀ st, fdOp x = 1 → fdFlag x = true → slotOps s.m op.slot = [(id, op)] → coveredFailure s.m id op = some st →
       Completes (.flaggedStore id) s (fun d => Claims.OpIs id { op with begun := true, status := st, fixed := true } s.m d ∧
         d.mem = s.m.mem)))

/-- R320-R322, R337: a decided operation counts, records and leaves, its packets on their way keeping their credits; a counter at its
target is raised first, by a packet of its own. -/
def Sys2Proof.Claims.OperationEndsPart : Prop :=
  ∀ (id : Nat) (op : FabOp) (s : State), Calm s → MemoryOpen s.m → findOp s.m id = some op → op.use_ = .queue → isRun op.desc = false →
    (let x := op.desc
     (op.begun = true → (op.fixed = true ∨ ∀ p ∈ op.pkts, p.st = .acked) →
       (op.status ≠ ST.ok ∨ ¬Claims.countsThere s.m x ∨ fdDstCntEn x = false ∨ op.counted = true) → fdOp x ≠ 2 → fdFlag x = false →
       Completes (.fabricOpComplete id) s (fun d => findOp d id = none ∧ (∀ k, k ≠ id → findOp d k = findOp s.m k) ∧
         (∀ k, outstandingTo d k = outstandingTo s.m k) ∧
         Claims.Counted OD.fabricOpsCompleted true s.m d ∧ Claims.Counted OD.fabricOpsFailed (op.status != ST.ok) s.m d ∧
         (∀ k, counterAt d k % 2 ^ 64 = (counterAt s.m k +
           (if op.status = ST.ok ∧ fdDstCntEn x = true ∧ ¬Claims.countsThere s.m x ∧ k = fdDstCnt x then 1 else 0) +
           (if fdSrcCntEn x = true ∧ k = fdSrcCnt x then 1 else 0)) % 2 ^ 64) ∧
         Claims.RecordAt (fdRecord x) (leBytes 8 (op.status.toNat + fdOp x * 2 ^ 16 + Claims.flag op.multi 20 + op.seq * 2 ^ 32) ++
           leBytes 8 op.bytes) s.m d)) ∧
     (∀ p ps, op.begun = true → op.fixed = false → op.pkts = p :: ps → (∀ q ∈ op.pkts, q.st = .acked) → op.status = ST.ok →
       Claims.countsThere s.m x → fdDstCntEn x = true → op.counted = false → op.sequenced = false →
       Completes (.fabricOpComplete id) s (fun d =>
         Claims.OpIs id { op with pkts := op.pkts ++ [PktRec.new .count (gAddr (gDev p.dst) (counterBase + 8 * fdDstCnt x)) 0 0] } s.m d)) ∧
     ((op.begun = false ∨ (op.fixed = false ∧ ∃ p ∈ op.pkts, p.st ≠ .acked)) → Becomes (.fabricOpComplete id) s s.m))

/-- R129, R130, R311-R314, R318, R320-R322, R337: how a fabric operation begins and how it completes. -/
def Obligations.OperationsAndCompletion : Prop := Claims.OperationBeginsPart ∧ Claims.OperationEndsPart

namespace Sys2Proof.Claims

/-- Response r waits at the port that its requester is reached by, or is lost where there is none (R333, R375). -/
def Sends (r : Resp) (loc : Nat) (d d' : Dev) : Prop :=
  match choosePort d r.slot r.dstDev loc 0 with
  | none => (r.dstDev ∈ d'.tw.unreachable ∨ r.dstDev = devNo d) ∧ ∀ p, portOf d' p = portOf d p
  | some p => portOf d' p = { portOf d p with vc1 := addResp r d.tick (portOf d p).vc1 } ∧ ∀ k, k ≠ p → portOf d' k = portOf d k

/-- The response to a request without data. -/
def ack (p : Packet) (st : Status) (hot busy : Bool) : Resp :=
  { slot := p.slot, dstDev := p.srcDev, hot, busy, lost := false, epoch := p.epoch, pbase := nfld p.dst 21 8, seq := p.seq,
    status := st, mask := 1, data := [], poison := [] }

/-- A request for this device from one that is not of generation 1, of which no copy waits in a port, outside the time after a
full restart, at memory that is not starting. -/
structure Arrives (d : Dev) (p : Packet) : Prop where
  ours : gDev p.dst = devNo d
  gen : peerGen d p.srcDev ≠ 1
  taken : ∀ k, Item.req p ∉ (portOf d k).arrived
  settled : d.tw.retxUntil = none
  ready : stillStarting d (gLocal p.dst) = false

end Sys2Proof.Claims

/-- R320, R341, R346-R348: a request is applied and answered; a counter increment is applied once, its repetition answered from the
replay window, a full window answered BUSY; every answer for a hot line says so, and is counted. -/
def Sys2Proof.Claims.RequestServedPart : Prop :=
  ∀ (p : Packet) (w : Nat) (s : State), Calm s → Claims.Arrives s.m p →
    (let l := gLocal p.dst / 64
     let hot : Bool := decide (rd s.m OD.hotThreshold < w) || (w != 0 && s.m.tw.hotLines.contains l)
     (p.opk = .store → p.cntEn = false → 0 < p.len → gLocal p.dst + p.len ≤ reserveEnd → Claims.CanWrite s.m (gLocal p.dst) p.len →
       Completes (.requestArrival p w) s (fun d => Claims.Stored (gLocal p.dst) (leBytes p.len p.operand.toNat) s.m d ∧
         Claims.Sends (Claims.ack p ST.ok hot false) (gLocal p.dst) s.m d ∧ Claims.Counted OD.hotSignalsSent hot s.m d ∧
         d.tw.replay = s.m.tw.replay ∧ (l ∈ d.tw.hotLines ↔ hot = true))) ∧
     (p.opk = .count → p.cntEn = true → (∀ e ∈ s.m.tw.replay, e.src ≠ p.srcDev) →
      (s.m.tw.replay.length < rd s.m OD.replayWindowEntries → Completes (.requestArrival p w) s (fun d =>
        Claims.Raised p.cnt s.m d ∧ Claims.Sends (Claims.ack p ST.ok hot false) (gLocal p.dst) s.m d ∧
        Claims.Counted OD.hotSignalsSent hot s.m d ∧
        d.tw.replay = ⟨p.srcDev, p.slot, p.seq, nfld p.dst 48 8, ST.ok, 0, s.m.tick⟩ :: s.m.tw.replay)) ∧
      (rd s.m OD.replayWindowEntries ≤ s.m.tw.replay.length → Completes (.requestArrival p w) s (fun d =>
        Claims.Sends (Claims.ack p ST.ok hot true) (gLocal p.dst) s.m d ∧ Claims.Counted OD.windowFullRefusals true s.m d ∧
        Claims.Counted OD.hotSignalsSent hot s.m d ∧
        (∀ k, counterAt d k = counterAt s.m k) ∧ d.mem = s.m.mem ∧ d.tw.replay = s.m.tw.replay))) ∧
     (∀ e, p.opk = .count → s.m.tw.replay = [e] → e.src = p.srcDev → e.slot = p.slot → e.seq = p.seq → e.addr = nfld p.dst 48 8 →
       Completes (.requestArrival p w) s (fun d =>
         Claims.Sends (Claims.ack p e.status hot false) (gLocal p.dst) s.m d ∧ Claims.Counted OD.replayHits true s.m d ∧
         Claims.Counted OD.hotSignalsSent hot s.m d ∧ (∀ k, counterAt d k = counterAt s.m k) ∧ d.mem = s.m.mem ∧
         d.tw.replay = if belowMark e.seq p.relmark then [] else [e])))

/-- R351: after a full restart a packet that is sent again is answered ST_UNKNOWN_OUTCOME, while its first send may have been applied. -/
def Sys2Proof.Claims.LateRequestPart : Prop :=
  ∀ (p : Packet) (w t : Nat) (s : State), Calm s → gDev p.dst = devNo s.m → peerGen s.m p.srcDev ≠ 1 →
    (∀ k, Item.req p ∉ (portOf s.m k).arrived) → s.m.tw.retxUntil = some t → s.m.tick < t → p.retx = true → p.opk ≠ .atomic →
    Completes (.requestArrival p w) s (fun d => (∃ hot, Claims.Sends (Claims.ack p ST.unknownOutcome hot false) (gLocal p.dst) s.m d) ∧
      d.mem = s.m.mem ∧ (∀ k, counterAt d k = counterAt s.m k) ∧ d.tw.replay = s.m.tw.replay)

/-- R360: packets of a P1 device are applied in its order: an early one is held, the one expected is applied and those behind it
with it; one held longer than 60 us is applied and the order goes on from it. Sequence numbers wrap at 2^32. -/
def Sys2Proof.Claims.P1OrderPart : Prop :=
  ∀ (p : Packet) (s : State), Calm s →
    (let serves := fun (d : Dev) (hot : Bool) => mget 0 d.tw.p1Next p.srcDev = (p.seq + 1) % 2 ^ 32 ∧
       Claims.Stored (gLocal p.dst) (leBytes p.len p.operand.toNat) s.m d ∧
       Claims.Sends (Claims.ack p ST.ok hot false) (gLocal p.dst) s.m d
     let simple := p.opk = .store ∧ p.cntEn = false ∧ p.retx = false ∧ 0 < p.len ∧ gLocal p.dst + p.len ≤ reserveEnd ∧
       stillStarting s.m (gLocal p.dst) = false ∧ Claims.CanWrite s.m (gLocal p.dst) p.len
     (∀ w, gDev p.dst = devNo s.m → peerGen s.m p.srcDev = 1 → (∀ k, Item.req p ∉ (portOf s.m k).arrived) →
      (let ahead := (p.seq + 2 ^ 32 - mget 0 s.m.tw.p1Next p.srcDev) % 2 ^ 32
       (0 < ahead → ahead < 2 ^ 31 → Becomes (.requestArrival p w) s
         { s.m with tw := { s.m.tw with p1Held := s.m.tw.p1Held ++ [(p, s.m.tick)] } }) ∧
       (p.seq = mget 0 s.m.tw.p1Next p.srcDev → s.m.tw.p1Held = [] → simple → p.seq < 2 ^ 32 →
        Completes (.requestArrival p w) s (fun d => d.tw.p1Held = [] ∧
          serves d (decide (rd s.m OD.hotThreshold < w) || (w != 0 && s.m.tw.hotLines.contains (gLocal p.dst / 64))))))) ∧
     (∀ t, s.m.tw.p1Held = [(p, t)] → t + 60 < s.m.tick → simple → Completes (.p1OrderHoldExpiry p.srcDev) s (fun d =>
       d.tw.p1Held = [] ∧ serves d (s.m.tw.hotLines.contains (gLocal p.dst / 64))))) ∧
    (∀ src, (∀ h ∈ s.m.tw.p1Held, h.1.srcDev = src → s.m.tick ≤ h.2 + 60) → Becomes (.p1OrderHoldExpiry src) s s.m)

/-- R320, R341, R346-R351, R360: requests at their target, the replay window and the order of P1 sources; entries leave the window when
their retention has passed. -/
def Obligations.RequestsAtTheTarget : Prop :=
  Claims.RequestServedPart ∧ Claims.LateRequestPart ∧ Claims.P1OrderPart ∧
  (∀ (p : Packet) (w : Nat) (s : State), Calm s → gDev p.dst ≠ devNo s.m → (∀ k, Item.req p ∉ (portOf s.m k).arrived) →
    Becomes (.requestArrival p w) s s.m) ∧
  (∀ (src slot seq : Nat) (s : State), Calm s → Becomes (.replayEntryExpiry src slot seq) s { s.m with tw := { s.m.tw with
    replay := s.m.tw.replay.filter (fun e => !decide (e.src = src ∧ e.slot = slot ∧ e.seq = seq ∧
      e.at_ + rd s.m OD.replayRetention ≤ s.m.tick)) } })

namespace Sys2Proof.Claims

/-- An operation with one packet, in flight to another device, the only one outstanding. -/
structure Flying (d : Dev) (id : Nat) (op : FabOp) (p : PktRec) : Prop where
  only : d.tw.ops = [(id, op)]
  packet : op.pkts = [p]
  flies : p.st = .flying
  free : p.busyAt = none
  good : op.fixed = false
  tags : ∀ t ∈ d.tw.tags, t.id ≠ id

/-- The end of an attempt of that packet: it will be sent again, or the status st is fixed and counted (R349, R354). -/
def AttemptEnds (again : Prop) [Decidable again] (id : Nat) (op : FabOp) (p : PktRec) (st : Status) (count : Option Nat) (d d' : Dev) : Prop :=
  OpIs id (if again then { op with pkts := [{ p with st := .waiting, attempt := p.attempt + 1, spent := p.spent + 1, resent := true }] }
    else { op with pkts := [{ p with st := .ended }], status := firstBad op.status st, fixed := true }) d d' ∧
  outstandingTo d' (gDev p.dst) = outstandingTo d (gDev p.dst) - 1 ∧ d'.mem = d.mem ∧
  Counted OD.endToEndResends (decide again) d d' ∧ ∀ k, count = some k → Counted k (!decide again) d d'

/-- A packet that has left on a port. -/
def sentOn (p : PktRec) (port tick : Nat) : PktRec :=
  { p with st := .flying, port, lastSent := tick, busyAt := none, firstSent := if p.resent then p.firstSent else tick }

end Sys2Proof.Claims

/-- R315, R332, R333, R337, R338, R342, R349: sending a packet: it leaves on the port its key chooses and takes a credit; what holds
it; a store to this device itself is turned round, applied and acknowledged. -/
def Sys2Proof.Claims.PacketSendPart : Prop :=
  ∀ (id i : Nat) (op : FabOp) (p : PktRec) (s : State), Calm s → findOp s.m id = some op → op.pkts[i]? = some p →
    (∀ port, maySend s.m id op p = true → gDev p.dst ≠ devNo s.m →
      (p.resent = false ∨ mayResend s.m p = true) → ((p.kind ≠ .write ∧ p.kind ≠ .accum) ∨ MemoryOpen s.m) →
      choosePort s.m op.slot (gDev p.dst) (gLocal p.dst) p.attempt = some port → Completes (.packetSend id i) s (fun d =>
        (∃ q : Packet, (portOf d port).vc0 = (portOf s.m port).vc0 ++ [{ item := .req q, since := s.m.tick }] ∧
          q.opk = p.kind ∧ q.dst = p.dst ∧ q.slot = op.slot ∧
          q.seq = op.seq ∧ q.epoch = op.epoch ∧ q.ctx = op.desc.ctx ∧ q.srcDev = devNo s.m ∧ q.retx = p.resent) ∧
        (∀ k, k ≠ port → portOf d k = portOf s.m k) ∧
        outstandingTo d (gDev p.dst) = outstandingTo s.m (gDev p.dst) + 1 ∧ d.od = s.m.od ∧
        (p.kind ≠ .write → p.kind ≠ .accum → d.mem = s.m.mem) ∧ (∀ a < 2 ^ 49, byteAt d a = byteAt s.m a) ∧
        ∃ op', Claims.OpIs id op' s.m d ∧ (∀ k, k ≠ i → op'.pkts[k]? = op.pkts[k]?) ∧
          op'.pkts[i]? = some (Claims.sentOn p port s.m.tick))) ∧
    (maySend s.m id op p = true → p.resent = true → (op.sequenced = true ∨ p.kind = .count) → mayResend s.m p = false →
      Completes (.packetSend id i) s (fun d => (∃ op', Claims.OpIs id op' s.m d ∧ op'.fixed = true ∧
        op'.status = firstBad op.status ST.unknownOutcome ∧ op'.pkts[i]? = some { p with st := .ended, busyAt := none }) ∧
        Claims.Counted OD.unknownOutcomes true s.m d ∧ d.mem = s.m.mem ∧ ∀ k, portOf d k = portOf s.m k)) ∧
    ((op.begun = false ∨ op.fixed = true ∨ p.st ≠ .waiting ∨ p.busyAt ≠ none ∨ (∃ k ∈ op.after, (findOp s.m k).isSome) ∨
        creditOf s.m (gDev p.dst) ≤ outstandingTo s.m (gDev p.dst) ∨ Claims.BehindOne s.m id op.slot) →
      Becomes (.packetSend id i) s s.m) ∧
    (s.m.tw.ops = [(id, op)] → op.pkts = [p] → i = 0 → maySend s.m id op p = true → gDev p.dst = devNo s.m → p.kind = .store →
      p.resent = false → (op.sequenced = false ∨ fdDstCntEn op.desc = false) →
      s.m.tw.retxUntil = none → stillStarting s.m (gLocal p.dst) = false → 0 < p.len →
      gLocal p.dst + p.len ≤ reserveEnd → Claims.CanWrite s.m (gLocal p.dst) p.len → Completes (.packetSend id i) s (fun d =>
        Claims.Stored (gLocal p.dst) (leBytes p.len (word op.desc.words 2).toNat) s.m d ∧
        Claims.OpIs id { op with pkts := [{ Claims.sentOn p 0 s.m.tick with st := .acked }], bytes := op.bytes + p.len } s.m d ∧
        outstandingTo d (devNo s.m) = outstandingTo s.m (devNo s.m) ∧ ∀ k, portOf d k = portOf s.m k))

/-- R347, R349, R353, R354: a packet that does not fly has no timer; the resend after a refusal, 10 us later, counted but not against
the retry limit. -/
def Sys2Proof.Claims.PacketTimersPart : Prop :=
  ∀ (id i : Nat) (op : FabOp) (p : PktRec) (s : State), Calm s → findOp s.m id = some op → op.pkts[i]? = some p →
    (∀ t ∈ s.m.tw.tags, t.id ≠ id) →
    (p.st ≠ .flying → Becomes (.txTimeout id i) s s.m ∧ Becomes (.lostCompletion id i) s s.m) ∧
    (s.m.tick < p.lastSent + rd s.m OD.txTimeout → Becomes (.txTimeout id i) s s.m) ∧
    ((op.fixed = true ∨ p.busyAt = none ∨ ∃ t, p.busyAt = some t ∧ s.m.tick < t + 10) → Becomes (.busyResend id i) s s.m) ∧
    (∀ t, p.busyAt = some t → t + 10 ≤ s.m.tick → op.fixed = false → mayResend s.m p = true → Completes (.busyResend id i) s (fun d =>
      (∃ op', Claims.OpIs id op' s.m d ∧ op'.pkts[i]? = some { p with busyAt := none, attempt := p.attempt + 1, resent := true }) ∧
      Claims.Counted OD.endToEndResends true s.m d ∧ ∀ k, k ≠ OD.endToEndResends → rd d k = rd s.m k)) ∧
    (∀ t, p.busyAt = some t → t + 10 ≤ s.m.tick → op.fixed = false → mayResend s.m p = false → Completes (.busyResend id i) s (fun d =>
      (∃ op', Claims.OpIs id op' s.m d ∧ op'.status = firstBad op.status ST.unknownOutcome ∧ op'.fixed = true) ∧
      Claims.Counted OD.unknownOutcomes true s.m d))

/-- R337, R342, R349, R353, R354: the acknowledgement, refusal and failure of a packet in flight, its timer, and its loss. -/
def Sys2Proof.Claims.PacketAnsweredPart : Prop :=
  ∀ (id : Nat) (op : FabOp) (p : PktRec) (s : State), Calm s → Claims.Flying s.m id op p →
    (let tries := p.spent < rd s.m OD.retryLimit
     let once := op.sequenced = true ∨ p.kind = .count
     (¬once → p.lastSent + rd s.m OD.txTimeout ≤ s.m.tick → Completes (.txTimeout id 0) s
       (Claims.AttemptEnds tries id op p ST.timeout (some OD.timeouts) s.m)) ∧
     (once → peerGen s.m (gDev p.dst) ≠ 1 → p.lastSent + rd s.m OD.txTimeout ≤ s.m.tick → Completes (.txTimeout id 0) s
       (Claims.AttemptEnds (tries ∧ mayResend s.m p = true) id op p ST.unknownOutcome (some OD.unknownOutcomes) s.m)) ∧
     (¬once → Completes (.lostCompletion id 0) s (Claims.AttemptEnds tries id op p ST.poison none s.m)) ∧
     (∀ r : Resp, r.dstDev = devNo s.m → (∀ k, Item.resp r ∉ (portOf s.m k).arrived) → r.slot = op.slot → r.seq = op.seq →
       r.epoch = op.epoch → r.pbase = nfld p.dst 21 8 → r.mask = 1 → r.lost = false → (p.kind = .store ∨ p.kind = .write) →
       Completes (.responseArrival r) s (fun d => outstandingTo d (gDev p.dst) = outstandingTo s.m (gDev p.dst) - 1 ∧ d.mem = s.m.mem ∧
         Claims.OpIs id (if r.busy then { op with pkts := [{ p with st := .waiting, busyAt := some s.m.tick }] }
           else if r.status = ST.ok then { op with pkts := [{ p with st := .acked }], bytes := op.bytes + p.len }
           else { op with pkts := [{ p with st := .ended }], status := firstBad op.status r.status, fixed := true }) s.m d ∧
         Claims.Counted OD.unknownOutcomes (!r.busy && r.status == ST.unknownOutcome) s.m d ∧
         (r.busy = false → ((∃ e ∈ d.tw.hot, e.dev = gDev p.dst ∧ e.line = gLocal p.dst / 64) ↔ r.hot = true)))))

/-- R344, R352: an item that has waited at a port longer than 60 us is discarded: a request of this device ends its attempt as a lost
one, a response goes on as ST_POISON with reason LOST; a younger item stays. -/
def Sys2Proof.Claims.PacketAgePart : Prop :=
  ∀ (port : Nat) (s : State), Calm s →
    (let x := portOf s.m port
     (∀ vc i, (∀ q, (if vc = 0 then x.vc0 else x.vc1)[i]? = some q → s.m.tick ≤ q.since + 60) →
       Becomes (.packetAgeDiscard port (vc, i)) s s.m) ∧
     (∀ (id : Nat) (op : FabOp) (p : PktRec) (q : Packet) (t : Nat), Claims.Flying s.m id op p → op.sequenced = false → p.kind ≠ .count →
       x.vc0 = [{ item := .req q, since := t }] → t + 60 < s.m.tick → q.slot = op.slot → q.seq = op.seq → q.epoch = op.epoch →
       q.dst = p.dst → p.port = port → Completes (.packetAgeDiscard port (0, 0)) s (fun d => (portOf d port).vc0 = [] ∧
         (∀ k, k ≠ port → portOf d k = portOf s.m k) ∧
         Claims.AttemptEnds (p.spent < rd s.m OD.retryLimit) id op p ST.poison none s.m d)) ∧
     (∀ (r : Resp) (t : Nat), x.vc1 = [{ item := .resp r, since := t }] → t + 60 < s.m.tick →
       Completes (.packetAgeDiscard port (1, 0)) s (fun d => d.mem = s.m.mem ∧ d.tw.ops = s.m.tw.ops ∧
         Claims.Sends { r with lost := true, status := ST.poison, data := [], poison := [] } 0
           { s.m with ports := mput Port.new s.m.ports port { x with vc1 := [] } } d)))

/-- R332, R337, R338, R342, R344, R347, R349, R352-R354, R356: packets at their source; the answer for a packet of an operation that
has ended gives its credit back, and is counted when its context has left its epoch; hot lines at the source. -/
def Obligations.PacketsAtTheSource : Prop :=
  Claims.PacketSendPart ∧ Claims.PacketTimersPart ∧ Claims.PacketAnsweredPart ∧ Claims.PacketAgePart ∧
  (∀ (r : Resp) (t : Ended) (i dst sent : Nat) (s : State), Calm s → r.dstDev = devNo s.m →
    (∀ k, Item.resp r ∉ (portOf s.m k).arrived) → s.m.tw.ops = [] → s.m.tw.tags = [t] → t.slot = r.slot → t.seq = r.seq →
    t.epoch = r.epoch → t.flying = [(i, dst, sent)] → r.pbase = nfld dst 21 8 → r.mask.testBit 0 = true →
    Completes (.responseArrival r) s (fun d => outstandingTo d (gDev dst) = outstandingTo s.m (gDev dst) - 1 ∧
      (∀ k, k ≠ gDev dst → outstandingTo d k = outstandingTo s.m k) ∧ d.tw.tags = [{ t with flying := [] }] ∧ d.mem = s.m.mem ∧
      Claims.Counted OD.lateCompletionsDiscarded ((ctxOf s.m t.ctx).epoch != t.epoch) s.m d)) ∧
  (∀ (dev line : Nat) (s : State), Calm s → Becomes (.hotHoldExpiry dev line) s { s.m with tw := { s.m.tw with
    hot := s.m.tw.hot.filter (fun h => !decide (h.dev = dev ∧ h.line = line ∧ h.seen + rd s.m OD.hotHold ≤ s.m.tick)) } })

namespace Sys2Proof.Claims

/-- Only port p has changed, to x. -/
def PortIs (p : Nat) (x : Port) (d d' : Dev) : Prop := portOf d' p = x ∧ ∀ k, k ≠ p → portOf d' k = portOf d k

/-- What a flit put on the lanes says: its kind, SEQ, body, the ACK of its port, and its CRC (R371). -/
structure IsFlit (f : SentFlit) (p kind seq : Nat) (body : Bytes) (x : Port) : Prop where
  port : f.port = p
  kind : nfld f.header.toNat 63 62 = kind
  seq : nfld f.header.toNat 61 50 = seq
  ack : nfld f.header.toNat 49 38 = (x.rxNext + 4095) % 4096
  body : f.body = body ++ List.replicate (1277 - body.length) 0
  crc : flitGood (leBytes 8 f.header.toNat ++ f.body) = true

/-- A NAK is asked for, at most one every 2 µs for a missing SEQ (R378). -/
def Nakked (x y : Port) (now : Nat) : Prop :=
  let due := ∀ t, x.nakAt = some t → t + 2 ≤ now
  y.rxNext = x.rxNext ∧ y.arrived = x.arrived ∧ (due → y.control = x.control ++ [.nak x.rxNext] ∧ y.nakAt = some now) ∧
  (¬due → y.control = x.control ∧ y.nakAt = x.nakAt)

end Sys2Proof.Claims

/-- R371, R373, R375: a request header and a response header read back as what they were written from. -/
def Sys2Proof.Claims.HeadersPart : Prop :=
  (∀ (q : Packet), q.len < 2 ^ 9 → q.entropy < 2 ^ 16 → q.ctx < 2 ^ 6 → q.srcDev < 2 ^ 15 → q.dst < 2 ^ 64 → q.slot < 2 ^ 14 →
    q.seq < 2 ^ 32 → q.epoch < 2 ^ 16 → q.relmark < 2 ^ 32 → q.cnt < 2 ^ 16 → q.code < 2 ^ 8 → q.poison = [] →
    packetOf (fullHeader q) q.payload = some q) ∧
  (∀ r : Resp, r.slot < 2 ^ 14 → r.dstDev < 2 ^ 15 → r.epoch < 2 ^ 16 → r.pbase < 2 ^ 14 → r.seq < 2 ^ 32 → r.mask < 2 ^ 32 →
    r.poison = [] → respFrom (respHeader r) r.data = r)

/-- R366-R370: the scrambler, the inner code, the levels of a lane and the precoder are undone by their inverses; the inner code
puts one wrong bit of a block right; a decoded codeword is one, and differs from what came in at most 15 symbols, those counted.
That the field and the codes are IEEE 802.3's, and the inner code's columns, is the model's choice (log entry 121). -/
def Sys2Proof.Claims.LaneCodingPart : Prop :=
  (∀ prev bits len, prev < 2 ^ 58 → bits < 2 ^ len → len ≤ 10280 → Fec.descramble prev (Fec.scramble 264 prev bits len) len = bits) ∧
  (∀ m : List Nat, m.length = 514 → Fec.decodeWord (Fec.encodeWord m) = some (Fec.encodeWord m, [])) ∧
  (∀ w u at_, w.length = 544 → Fec.decodeWord w = some (u, at_) → u.length = 544 ∧ at_.length ≤ 15 ∧ (∀ x ∈ Fec.remainder u, x = 0) ∧
    ∀ q, q ∉ at_ → u[q]? = w[q]?) ∧
  (∀ bits, bits < 2 ^ 10280 → Fec.decodePair (Fec.encodePair bits) = some (bits, [0, 0, 0, 0])) ∧
  (∀ data i, data < 2 ^ 340 → i < 350 → Fec.innerData (Fec.innerBlock data) = data ∧
    Fec.innerData (Nat.xor (Fec.innerBlock data) (2 ^ i)) = data) ∧
  (∀ bits, bits < 2 ^ 2720 → Fec.innerDecode (Fec.innerEncode bits) = bits) ∧
  (∀ n bits, bits < 4 ^ n → Fec.toLevels bits n < 4 ^ n ∧ Fec.fromLevels (Fec.toLevels bits n) n = bits) ∧
  (∀ n last levels, last < 4 → levels < 4 ^ n → Fec.unprecode n last (Fec.precode n last levels) = levels)

/-- R365-R371, R380: what a port puts on its lanes, a port at the same pair reads back as the same flit, without a symbol corrected,
whatever the lanes that carry it, a marker before it, the inner code and precoding. -/
def Sys2Proof.Claims.PairReadsBackPart : Prop :=
  ∀ (p : Nat) (s : State) (x : Port), Calm s → portUp s.m p = true → portOf s.m p = x → x.txScr < 2 ^ 58 →
    (∀ k ∈ x.resend, k.body.length ≤ 1277) →
    (let lane := fun i => laneNow s.m p x x.txPairs i
     (∀ i < 4, lane i < 5 ∧ laneFailed s.m p (lane i) = false ∧ ∀ j < 4, lane i = lane j → i = j) →
     Completes (.flitTransmit p) s (fun d => ∃ f, d.sentFlits = s.m.sentFlits ++ [f] ∧
       ∀ (e : Dev) (r : Nat), (portOf e r).rxPairs = x.txPairs → (portOf e r).rxScr = x.txScr → (portOf e r).precode = x.precode →
         portInner e r = portInner s.m p → (∀ i < 4, laneNow e r (portOf e r) x.txPairs i = lane i) →
         (∀ k < 5, (portOf e r).rxLast.getD k 0 = x.txLast.getD k 0 ∧ x.txLast.getD k 0 < 4) →
         ∃ v, Fec.decodePair (heardBits e r f.lanes) = some (v, [0, 0, 0, 0]) ∧
           flitOf (portOf e r) v = leBytes 8 f.header.toNat ++ f.body))

/-- R365-R371, R373, R375: headers, the coding of a pair and its lanes, and a whole flit read back as what they were written from. -/
def Obligations.CodingReadsBack : Prop := Claims.HeadersPart ∧ Claims.LaneCodingPart ∧ Claims.PairReadsBackPart

/-- R370, R371, R376-R379: flits received in order, early, late and damaged, NAK and the resend of what is unacknowledged, ACK and
credits, CONTROL flits. -/
def Sys2Proof.Claims.FlitsReceivedPart : Prop :=
  ∀ (p : Nat) (s : State) (x : Port) (l01 l23 : Option Nat × Option Nat) (l4 : Option Nat), Calm s → portOf s.m p = x →
    portUp s.m p = true → x.moving = none →
    (let lanes := [l01.1, l01.2, l23.1, l23.2, l4]
     let pair := Fec.decodePair (heardBits s.m p lanes)
     let cmd := Instr.flitReceive p l01 l23 l4
     (x.outage = none → (pair = none ∨ ∃ v n, pair = some (v, n) ∧ flitGood (flitOf x v) = false) → Completes cmd s (fun d =>
       Claims.Counted OD.pairsUncorrectable true s.m d ∧ Claims.Nakked x (portOf d p) s.m.tick ∧ (portOf d p).kept = x.kept ∧
       (portOf d p).rxPairs = (x.rxPairs + 1) % 2 ^ 16 ∧
       (∀ k, k ≠ p → portOf d k = portOf s.m k) ∧ d = { s.m with ports := d.ports, od := d.od })) ∧
     (∀ t, x.outage = some t → Completes cmd s (fun d => (∃ a b, Claims.PortIs p { x with
       rxPairs := (x.rxPairs + 1) % 2 ^ 16, rxLast := a, rxScr := b } s.m d) ∧ d = { s.m with ports := d.ports })) ∧
     (∀ v n, x.outage = none → pair = some (v, n) → flitGood (flitOf x v) = true →
      (let flit := flitOf x v
       let h := leNat (flit.take 8)
       let ack := nfld h 49 38
       let seq := nfld h 61 50
       let kind := nfld h 63 62
       (kind ≤ 2 → Completes cmd s (fun d =>
         ((kind ≤ 1 ∨ flit.drop 8 = 0x01 :: flit.drop 9) →
           (∀ l1 k l2, x.kept = l1 ++ [k] ++ l2 → k.seq = ack → (∀ j ∈ l1, j.seq ≠ ack) → (portOf d p).kept = l2) ∧
           ((∀ k ∈ x.kept, k.seq ≠ ack) → (portOf d p).kept = x.kept) ∧
           (portOf d p).credit0 = x.credit0 + (if nfld h 37 36 = 1 then nfld h 35 24 else 0) ∧
           (portOf d p).credit1 = x.credit1 + (if nfld h 37 36 = 2 then nfld h 35 24 else 0) ∧
           (∀ k, k ≠ p → portOf d k = portOf s.m k) ∧ d = { s.m with ports := d.ports }) ∧
         (kind = 2 → flit.drop 8 = 0x01 :: flit.drop 9 → (portOf d p).resend = (portOf d p).kept ∧ (portOf d p).arrived = x.arrived ∧
           (portOf d p).rxNext = x.rxNext) ∧
         (kind = 2 → flit.drop 8 = 0x03 :: flit.drop 9 → portUp d p = false ∧ portOf d p = Port.new) ∧
         (kind ≤ 1 → (∀ e ∈ n.zipIdx, mget 0 (portOf d p).laneErrs e.2 ≥ e.1)) ∧
         (kind = 0 → seq = x.rxNext → (portOf d p).rxNext = (x.rxNext + 1) % 4096 ∧ (portOf d p).nakAt = none ∧
           (x.rx = [] → (∀ b ∈ flit.drop 8, b = 0) → (portOf d p).arrived = x.arrived ∧ (portOf d p).rx = []) ∧
           (∀ q : Packet, x.rx = [] → q.len < 512 → q.payload.length = (if q.opk = .read then 0 else q.len) →
             (∃ z, flit.drop 8 = fullHeader q ++ q.payload ++ List.replicate z 0) →
             (portOf d p).arrived = x.arrived ++ ((packetOf (fullHeader q) q.payload).map Item.req).toList ∧
             (portOf d p).return0 = x.return0 + creditsFor (48 + q.payload.length))) ∧
         (kind = 0 → x.rxNext < 4096 → 0 < (seq + 4096 - x.rxNext) % 4096 → (seq + 4096 - x.rxNext) % 4096 < 2048 →
           Claims.Nakked x (portOf d p) s.m.tick) ∧
         (kind = 0 → x.rxNext < 4096 → 2048 ≤ (seq + 4096 - x.rxNext) % 4096 →
           (portOf d p).rxNext = x.rxNext ∧ (portOf d p).arrived = x.arrived ∧ (portOf d p).control = x.control))) ∧
       (kind = 3 → Completes cmd s (fun d => (portOf d p).kept = x.kept ∧ (portOf d p).arrived = x.arrived ∧
         (portOf d p).rxNext = x.rxNext ∧ (portOf d p).credit0 = x.credit0 ∧ (portOf d p).credit1 = x.credit1 ∧
         d = { s.m with ports := d.ports })))))

/-- R371, R376-R378: what a port puts on its lanes next: a CONTROL flit, a resend, a DATA flit of the items that have credits, or an
IDLE flit. -/
def Sys2Proof.Claims.FlitsSentPart : Prop :=
  ∀ (p : Nat) (s : State) (x : Port), Calm s → portOf s.m p = x → portUp s.m p = true →
    (let sends := fun (d : Dev) (kind seq : Nat) (body : Bytes) =>
       (portOf d p).txPairs = (x.txPairs + 1) % 2 ^ 16 ∧ ∃ f, d.sentFlits = s.m.sentFlits ++ [f] ∧ Claims.IsFlit f p kind seq body x
     (∀ c l, x.control = c :: l → Completes (.flitTransmit p) s (fun d => (portOf d p).control = l ∧ sends d 2 0 (controlBody c))) ∧
     (∀ k l, x.control = [] → x.resend = k :: l → k.seq < 4096 → k.body.length ≤ 1277 → Completes (.flitTransmit p) s (fun d =>
       (portOf d p).resend = l ∧ (portOf d p).kept = x.kept ∧ Claims.Counted OD.flitsReplayed true s.m d ∧ sends d 0 k.seq k.body)) ∧
     (x.control = [] → x.resend = [] → x.tailItem = none → x.vc0 = [] → x.vc1 = [] → Completes (.flitTransmit p) s (fun d =>
       (portOf d p).txSeq = x.txSeq ∧ (portOf d p).kept = x.kept ∧ sends d 1 0 [])) ∧
     (∀ (q : Packet) t, x.control = [] → x.resend = [] → x.tailItem = none → x.vc0 = [{ item := .req q, since := t }] → x.vc1 = [] →
       q.payload.length ≤ 512 → x.kept.length < 512 → x.txSeq < 4096 → creditsFor (itemBytes (.req q)).length ≤ x.credit0 →
       Completes (.flitTransmit p) s (fun d =>
         (portOf d p).txSeq = (x.txSeq + 1) % 4096 ∧ (portOf d p).vc0 = [] ∧
         (portOf d p).credit0 = x.credit0 - creditsFor (itemBytes (.req q)).length ∧
         (∃ k, (portOf d p).kept = x.kept ++ [k] ∧ k.seq = x.txSeq ∧ k.sentAt = s.m.tick ∧ k.items = [.req q]) ∧
         sends d 0 x.txSeq (itemBytes (.req q)))) ∧
     (∀ (r : Resp) t, x.control = [] → x.resend = [] → x.tailItem = none → x.vc1 = [{ item := .resp r, since := t }] → x.vc0 = [] →
       r.data.length ≤ 512 → x.kept.length < 512 → x.txSeq < 4096 → creditsFor (itemBytes (.resp r)).length ≤ x.credit1 →
       Completes (.flitTransmit p) s (fun d =>
         (portOf d p).txSeq = (x.txSeq + 1) % 4096 ∧ (portOf d p).vc1 = [] ∧
         (portOf d p).credit1 = x.credit1 - creditsFor (itemBytes (.resp r)).length ∧ sends d 0 x.txSeq (itemBytes (.resp r)))) ∧
     (∀ i l, x.control = [] → x.resend = [] → x.tailItem = none → x.vc1 = [] → x.vc0 = i :: l →
       x.credit0 < creditsFor (itemBytes i.item).length → Completes (.flitTransmit p) s (fun d => (portOf d p).vc0 = x.vc0 ∧
         sends d 1 0 [])))

/-- R370, R371, R376-R379: flits received and sent, NAK and ACK timeouts; a port that is down takes and sends nothing. -/
def Obligations.FlitsAndReplay : Prop :=
  Claims.FlitsReceivedPart ∧ Claims.FlitsSentPart ∧
  ∀ (p : Nat) (s : State) (x : Port), Calm s → portOf s.m p = x →
    (portUp s.m p = false → Becomes (.nak p 0) s s.m ∧ Becomes (.ackTimeout p) s s.m ∧ Becomes (.flitTransmit p) s s.m ∧
      ∀ l01 l23 l4, Becomes (.flitReceive p l01 l23 l4) s s.m) ∧
    (portUp s.m p = true →
     (∀ seq, Completes (.nak p seq) s (fun d => Claims.PortIs p { x with resend := x.kept, ackAt := s.m.tick } s.m d ∧
       d = { s.m with ports := d.ports })) ∧
     (x.kept ≠ [] → x.ackAt + 4 ≤ s.m.tick → Completes (.ackTimeout p) s (fun d =>
       Claims.PortIs p { x with resend := x.kept, ackAt := s.m.tick } s.m d ∧ d = { s.m with ports := d.ports })) ∧
     ((x.kept = [] ∨ s.m.tick < x.ackAt + 4) → Becomes (.ackTimeout p) s s.m))

namespace Sys2Proof.Claims

/-- A port has gone down: it holds nothing and trains from the beginning; EV_3102 (R379). -/
structure GoesDown (p : Nat) (d d' : Dev) : Prop where
  down : portUp d' p = false
  state : portSt d' p = 1
  empty : portOf d' p = Port.new
  counted : Counted OD.linkGiveUps true d d'
  event : Raises [ev (8 + p / 16) 0x3102 p 0 []] d d'
  reports : Reports (fabricPortFn p) RS.init 1 d d'
  mem : d'.mem = d.mem

/-- Logical lane i is carried on the spare (R380, R381). -/
structure OnSpare (p i : Nat) (d d' : Dev) : Prop where
  lane : laneAt d' p i = 4
  others : ∀ j, j < 4 → j ≠ i → laneAt d' p j = laneAt d p j
  state : portSt d' p = 3
  counted : Counted OD.laneMoves true d d'
  event : Raises [ev (8 + p / 16) 0x3101 p i []] d d'
  reports : Reports (fabricPortFn p) RS.degraded 2 d d'

/-- A laser input is at least at the low threshold. -/
def goodInput (d : Dev) (las : Nat) : Prop :=
  ∃ x, ratOf (BitVec.ofNat 32 (rd d (OD.laserInputPower + las))) = some x ∧ ratBits (rd d OD.laserLowThreshold) ≤ x

/-- A port can train: it is enabled, down, not waiting for a retry, and its link die, engine and the security root work. -/
structure CanTrain (d : Dev) (p : Nat) : Prop where
  port : p < 32
  down : portUp d p = false
  idle : (portOf d p).retryAt = none
  notFailed : readyState d (fabricPortFn p) ≠ RS.failed
  enabled : (rd d OD.portEnable).testBit p = true
  parts : works d (linkDieFn (p / 16)) = true ∧ works d (engineFn (p / 4)) = true ∧ works d OD.readySecurity = true

end Sys2Proof.Claims

/-- R379-R384, R386, R587, R588: a link given up, retrained or held through an outage, lanes moved to the spare, laser inputs, and what
training makes of a port: disabled, unanswered, refused, or up with what it learned of its peer. -/
def Obligations.PortsLanesAndTraining : Prop :=
  ∀ (p : Nat) (s : State), Calm s → p < 32 →
    (let x := portOf s.m p
     (portUp s.m p = true →
      (∀ k l, x.kept = k :: l → (k.sentAt + rd s.m OD.replayBudget ≤ s.m.tick → Completes (.linkGiveUp p) s (Claims.GoesDown p s.m)) ∧
        (s.m.tick < k.sentAt + rd s.m OD.replayBudget → Becomes (.linkGiveUp p) s s.m)) ∧
      Completes (.retrain p) s (Claims.GoesDown p s.m) ∧
      (∀ i pair, i < 4 → spareFree s.m p = true → pairReached x.txPairs (pair % 2 ^ 16) = true →
        pairReached x.rxPairs (pair % 2 ^ 16) = true → Completes (.laneMove p i pair) s (Claims.OnSpare p i s.m)) ∧
      (∀ i pair, i < 4 → spareFree s.m p = true → (pairReached x.txPairs (pair % 2 ^ 16) = false ∨
        pairReached x.rxPairs (pair % 2 ^ 16) = false) → Completes (.laneMove p i pair) s (fun d =>
          Claims.PortIs p { x with moving := some (i, pair % 2 ^ 16) } s.m d ∧ d = { s.m with ports := d.ports } ∧
          ∀ n, laneNow d p (portOf d p) n i = if pairReached n (pair % 2 ^ 16) then 4 else laneAt s.m p i)) ∧
      (∀ i pair, spareFree s.m p = false → Becomes (.laneMove p i pair) s s.m) ∧
      (∀ i pair, i < 4 → x.moving = some (i, pair) → spareFree s.m p = true → pairReached ((x.txPairs + 1) % 2 ^ 16) pair = true →
        pairReached x.rxPairs pair = true → Completes (.flitTransmit p) s (fun d => laneAt d p i = 4 ∧ (portOf d p).moving = none)) ∧
      (∀ i n, i < 4 → n < 32704 → spareFree s.m p = true → x.moving = none → x.windowAt + 1000 ≤ s.m.tick → 0 < x.windowPairs →
        ratBits (rd s.m OD.laneDegradeRatio) * (x.windowPairs * 2720 : Nat) < (mget 0 x.laneErrs i : Nat) →
        Completes (.laneDegrade p i n) s (fun d => Claims.PortIs p { x with
            control := x.control ++ [.laneMove i (movePair x n)], moving := some (i, movePair x n) } s.m d ∧
          (∀ c ∈ [x.txPairs, x.rxPairs], c < 2 ^ 16 → 64 ≤ (movePair x n + 2 ^ 16 - c) % 2 ^ 16) ∧ d = { s.m with ports := d.ports })) ∧
      (∀ i n, (s.m.tick < x.windowAt + 1000 ∨ x.moving ≠ none ∨ 0 < x.windowPairs ∧
          (mget 0 x.laneErrs i : Nat) ≤ ratBits (rd s.m OD.laneDegradeRatio) * (x.windowPairs * 2720 : Nat)) →
        Becomes (.laneDegrade p i n) s s.m) ∧
      (∀ k, k < 5 → x.outage = none → laneFailed s.m p k = false →
        (∀ i, logicalOf s.m p k = some i → spareFree s.m p = true → Completes (.laneFail p k) s (fun d =>
          Claims.OnSpare p i s.m d ∧ laneFailed d p k = true)) ∧
        (∀ i, logicalOf s.m p k = some i → spareFree s.m p = false → Completes (.laneFail p k) s (Claims.GoesDown p s.m)) ∧
        (logicalOf s.m p k = none → Completes (.laneFail p k) s (fun d => laneFailed d p k = true ∧ portUp d p = true ∧
          (∀ j, j < 4 → laneAt d p j = laneAt s.m p j) ∧ d = { s.m with od := d.od }))) ∧
      Completes (.portOutage p) s (fun d => Claims.PortIs p { x with outage := some s.m.tick } s.m d ∧ d = { s.m with ports := d.ports }) ∧
      (∀ t, x.outage = some t →
        Completes (.outageHoldExpiry p true) s (fun d =>
          Claims.PortIs p { x with outage := none, resend := x.kept, ackAt := s.m.tick } s.m d ∧ d = { s.m with ports := d.ports }) ∧
        (t + rd s.m OD.outageHold ≤ s.m.tick → Completes (.outageHoldExpiry p false) s (Claims.GoesDown p s.m)) ∧
        (s.m.tick < t + rd s.m OD.outageHold → Becomes (.outageHoldExpiry p false) s s.m))) ∧
     (portUp s.m p = false → Becomes (.retrain p) s s.m ∧ Becomes (.portOutage p) s s.m ∧ ∀ k, Becomes (.laneFail p k) s s.m) ∧
     (Claims.CanTrain s.m p →
      (∀ n, Completes (.portTraining p none n) s (fun d => portSt d p = 1 ∧ readyState d (fabricPortFn p) = RS.init ∧
        d.sent = s.m.sent ++ [.trainingFrame p 3 (devNo s.m) 3 true true] ∧
        Claims.PortIs p { x with retryAt := some s.m.tick } s.m d)) ∧
      (∀ (y : Peer) n, y.gen ≠ 1 → y.spare = true → ((List.range 5).filter (fun k => !y.lanesBad.testBit k)).length < 4 →
        Completes (.portTraining p (some y) n) s (fun d => portUp d p = false ∧ (∀ k < 5, laneFailed d p k = y.lanesBad.testBit k) ∧
          Claims.PortIs p { x with retryAt := some s.m.tick } s.m d)) ∧
      (∀ (y : Peer) n, y.gen = 3 → y.spare = true → y.lanesBad = 0 → y.dev < 2 ^ 15 →
        (peerAuthentic s.m y n = true → y.isSwitch = false → readyState s.m (engineFn (p / 4)) ≠ RS.degraded →
          Completes (.portTraining p (some y) n) s (fun d => portSt d p = 2 ∧ portPeer d p = y.dev ∧ portGen d p = 3 ∧
            (∀ i, i < 4 → laneAt d p i = i) ∧ Claims.PortIs p { Port.new with ackAt := s.m.tick, windowAt := s.m.tick, precode := y.precode } s.m d ∧
            Msg.trainingCredits p 4096 4096 0 (wDst s.m) ∈ d.sent ∧
            readyState d (fabricPortFn p) = RS.ready ∧ Claims.Raises [Claims.ev (8 + p / 16) 0x3103 p 0 []] s.m d)) ∧
        (peerAuthentic s.m y n = false → Completes (.portTraining p (some y) n) s (fun d => portUp d p = false ∧
          Claims.Counted OD.linkAuthFailures true s.m d ∧ Claims.Raises [Claims.ev (8 + p / 16) 0x6010 p 0 []] s.m d ∧
          Claims.PortIs p { x with retryAt := some s.m.tick } s.m d))) ∧
      (∀ (y : Peer) n, y.gen ≠ 3 → y.isSwitch = false → rd s.m OD.legacyPeerPolicy ≠ 1 → Completes (.portTraining p (some y) n) s (fun d =>
        portUp d p = false ∧ Claims.PortIs p { x with retryAt := some s.m.tick } s.m d))) ∧
     (portUp s.m p = false → x.retryAt = none → readyState s.m (fabricPortFn p) ≠ RS.failed → (rd s.m OD.portEnable).testBit p = false →
       ∀ y n, Completes (.portTraining p y n) s (fun d => portSt d p = 4 ∧ Claims.Reports (fabricPortFn p) RS.absent 6 s.m d)) ∧
     (∀ t, x.retryAt = some t → (∀ y n, Becomes (.portTraining p y n) s s.m) ∧
       (t + 1000000 ≤ s.m.tick → Completes (.trainingRetry p) s (fun d => Claims.PortIs p { x with retryAt := none } s.m d ∧
         d = { s.m with ports := d.ports })) ∧
       (s.m.tick < t + 1000000 → Becomes (.trainingRetry p) s s.m)) ∧
     (∀ e held, e < 8 → 1 ≤ held → rd s.m (OD.laserActive + e) < 2 →
       (let a := rd s.m (OD.laserActive + e)
        (Claims.goodInput s.m (2 * e + a) → Becomes (.laserInputLow e held) s s.m) ∧
        (¬Claims.goodInput s.m (2 * e + a) → Claims.goodInput s.m (2 * e + (1 - a)) → Completes (.laserInputLow e held) s (fun d =>
          rd d (OD.laserActive + e) = 1 - a ∧ Claims.Reports (engineFn e) RS.degraded 2 s.m d ∧ d.ports = s.m.ports ∧
          Claims.Raises [Claims.ev (8 + e / 4) 0x3110 e 0 []] s.m d)) ∧
        (¬Claims.goodInput s.m (2 * e + a) → ¬Claims.goodInput s.m (2 * e + (1 - a)) → Completes (.laserInputLow e held) s (fun d =>
          rd d (OD.laserActive + e) = 2 ∧ Claims.Reports (engineFn e) RS.failed 4 s.m d ∧
          (∀ q, q / 4 = e → portUp d q = false) ∧ e ∈ d.pow.lowStandby ∧
          (e ∉ s.m.pow.lowStandby → Claims.Raises [Claims.ev (8 + e / 4) 0x3111 e 0 []] s.m d))))))

namespace Sys2Proof.Claims

/-- An access of a host through edge e is in flight or decided: number id, its status, packets, data, and what it waits for. -/
structure HostOp (d : Dev) (id e : Nat) (write : Bool) (st : Status) (pk : List PktRec) (after : List Nat) (op : FabOp) : Prop where
  found : findOp d id = some op
  use_ : op.use_ = if write then .hostWrite e else .hostRead e
  slot : op.slot = 10244 + e
  status : op.status = st
  fixed : op.fixed = decide (st ≠ ST.ok)
  packets : op.pkts = pk
  after : op.after = after

end Sys2Proof.Claims

/-- R133, R388-R392: a host's accesses through the BARs of an edge port whose link is up: what no function takes is an Unsupported
Request, also in D3hot; the mailbox, control space, members through BAR2. -/
def Sys2Proof.Claims.HostAccessPart : Prop :=
  ∀ (e : Nat) (s : State), Calm s → e < 2 →
    (let id := s.m.tw.nextOp
     let ctx := rd s.m OD.hostContext
     let earlier := hostWrites s.m e
     let unsupported := fun (c : Instr) => Becomes c s { s.m with
       sent := s.m.sent ++ [.unsupported e], pow := { s.m.pow with aer := mput 0 s.m.pow.aer e (Nat.lor (mget 0 s.m.pow.aer e) (2 ^ 20)) } }
     (hostLinked s.m e = false → ∀ o n w, Becomes (.hostBar0Access e o n w) s s.m ∧ Becomes (.hostBar2Access e o n w) s s.m) ∧
     (hostLinked s.m e = true →
      (mget false s.m.pow.d3hot e = true → ∀ o n w, unsupported (.hostBar0Access e o n w) ∧ unsupported (.hostBar2Access e o n w)) ∧
      (∀ o n w, (o < 0x1000000 ∨ (0x2800000 ≤ o ∧ o < 0x3000000) ∨ 0x3010000 ≤ o) → unsupported (.hostBar0Access e o n w)) ∧
      (∀ o n w, 2 ^ 53 ≤ o → unsupported (.hostBar2Access e o n w)) ∧
      (mget false s.m.pow.d3hot e = false →
       (∀ o n (v : Bytes), 0x40 ≤ o → o + v.length ≤ 0x8000 → Becomes (.hostBar0Access e (0x3000000 + o) n (some v)) s
        { s.m with hv := { s.m.hv with mailIn := bufWrite s.m.hv.mailIn (o - 0x40) v } }) ∧
       (∀ k, k < 65536 → s.m.tw.ops = [] → s.m.tw.hot = [] → outstandingTo s.m (devNo s.m) < creditOf s.m (devNo s.m) →
        stillStarting s.m (counterBase + 8 * k) = false → devNo s.m < 2 ^ 15 → s.m.tw.retxUntil = none →
        Completes (.hostBar0Access e (counterBase + 8 * k - 0x1F00000000000) 8 none) s (fun d => ∃ op, findOp d id = some op ∧
          op.use_ = .hostRead e ∧ op.status = ST.ok ∧ op.data = leBytes 8 (counterAt s.m k) ∧ d.mem = s.m.mem)) ∧
       (∀ m a n w, m < 16 → a < 2 ^ 49 →
        (let dev := hostMember s.m m
         let acc := Instr.hostBar2Access e (2 ^ 49 * m + a) n
         let to_ := gAddr dev a
         let st := if dev = 0xFFFF then ST.access else ST.state
         let fails := fun (st : Status) =>
           Completes (acc (some w)) s (fun d => findOp d id = none ∧ Claims.Counted OD.hostWriteFailures true s.m d ∧ d.mem = s.m.mem ∧
             Claims.Raises [Claims.ev (8 + e) 0x3121 e st.toNat []] s.m d) ∧
           Completes (acc none) s (fun d => d.mem = s.m.mem ∧ ∃ op, Claims.HostOp d id e false st [] earlier op)
         (dev = 0xFFFF ∨ (ctxOf s.m ctx).st ≠ .live → fails st) ∧
         (dev < 2 ^ 15 → (ctxOf s.m ctx).st = .live → s.m.tw.fttPending = none → 1 ≤ n → a % 256 + n ≤ 256 →
          ((∀ x, fttLookup s.m.tw.ftt0 ctx to_ = some x → x.wr = false ∧ x.rd = false) → fails ST.access) ∧
          (mapped a n = false → fails ST.access) ∧
          (∀ x, fttLookup s.m.tw.ftt0 ctx to_ = some x → mapped a n = true →
           (let tgt := x.tgt * 65536 + to_ % 2 ^ pageBits x.size
            let wait := if inControl a then earlier else []
            peerGen s.m (gDev tgt) = 3 → mapped (gLocal tgt) 1 = true →
            (x.wr = true → n ∈ [1, 2, 4, 8] → a % n = 0 → Completes (acc (some w)) s (fun d => d.mem = s.m.mem ∧
              ∃ op, Claims.HostOp d id e true ST.ok [PktRec.new .store tgt 0 n] wait op ∧
                word op.desc.words 2 = BitVec.ofNat 64 (leNat (w.take 8)))) ∧
            (x.wr = true → ¬(n ∈ [1, 2, 4, 8] ∧ a % n = 0) → Completes (acc (some w)) s (fun d => d.mem = s.m.mem ∧
              ∃ op, Claims.HostOp d id e true ST.ok [PktRec.new .write tgt 0 n] wait op ∧ op.data = w)) ∧
            (x.rd = true → Completes (acc none) s (fun d => d.mem = s.m.mem ∧
              ∃ op, Claims.HostOp d id e false ST.ok [PktRec.new .read tgt 0 n] earlier op))))))))))

/-- R304, R388-R392, R628: a host's accesses, what completes its reads and what AER keeps of them, the link state and PERST_N of the
port. -/
def Obligations.HostAccesses : Prop :=
  Claims.HostAccessPart ∧
  ∀ (e : Nat) (s : State), Calm s → e < 2 →
    (∀ k op, findOp s.m k = some op → op.use_ = .hostRead e →
      (let answer : HostAnswer := if op.status = ST.ok then .success else if op.status = ST.poison then .poisoned else .abort
       let aer := if op.status = ST.ok then s.m.pow.aer else
         mput 0 s.m.pow.aer e (Nat.lor (mget 0 s.m.pow.aer e) (2 ^ (if op.status = ST.poison then 12 else 15)))
       (decided op = true → (∀ i ∈ op.after, findOp s.m i = none) → Completes (.hostReadComplete k) s (fun d => findOp d k = none ∧
         d.sent = s.m.sent ++ [.hostReply e answer (if answer = .abort then [] else op.data)] ∧
         d = { s.m with tw := d.tw, sent := d.sent, pow := { s.m.pow with aer := aer } })) ∧
       ((decided op = false ∨ ∃ i ∈ op.after, findOp s.m i ≠ none) → Becomes (.hostReadComplete k) s s.m))) ∧
    (edgeRoleOf s.m e ≠ 1 → (∀ st r w h, Becomes (.edgeLinkStateChange e st (r, w) h) s s.m) ∧ ∀ b, Becomes (.fundamentalReset e b) s s.m) ∧
    (edgeRoleOf s.m e = 1 → ∀ r w h,
      ((1 ≤ r ∧ r ≤ 6 ∧ w ∈ [4, 8, 16]) → works s.m (linkDieFn e) = true → mget false s.m.pow.perst e = false →
        Completes (.edgeLinkStateChange e 2 (r, w) h) s (fun d =>
          rd d (OD.edgeLinkState + e) = 2 + r * 2 ^ 3 + w * 2 ^ 6 ∧ Claims.Reports (edgeFn e) RS.ready 0 s.m d ∧
          mget false d.pow.d3hot e = h ∧ mget 0 d.pow.aer e = mget 0 s.m.pow.aer e ∧
          (nfld (rd s.m (OD.edgeLinkState + e)) 2 0 ≠ 2 → Claims.Raises [Claims.ev (8 + e) 0x3120 e 0 []] s.m d))) ∧
      (¬(1 ≤ r ∧ r ≤ 6 ∧ w ∈ [4, 8, 16]) ∨ mget false s.m.pow.perst e = true → Becomes (.edgeLinkStateChange e 2 (r, w) h) s s.m) ∧
      Completes (.edgeLinkStateChange e 0 (r, w) h) s (fun d => rd d (OD.edgeLinkState + e) = 0 ∧ Claims.Reports (edgeFn e) RS.init 1 s.m d ∧
        mget false d.pow.d3hot e = false ∧ mget 0 d.pow.aer e = 0 ∧
        (nfld (rd s.m (OD.edgeLinkState + e)) 2 0 = 2 → Claims.Raises [Claims.ev (8 + e) 0x3120 e 0 []] s.m d)) ∧
      Completes (.fundamentalReset e true) s (fun d => mget false d.pow.perst e = true ∧ rd d (OD.edgeLinkState + e) = 0 ∧
        Claims.Reports (edgeFn e) RS.init 1 s.m d) ∧
      Completes (.fundamentalReset e false) s (fun d => mget false d.pow.perst e = false ∧ d.od = s.m.od))

namespace Sys2Proof.Claims

/-- n bytes at a can be read: no step is loaded, no line is poison, and the LLC is settled, so that an eviction changes no byte. -/
def CanRead (d : Dev) (a n : Nat) : Prop :=
  d.seq.regions = [] ∧ d.mem.settled = true ∧ spaceStatus d a n = ST.ok ∧ ∀ b, poisonAt d b = false

/-- n numbers of FP32 stand at a: number i is v i; every other byte of memory is as before. -/
def Fp32s (a n : Nat) (v : Nat → W32) (d d' : Dev) : Prop :=
  (∀ i, i < n → f32At d' (a + 4 * i) = v i) ∧ ∀ b < 2 ^ 49, (b < a ∨ a + 4 * n ≤ b) → byteAt d' b = byteAt d b

/-- Element i of a member's contribution: SRC, a BF16 element widened, or SRC added into LACC with N > 1 (R408, R420). -/
def contributed (d : Dev) (x : FabDesc) (i : Nat) : W32 :=
  let src := gLocal (fdSrc x)
  let e := if arSrcBf16 x.record then widen .bf16 (leNat (bytesAt d (src + 2 * i) 2)) else f32At d (src + 4 * i)
  if arN x.record = 1 then e else fadd (f32At d (arLacc x.record + 4 * i)) e

/-- Elements lo to lo + n of SRC, and of LACC where N > 1, can be read. -/
def CanContribute (d : Dev) (x : FabDesc) (lo n : Nat) : Prop :=
  CanRead d (gLocal (fdSrc x) + lo * arSrcBytes x.record) (n * arSrcBytes x.record) ∧
  (arN x.record ≠ 1 → CanRead d (arLacc x.record + 4 * lo) (4 * n))

/-- A RUN in progress whose queue has no place free: what it has to send waits in its backlog (R398). -/
structure Held (d : Dev) (id : Nat) (c : Running) : Prop where
  running_ : running d id = some c
  full : rd d OD.outstandingPerQueue ≤ (slotOps d c.op.slot).length

/-- Tree t of RUN id has become x, w bytes of OUT are written, and writes and puts have joined what it has to send; only its
progress and memory differ. -/
def RunMoves (id t : Nat) (c : Running) (x : TreeRun) (w : Nat) (outs : List AntlerOut) (d d' : Dev) : Prop :=
  d' = { d with mem := d'.mem, runs := d'.runs } ∧ ∃ r, mfind d'.runs id = some r ∧ r.trees[t]? = some x ∧
    (∀ u, u ≠ t → r.trees[u]? = c.run.trees[u]?) ∧
    r = { c.run with trees := r.trees, wrote := c.run.wrote + w, backlog := c.run.backlog ++ outs }

/-- One write or put of n bytes: none moves where there are none. -/
def onePut (code : Option Nat) (dst : Nat) (bs : Bytes) (cnt : Nat) : AntlerOut :=
  ⟨code, dst, if bs = [] then [] else [(dst, bs)], cnt, false⟩

/-- What every child in tree t is sent at local address a (R401). -/
def kidPuts (c : Running) (t a : Nat) (bs : Bytes) (cnt : Nat) : List AntlerOut :=
  (c.kids t).map (fun q => onePut none (c.atPos t q a) bs cnt)

end Sys2Proof.Claims

/-- R398, R401, R408, R415, R420, R424: how a RUN begins: nothing to exchange, its trees, an accumulation into LACC outside a reduction
step, the root's copy of a BROADCAST; an increment of one of its counters starts its wait limit again. -/
def Sys2Proof.Claims.AntlerBeginsPart : Prop :=
  (∀ (id : Nat) (op : FabOp) (s : State) (g : GroupRec) (a : AntlerRun), Calm s → Claims.Issued s.m id op → isRun op.desc = true →
    mfind s.m.seq.groups (arGroup op.desc.record) = some g → mfind s.m.runs id = some a →
    (let x := op.desc
     let r := x.record
     let src := gLocal (fdSrc x)
     let trees := List.replicate (treeCount r) TreeRun.start
     let begun := fun (d : Dev) (a' : AntlerRun) => Claims.OpIs id { op with begun := true } s.m d ∧ mfind d.runs id = some a' ∧
       d = { s.m with mem := d.mem, tw := d.tw, runs := d.runs, seq := d.seq }
     (fdLen x = 0 → Completes (.run id) s (fun d => begun d a ∧ d.mem = s.m.mem)) ∧
     (fdLen x ≠ 0 → arKind r < 4 → x.step % arN r = arPhase r → Completes (.run id) s (fun d => d.mem = s.m.mem ∧
       begun d { a with agreed := rcSexp (wordsAt s.m (arScale r) 20), trees := trees })) ∧
     (fdLen x ≠ 0 → arKind r < 4 → x.step % arN r ≠ arPhase r → Claims.CanContribute s.m x 0 (runElems x r) →
       Claims.CanWrite s.m (arLacc r) (4 * runElems x r) → Completes (.run id) s (fun d => begun d { a with accOnly := true } ∧
         Claims.Fp32s (arLacc r) (runElems x r) (Claims.contributed s.m x) s.m d)) ∧
     (fdLen x ≠ 0 → arKind r = 4 → posOf r g.members.length 0 g.rank = 0 → Claims.CanRead s.m src (fdLen x) →
       Claims.CanWrite s.m (arOut r) (fdLen x) → Completes (.run id) s (fun d =>
         begun d { a with agreed := 0, trees := trees, wrote := a.wrote + fdLen x } ∧
         Claims.Stored (arOut r) (bytesAt s.m src (fdLen x)) s.m d)) ∧
     (fdLen x ≠ 0 → (arKind r = 5 ∨ arKind r = 4 ∧ posOf r g.members.length 0 g.rank ≠ 0) → Completes (.run id) s (fun d =>
       d.mem = s.m.mem ∧ begun d { a with agreed := 0, trees := trees })))) ∧
  (∀ (p : Packet) (w id : Nat) (a : AntlerRun) (s : State), Calm s → Claims.Arrives s.m p → p.opk = .count → p.cntEn = true →
    s.m.tw.replay = [] → 0 < rd s.m OD.replayWindowEntries → s.m.runs = [(id, a)] → a.first ≤ p.cnt → p.cnt < a.first + a.count →
    Completes (.requestArrival p w) s (fun d => mfind d.runs id = some { a with seen := s.m.tick } ∧ Claims.Raised p.cnt s.m d))

/-- R398, R401, R405, R408, R411, R415, R416: what an up step and a down step of an FP32 RUN compute, keep and send, over every tree and
position, and the steps of a BROADCAST and an ALL_GATHER; a step that is not ready waits. -/
def Sys2Proof.Claims.AntlerSequencesPart : Prop :=
  ∀ (id t : Nat) (s : State) (c : Running) (x : TreeRun), Calm s → Claims.Held s.m id c → c.run.trees[t]? = some x →
    (let r := c.rec_
     let p := c.pos t
     let kids := (c.kids t).length
     (c.wire = 2 → arKind r < 4 → x.up < arChunks r →
      (let lo := (c.chunk t x.up).1
       let n := (c.chunk t x.up).2 - lo
       let cs := (List.range n).map (fun i => Claims.contributed s.m c.op.desc (lo + i))
       let u := fun i => (([c.slotL t lo, c.slotR t lo].take kids).foldl
         (fun a b => ftzWord (fadd a (Claims.f32At s.m (b + 4 * i)))) (ftzWord (cs.getD i 0)))
       (counterAt s.m (c.dataCnt t x.up) < kids → Becomes (.antlerUpChunk id t) s s.m) ∧
       (kids ≤ counterAt s.m (c.dataCnt t x.up) → Claims.CanContribute s.m c.op.desc lo n →
         Claims.CanRead s.m (c.slotL t lo) (4 * n) → Claims.CanRead s.m (c.slotR t lo) (4 * n) →
         Claims.CanWrite s.m (c.slotU t lo) (4 * n) → (p ≠ 0 → ∀ m, c.grp.members[rankAt r c.n t (parentOf p)]? = some m → m.gen ≠ 1) →
         rankAt r c.n t (parentOf p) < c.grp.members.length → Completes (.antlerUpChunk id t) s (fun d =>
           Claims.Fp32s (c.slotU t lo) n u s.m d ∧ Claims.RunMoves id t c { x with up := x.up + 1, own := x.own ++ cs } 0
             (if p = 0 then [] else
             [Claims.onePut (some (if p % 2 = 1 then 0x16 else 0x17))
               (c.atPos t (parentOf p) (if p % 2 = 1 then c.slotL t lo else c.slotR t lo))
               ((List.range n).flatMap (fun i => leBytes 4 (u i).toNat)) (c.dataCnt t x.up)]) s.m d)))) ∧
     (c.wire = 2 → arKind r = 1 → arOutBf16 r = false → x.down < arChunks r →
      (let lo := (c.chunk t x.down).1
       let n := (c.chunk t x.down).2 - lo
       let from_ := if p = 0 then c.slotU t lo else c.slotV t lo
       (x.up ≤ x.down ∨ (p ≠ 0 ∧ counterAt s.m (c.dataCnt t x.down) < kids + 1) → Becomes (.antlerDownChunk id t) s s.m) ∧
       (x.down < x.up → (p = 0 ∨ kids + 1 ≤ counterAt s.m (c.dataCnt t x.down)) → Claims.CanRead s.m from_ (4 * n) →
         Claims.CanWrite s.m (arOut r + 4 * lo) (4 * n) → Completes (.antlerDownChunk id t) s (fun d =>
           Claims.Fp32s (arOut r + 4 * lo) n (fun i => rne32 (decode .fp32 (Claims.f32At s.m (from_ + 4 * i)).toNat)) s.m d ∧
           Claims.RunMoves id t c { x with down := x.down + 1 } (4 * n)
             (Claims.kidPuts c t (c.slotV t lo) (bytesAt s.m from_ (4 * n)) (c.dataCnt t x.down)) s.m d)))) ∧
     (arKind r = 4 → x.down < arChunks r →
      (let lo := (c.chunk t x.down).1
       let n := (c.chunk t x.down).2 - lo
       (p ≠ 0 → counterAt s.m (c.dataCnt t x.down) < 1 → Becomes (.antlerDownChunk id t) s s.m) ∧
       ((p = 0 ∨ 1 ≤ counterAt s.m (c.dataCnt t x.down)) → Claims.CanRead s.m (arOut r + lo) n → Completes (.antlerDownChunk id t) s (fun d =>
         (∀ b < 2 ^ 49, byteAt d b = byteAt s.m b) ∧ Claims.RunMoves id t c { x with down := x.down + 1 } (if p = 0 then 0 else n)
           (Claims.kidPuts c t (arOut r + lo) (bytesAt s.m (arOut r + lo) n) (c.dataCnt t x.down)) s.m d)))) ∧
     (arKind r = 5 → t = 0 → x.down < c.n → Claims.CanRead s.m (gLocal (fdSrc c.op.desc)) (fdLen c.op.desc) →
       Completes (.antlerDownChunk id t) s (fun d => (∀ b < 2 ^ 49, byteAt d b = byteAt s.m b) ∧
         Claims.RunMoves id t c { x with down := x.down + 1 } 0
           [Claims.onePut none (c.at_ x.down (arOut r + c.grp.rank * fdLen c.op.desc))
             (bytesAt s.m (gLocal (fdSrc c.op.desc)) (fdLen c.op.desc)) c.gatherCnt] s.m d)))

/-- R403, R404, R413, R414, R423, R424, R427, R428: the root's mark list, a repair pass at a root without children, the end of a RUN
with its counters zeroed, its failure by the wait limit. -/
def Sys2Proof.Claims.AntlerRepairAndEndPart : Prop :=
  ∀ (id t : Nat) (s : State) (c : Running) (x : TreeRun), Calm s → Claims.Held s.m id c → c.run.trees[t]? = some x →
    (let r := c.rec_
     let core := slotCore c.op.slot
     let outs := Claims.kidPuts c t (c.marks t)
     ((c.wire ≠ 0 ∨ 4 ≤ arKind r) → Becomes (.markList id t) s s.m) ∧
     (c.wire = 0 → arKind r < 4 → c.pos t = 0 →
      (x.up < arChunks r → Becomes (.markList id t) s s.m) ∧
      (arChunks r ≤ x.up → x.list = none → x.total = none → x.passes = 0 → x.marked.length < 2 ^ 32 →
       (x.marked = [] → Completes (.markList id t) s (fun d => Claims.Counted OD.repairPasses false s.m d ∧
         Claims.RunMoves id t c { x with total := some 0, upDone := false } 0
           (outs (leBytes 4 0 ++ leBytes 4 0) (c.markCnt t)) { s.m with od := d.od, ev := d.ev } d)) ∧
       (x.marked ≠ [] → x.marked.length ≤ 4096 → Completes (.markList id t) s (fun d =>
         Claims.RunMoves id t c { x with total := some x.marked.length, list := some x.marked, upDone := false } 0
           (outs (leBytes 4 x.marked.length ++ leBytes 4 1 ++ x.marked.flatMap (leBytes 4)) (c.markCnt t)) { s.m with od := d.od, ev := d.ev } d ∧
         Claims.Counted OD.repairPasses true s.m d ∧
         rd d OD.blocksMarked = (rd s.m OD.blocksMarked + x.marked.length) % 2 ^ 64)))) ∧
     (c.wire = 0 → arKind r < 4 → c.pos t ≠ 0 → x.list = none → x.total = none → counterAt s.m (c.markCnt t) ≤ x.taken →
       Becomes (.markList id t) s s.m) ∧
     (x.list = none → Becomes (.repairPass id t) s s.m) ∧
     (∀ b, x.list = some [b] → x.upDone = false → c.n = 1 → c.pos t = 0 → arKind r = 1 → arOutBf16 r = false →
       x.taken ≤ counterAt s.m (c.markCnt t) →
       (let lo := 32 * b
        let n := min c.elems (32 * b + 32) - lo
        (x.down < arChunks r → Becomes (.repairPass id t) s s.m) ∧
        (arChunks r ≤ x.down → Claims.CanWrite s.m (arOut r + 4 * lo) (4 * n) → Completes (.repairPass id t) s (fun d =>
          Claims.Fp32s (arOut r + 4 * lo) n (fun i => rne32 (decode .bf16 (round .bf16 RMode.rne false (f32
            (widen .bf16 (round .bf16 RMode.rne false (f32 (x.own.getD (c.off t (lo + i)) 0))).bits))).bits)) s.m d ∧
          Claims.RunMoves id t c { x with list := none, passes := x.passes + 1 } 0 [] s.m d)))) ∧
     (runDone s.m id c = false → Becomes (.runComplete id) s s.m) ∧
     (MemoryOpen s.m → runDone s.m id c = true → c.run.trees ≠ [] → c.op.begun = true → c.op.status = ST.ok → isRun c.op.desc = true →
       fdDstCntEn c.op.desc = false → fdSrcCntEn c.op.desc = false → arN r = 1 →
       fdFlag c.op.desc = false → Completes (.runComplete id) s (fun d => findOp d id = none ∧ mfind d.runs id = none ∧
         (∀ k, counterAt d k = if arCnt r ≤ k ∧ k < arCnt r + 2 * arChunks r + 3 then 0 else counterAt s.m k) ∧
         Claims.Counted OD.runsCompleted true s.m d ∧ Claims.Counted OD.fabricOpsCompleted true s.m d ∧
         Claims.Counted OD.runsFailed false s.m d)) ∧
     (∀ st, MemoryOpen s.m → st ≠ ST.ok → isRun c.op.desc = true → findOp s.m id = some c.op → Completes (.runComplete id)
         { s with m := setOp id { c.op with fixed := true, status := st } s.m } (fun d => findOp d id = none ∧
         Claims.Counted OD.runsFailed true s.m d ∧ Claims.Counted OD.runsCompleted false s.m d ∧
         Claims.Raises [Claims.ev (core / 512) 0x3402 core st.toNat []] s.m d)) ∧
     (runWaits s.m id c = true → c.run.seen + rd s.m OD.antlerWaitLimit ≤ s.m.tick → Completes (.antlerWaitTimeout id) s (fun d =>
       Claims.OpIs id { c.op with status := firstBad c.op.status ST.timeout, fixed := true } s.m d ∧
       (∃ a, mfind d.runs id = some a ∧ a.backlog = []) ∧ d.mem = s.m.mem)) ∧
     ((runWaits s.m id c = false ∨ s.m.tick < c.run.seen + rd s.m OD.antlerWaitLimit) → Becomes (.antlerWaitTimeout id) s s.m))

/-- R398, R401-R405, R408, R411, R413-R416, R420, R423, R424, R427, R428: an Antler operation's beginning, its chunks up and down, its
repair and its end. -/
def Obligations.AntlerOperations : Prop := Claims.AntlerBeginsPart ∧ Claims.AntlerSequencesPart ∧ Claims.AntlerRepairAndEndPart

namespace Sys2Proof.Claims

/-- Nothing but the input current keeps a step from opening (R453, R483, R608). -/
structure CanOpen (d : Dev) : Prop where
  due : d.seq.opening = true
  services : works d (serviceFn 0) = true ∧ works d (serviceFn 2) = true ∧ works d (serviceFn 3) = true
  resets : ∀ r ∈ d.faults.resets, r.tier < 3
  power : d.pow.down = .none

/-- The current a step waits for: the peak of the last committed step, or the set first value, less the headroom (R608). -/
def neededCurrent (d : Dev) : ℚ :=
  ratBits (rd d (if d.seq.committed then OD.lastStepPeakCurrent else OD.firstStepCurrent)) - ratBits (rd d OD.stepOpenHeadroom)

end Sys2Proof.Claims

/-- R431, R434, R438, R452, R453, R608: LOAD, START, STOP and UNLOAD in each state of the sequencer, and the opening of a step with its
information block, or its wait for the input current. -/
def Obligations.StepCommandsAndOpening : Prop :=
  ∀ (p : Path) (s : State), Calm s →
    (let key := OD.stepCommand
     let st := s.m.seq.st
     (∀ t, t < 2 ^ 49 →
      (st = .idle → tableRefusal s.m t = none → Claims.Commanded (.load p t false) s p key .rws ST.ok (fun d =>
        d.seq.st = .loaded ∧ d.seq.table = t ∧ d.seq.header = wordsAt s.m t 16 ∧ d.seq.half = [] ∧ d.seq.written = [] ∧
        rd d OD.loadStatus = 0 ∧ ∀ a, (∀ r ∈ d.seq.regions, a < r.map ∨ r.map + r.length / 256 ≤ a) → cellAt d.mem a = cellAt s.m.mem a)) ∧
      (∀ r, st = .idle → tableRefusal s.m t = some r → r.st ≠ ST.ok → Claims.Accepted s.m p key .rws → commandPending s.m key = false →
        Completes (.load p t false) s (fun d => d.hv.replyStatus = r.st ∧ rd d OD.loadStatus = r.st.toNat ∧
          rd d OD.loadFailAddress = r.addr ∧ d.seq = s.m.seq ∧ d.mem = s.m.mem ∧
          Claims.Raises [Claims.ev (svcPort s.m 0) 0x3604 0 0 []] s.m d)) ∧
      (st ≠ .idle → Claims.TurnedAway (.load p t false) s p key .rws ST.state [])) ∧
     (∀ n, n < 2 ^ 64 →
      ((st = .loaded ∨ st = .halted) → Claims.Commanded (.start p n false) s p key .rws ST.pending (fun d =>
        d.seq = { s.m.seq with opening := true, attempt := 0, endless := decide (n = 0) } ∧ rd d OD.stepsRemaining = (if n = 0 then 2 ^ 64 - 1 else n))) ∧
      (st ≠ .loaded → st ≠ .halted → Claims.TurnedAway (.start p n false) s p key .rws ST.state [])) ∧
     ((st = .open ∨ st = .gate) → Claims.Commanded (.stop p false) s p key .rws ST.pending (fun d =>
       d.seq = { s.m.seq with stopPending := true })) ∧
     (st = .committing → Claims.Commanded (.stop p false) s p key .rws ST.ok (fun d =>
       d.seq = { s.m.seq with st := .loaded, opening := false } ∧ d.mem = s.m.mem)) ∧
     ((st = .idle ∨ st = .loaded ∨ st = .halted) → Claims.TurnedAway (.stop p false) s p key .rws ST.state []) ∧
     ((st = .loaded ∨ st = .halted) → Claims.Commanded (.unload p false) s p key .rws ST.ok (fun d =>
       d.seq.st = .idle ∧ d.seq.regions = [] ∧ d.seq.half = [] ∧ d.seq.written = [] ∧ rd d OD.shadowBytes = 0 ∧
       (∀ r, s.m.seq.regions = [r] → r.base + r.length ≤ hbmEnd → r.half1 + r.length ≤ hbmEnd → r.map + r.length / 256 ≤ hbmEnd →
         s.m.mem.settled = true → (∀ l ∈ s.m.seq.half, r.base ≤ 64 * l ∧ 64 * l + 64 ≤ r.base + r.length) → s.m.seq.half.Nodup →
         r.base % 64 = 0 → r.half1 % 64 = 0 → r.map % 64 = 0 → r.length % 2048 = 0 → overlaps r.base r.length r.half1 r.length = false →
         overlaps r.base r.length r.map (r.length / 256) = false → s.m.mem.poison = [] →
         ∀ a, r.base ≤ a → a < r.base + r.length → byteAt d a = byteAt s.m a))) ∧
     ((st = .idle ∨ st = .open ∨ st = .gate ∨ st = .committing) → Claims.TurnedAway (.unload p false) s p key .rws ST.state [])) ∧
    ((s.m.seq.opening = false ∨ (∃ i ∈ [0, 2, 3], works s.m (serviceFn i) = false) ∨ (∃ r ∈ s.m.faults.resets, 3 ≤ r.tier) ∨
        s.m.pow.down ≠ .none) → Becomes .stepOpen s s.m) ∧
    (Claims.CanOpen s.m → ratBits s.m.pow.windowCurrent.toNat < Claims.neededCurrent s.m → Completes .stepOpen s (fun d =>
      d.seq = s.m.seq ∧ d.pow = { s.m.pow with waiting := true } ∧ d.mem = s.m.mem ∧
      Claims.Counted OD.stepOpenWaits (!s.m.pow.waiting) s.m d)) ∧
    (let block := leBytes 8 (rd s.m OD.stepNumber + s.m.seq.attempt * 2 ^ 48) ++ leBytes 8 (rd s.m OD.jobDataPosition) ++
       List.replicate 48 0 ++ rdFull s.m OD.shardCursors
     Claims.CanOpen s.m → Claims.neededCurrent s.m ≤ ratBits s.m.pow.windowCurrent.toNat → stPre s.m.seq.header = 0 →
     Claims.CanWrite s.m (stInfo s.m.seq.header) block.length → Completes .stepOpen s (fun d =>
       d.seq.st = .open ∧ d.seq.phase = .pre ∧ d.seq.opening = false ∧ d.seq.items = [] ∧ d.seq.cause = 0 ∧ d.seq.vote = none ∧
       d.seq.attempt = s.m.seq.attempt ∧ d.pow.waiting = false ∧ commandPending d OD.stepCommand = false ∧
       Claims.Stored (stInfo s.m.seq.header) block s.m d))

namespace Sys2Proof.Claims

/-- Item k has become x; the other items are as before. -/
def ItemIs (k : Nat) (x : ItemRun) (d d' : Dev) : Prop :=
  mfind d'.seq.items k = some x ∧ ∀ j, j ≠ k → mfind d'.seq.items j = mfind d.seq.items j

/-- Item k has failed: a fault is a cause of abandonment (R439, R451). -/
def ItemFails (k : Nat) (it : ItemRun) (d d' : Dev) : Prop :=
  ItemIs k { it with st := .done } d d' ∧ d'.seq.cause = max d.seq.cause 4

/-- A list's items wait, from number n on (R450). -/
def ListWaits (n : Nat) (o : ListOf) (ws : List (List W64)) (mb stride : Nat) (d d' : Dev) : Prop :=
  d'.seq.nextItem = n + ws.length ∧ (∀ i, i < ws.length → mfind d'.seq.items (n + i) = some (newItem o mb stride i (ws.getD i []))) ∧
  ∀ j, j < n → mfind d'.seq.items j = mfind d.seq.items j

/-- A step is open with nothing against it and item k of a kind waits its turn, which has come. -/
structure Turn (s : State) (k kind : Nat) (it : ItemRun) : Prop where
  found : mfind s.m.seq.items k = some it
  kind_ : it.kind = kind
  may : mayBegin s.m it = true

end Sys2Proof.Claims

/-- R205-R209, R422, R432, R449-R451, R454-R456: what each list item does when its turn comes, and that it waits until then; the
overflow policy of a LAYER item whose grids have ended; the first part of a LOWRANK item (its P for one row and rank 1); the units. -/
def Obligations.StepItems : Prop :=
  (∀ (k : Nat) (s : State) (it : ItemRun), Calm s → mfind s.m.seq.items k = some it → mayBegin s.m it = false →
    Becomes (.launchItem k) s s.m ∧ Becomes (.postItem k) s s.m ∧ Becomes (.layerItem k) s s.m) ∧
  (∀ (s : State) (it : ItemRun), it.after = true → (∃ e ∈ s.m.seq.items, e.2.owner = it.owner ∧ e.2.index < it.index ∧
    e.2.st ≠ .done) → mayBegin s.m it = false) ∧
  (∀ (k : Nat) (s : State) (it : ItemRun), Calm s → Claims.Turn s k 1 it → (readMem s.m it.addr 32).1 = ST.ok →
    (let ws := wordsOf 4 (readMem s.m it.addr 32).2
     (launchStatus s.m ws = ST.ok → fld (word ws 1) 31 0 ≠ 0 → Completes (.launchItem k) s (fun d =>
       Claims.ItemIs k { it with st := .begun, grid := some s.m.nextGrid } s.m d ∧ d.seq.cause = s.m.seq.cause ∧
       ∃ g, mfind d.grids s.m.nextGrid = some g ∧ g.item = some k ∧ Claims.IsLaunched g ws (rd s.m OD.stepNumber) it.mb)) ∧
     (launchStatus s.m ws ≠ ST.ok → Completes (.launchItem k) s (fun d => Claims.ItemFails k it s.m d ∧ d.grids = s.m.grids)))) ∧
  (∀ (k : Nat) (s : State) (it : ItemRun), Calm s → Claims.Turn s k 2 it →
    (let q := 4 * it.core + it.queue
     let x := readFabDesc s.m it.addr (stCtx s.m.seq.header) (.item k) (rd s.m OD.stepNumber) it.mb
     let acc := firstBad (useAny s.m linkDies) (fabAccept s.m it.addr (stCtx s.m.seq.header) x)
     (acc = ST.ok → (queueOf s.m q).accepted.length < 64 → Completes (.postItem k) s (fun d => Claims.ItemIs k { it with st := .begun } s.m d ∧
       (queueOf d q).accepted = (queueOf s.m q).accepted ++ [x] ∧ ∀ j, j ≠ q → queueOf d j = queueOf s.m j)) ∧
     ((acc ≠ ST.ok ∨ 64 ≤ (queueOf s.m q).accepted.length) → Completes (.postItem k) s (fun d => Claims.ItemFails k it s.m d ∧
       ∀ j, queueOf d j = queueOf s.m j)))) ∧
  (∀ (k : Nat) (s : State) (it : ItemRun), Calm s → (Claims.Turn s k 3 it ∨ (mfind s.m.seq.items k = some it ∧ it.kind = 3 ∧ it.st = .begun ∧
      s.m.seq.st = .open)) → Completes (.waitItem k) s (fun d => d.seq.cause = s.m.seq.cause ∧
        let now := Claims.counterReached (counterAt s.m (it.addr % 2 ^ 16)) (BitVec.ofNat 32 it.value)
        Claims.ItemIs k { it with st := if now then .done else .begun } s.m d)) ∧
  (∀ (k : Nat) (s : State) (it : ItemRun) (ws : List (List W64)), Calm s → Claims.Turn s k 4 it → it.mb = 0xFFFF → k < s.m.seq.nextItem →
    listItems s.m (lnPrimary (layerAt s.m it.addr)) 4097 = some ws → Completes (.layerItem k) s (fun d => it.addr ∈ d.seq.layers ∧
      mfind d.seq.items k = some { it with st := .begun } ∧ d.mem = s.m.mem ∧
      ∃ d0, (∀ j, j ≠ k → mfind d0.seq.items j = mfind s.m.seq.items j) ∧
        Claims.ListWaits s.m.seq.nextItem (.layer k false) ws 0xFFFF 0 d0 d)) ∧
  (∀ (k j n : Nat) (s : State) (it sub : ItemRun) (g : Grid), Calm s → s.m.seq.st = .open → s.m.seq.cause < 2 → j ≠ k →
    s.m.seq.items = [(k, it), (j, sub)] → it.kind = 4 → it.st = .begun → it.owner = .pre → sub.kind = 1 → sub.owner = .layer k false → sub.st = .done →
    sub.grid = some n → mfind s.m.grids n = some g →
    (let l := layerAt s.m it.addr
     let spilled : Bool := g.ovf || (lnCheckAction l && g.mismatch)
     (lnPolicy l = 0 → spilled = false → Completes .layerGridsEnd s (fun d => Claims.ItemIs k { it with st := .done } s.m d ∧
       d.seq.cause = s.m.seq.cause ∧ d.od = s.m.od)) ∧
     (lnPolicy l = 0 → spilled = true → lnRepeat l ≠ 0 → it.addr ∉ s.m.seq.repeated → Completes .layerGridsEnd s (fun d =>
       Claims.Counted OD.layerRepeats true s.m d ∧ it.addr ∈ d.seq.repeated ∧ it.addr ∈ d.seq.overflowed ∧
       Claims.Raises [Claims.ev (svcPort s.m 0) 0x2610 0 0 []] s.m d)) ∧
     (lnPolicy l = 0 → spilled = true → (lnRepeat l = 0 ∨ it.addr ∈ s.m.seq.repeated) → Completes .layerGridsEnd s (fun d =>
       Claims.Counted OD.repeatsExhausted true s.m d ∧ it.addr ∈ d.seq.exhausted ∧ d.seq.cause = max s.m.seq.cause 2 ∧
       Claims.ItemIs k { it with st := .done } s.m d ∧ Claims.Raises [Claims.ev (svcPort s.m 0) 0x2611 0 0 []] s.m d)) ∧
     (lnPolicy l = 1 → Completes .layerGridsEnd s (fun d => Claims.ItemIs k { it with st := .done } s.m d ∧ d.seq.cause = s.m.seq.cause ∧
       (it.addr ∈ d.seq.skipLayers ↔ it.addr ∈ s.m.seq.skipLayers ∨ spilled = true ∨ g.nan = true ∨ g.inf = true))))) ∧
  (∀ s : State, Calm s → s.m.seq.st ≠ .open → Becomes .layerGridsEnd s s.m ∧ Becomes .pipelineUnit s { s.m with seq := (settlePhase s.m).seq }) ∧
  (∀ (k : Nat) (s : State) (it : ItemRun), Calm s → Claims.Turn s k 5 it →
    (let w := wordsAt s.m it.addr 10
     let n := lrK w
     (rd s.m OD.stepNumber % lrN w ≠ lrPhase w → Completes (.lowrankItem k) s (fun d => Claims.ItemIs k { it with st := .done } s.m d ∧
       d.mem = s.m.mem ∧ d.seq.cause = s.m.seq.cause)) ∧
     (rd s.m OD.stepNumber % lrN w = lrPhase w → lrM w = 1 → lrRank w = 1 → (queueOf s.m (4 * it.core + it.queue)).accepted.length < 64 →
       Claims.CanRead s.m (lrAddr w 2) (4 * n) → Claims.CanRead s.m (lrAddr w 3) (4 * n) → Claims.CanRead s.m (lrAddr w 4) (4 * n) →
       Claims.CanWrite s.m (lrAddr w 5) 4 → Completes (.lowrankItem k) s (fun d =>
         Claims.Fp32s (lrAddr w 5) 1 (fun _ => Claims.wideOrder
           (fun i => fadd (Claims.f32At s.m (lrAddr w 2 + 4 * i)) (Claims.f32At s.m (lrAddr w 3 + 4 * i)))
           (fun i => Claims.f32At s.m (lrAddr w 4 + 4 * i)) n) s.m d)))) ∧
  (∀ (s : State) (ws : List (List W64)), Calm s → s.m.seq.st = .open → s.m.seq.cause < 2 → s.m.seq.phase = .units →
    (let h := s.m.seq.header
     let u := unitAt h s.m.seq.unit
     let e := vstageAt s.m u
     (s.m.seq.unitBegun = false → unitFree h u = false → counterAt s.m (unitCounter h u) = 0 → Becomes .pipelineUnit s s.m) ∧
     (s.m.seq.unitBegun = false → (unitFree h u = true ∨ counterAt s.m (unitCounter h u) ≠ 0) → listItems s.m (vsList e u.bwd) 4097 = some ws →
       Completes .pipelineUnit s (fun d => d.seq.unitBegun = true ∧ d.seq.unit = s.m.seq.unit ∧
         Claims.ListWaits s.m.seq.nextItem (.unit s.m.seq.unit) ws u.mb (vsStride e) s.m d)) ∧
     (s.m.seq.unitBegun = true → (∀ i ∈ s.m.seq.items, i.2.owner = .unit s.m.seq.unit → i.2.st = .done) → vsSend e u.bwd = 0 →
       s.m.seq.unit + 1 ≠ unitCount h → Completes .pipelineUnit s (fun d =>
         d.seq = { s.m.seq with unit := s.m.seq.unit + 1, unitBegun := false } ∧ d.mem = s.m.mem))))

namespace Sys2Proof.Claims

/-- This member is the whole gate tree: the root, without children and without members of older generations. -/
structure Alone (d : Dev) : Prop where
  tree : ∃ t, gateTree d = some t ∧ t.kids = [] ∧ t.parent = none
  none_ : heritageRanks d = []

/-- A step whose layers, RUNs and tables name no scale record, which no checkpoint service follows, and whose root has no older
members to answer: nothing but the sequencer's own state turns on its verdict. -/
structure Bare (d : Dev) : Prop where
  layers : d.seq.layers = []
  runs : d.seq.runs = []
  ranges : d.seq.runRanges = []
  agreed : stAgree d.seq.header = 0
  copies : rd d OD.checkpointState = 0
  older : ∀ g, gateGroup d = some g → ∀ m ∈ g.members, m.gen = 3

/-- Positions after one step (R460, R461, R443). -/
def Advanced (d d' : Dev) : Prop :=
  rd d' OD.stepNumber = (rd d OD.stepNumber + 1) % 2 ^ 48 ∧
  rd d' OD.jobDataPosition = (rd d OD.jobDataPosition + rd d OD.globalBatch) % 2 ^ 64 ∧
  rdFull d' OD.streamState = leBytes 8 ((rd d OD.stepNumber + 1) % 2 ^ 48) ++
    leBytes 8 ((rd d OD.jobDataPosition + rd d OD.globalBatch) % 2 ^ 64)

/-- After a commit the next step opens, or none remains or STOP waits and the sequencer is LOADED (R431, R443). -/
def NextStep (d d' : Dev) : Prop :=
  let r := rd d OD.stepsRemaining
  let last := d.seq.endless = false ∧ r ≤ 1
  rd d' OD.stepsRemaining = (if d.seq.endless then r else r - 1) ∧ d'.seq.attempt = 0 ∧ d'.seq.verdict = none ∧ d'.seq.vote = none ∧
  (last ∨ d.seq.stopPending = true → d'.seq.st = .loaded ∧ d'.seq.opening = false) ∧
  (¬last → d.seq.stopPending = false → d'.seq.st = .committing ∧ d'.seq.opening = true) ∧
  (last → Raises [ev (svcPort d 0) 0x3606 0 0 []] d d')

/-- A service has sent a message over the fabric, as a write under the next sequence number of its processor's slot (R304). -/
def SentBy (service : Nat) (m : Msg) (d d' : Dev) : Prop :=
  d'.sent = d.sent ++ [.served (serviceSlot d service) (mget 0 d.tw.seqs (serviceSlot d service)) m] ∧
  mget 0 d'.tw.seqs (serviceSlot d service) = (mget 0 d.tw.seqs (serviceSlot d service) + 1) % 2 ^ 32

/-- Several messages, in order, under the sequence numbers that follow. -/
def SentAllBy (service : Nat) (ms : List Msg) (d d' : Dev) : Prop :=
  let slot := serviceSlot d service
  let n := mget 0 d.tw.seqs slot
  d'.sent = d.sent ++ ms.zipIdx.map (fun m => .served slot (if m.2 = 0 then n else (n + m.2) % 2 ^ 32) m.1)

/-- The sequencer is HALTED, with nothing of the step left (R445). -/
def Halted (d' : Dev) : Prop := d'.seq.st = .halted ∧ d'.seq.opening = false ∧ d'.seq.written = [] ∧ d'.seq.items = []

end Sys2Proof.Claims

/-- R435, R439-R446, R460, R461: when and what a member votes; how votes travel and combine, of P3 members and of older ones; what COMMIT,
NULL and each ABANDON do to a step that names no records; the gate wait limit. -/
def Obligations.CommitGate : Prop :=
  (∀ s : State, Calm s → s.m.ckpt.copy = none → s.m.seq.st = .open → s.m.seq.verdict = none → Claims.Alone s.m →
    (2 ≤ s.m.seq.cause → Completes .gateVote s (fun d => d.seq.st = .gate ∧ d.seq.votedAt = s.m.tick ∧ ∃ v, d.seq.vote = some v ∧
      d.seq.verdict = some v ∧ v.step = rd s.m OD.stepNumber ∧ v.attempt = s.m.seq.attempt ∧ v.verdict = s.m.seq.cause)) ∧
    (s.m.seq.cause = 0 → s.m.seq.phase = .over → (∀ i ∈ s.m.seq.items, i.2.st = .done) → stepQuiet s.m = true →
      stLoss s.m.seq.header = 0 → Completes .gateVote s (fun d => d.seq.st = .gate ∧ ∃ v, d.seq.vote = some v ∧ d.seq.verdict = some v ∧
        v.verdict = if s.m.seq.skipLayers = [] then 0 else 1)) ∧
    (s.m.seq.cause < 2 → s.m.seq.phase = .over → ((∃ i ∈ s.m.seq.items, i.2.st ≠ .done) ∨ stepQuiet s.m = false) →
      Becomes .gateVote s s.m)) ∧
  (∀ s : State, Calm s → s.m.seq.st ≠ .open → s.m.seq.phase = .over → Becomes .gateVote s s.m) ∧
  (∀ (rank : Nat) (v : Vote) (s : State) (t : GateTree), Calm s → gateTree s.m = some t → s.m.seq.st = .gate →
    (s.m.seq.verdict = none → t.kids = [] →
      (v.step = rd s.m OD.stepNumber → v.attempt = s.m.seq.attempt → Becomes (.voteReceive true rank v) s
        { s.m with seq := { s.m.seq with verdict := some v } }) ∧
      ((v.step ≠ rd s.m OD.stepNumber ∨ v.attempt ≠ s.m.seq.attempt) → Completes (.voteReceive true rank v) s (fun d =>
        d.seq = { s.m.seq with verdict := some { v with verdict := 4, sexp := [] } } ∧
        Claims.Raises [Claims.ev (svcPort s.m 0) 0x3601 0 4 []] s.m d))) ∧
    (s.m.seq.verdict ≠ none → Becomes (.voteReceive true rank v) s s.m) ∧
    ((∀ k ∈ t.kids, k.1 ≠ rank) → Becomes (.voteReceive false rank v) s s.m) ∧
    (∀ dev, (rank, dev) ∈ t.kids → s.m.seq.vote = none → s.m.seq.votes = [] → s.m.seq.heritage = [] → v.verdict ≤ 1 →
      v.step = rd s.m OD.stepNumber → v.attempt = s.m.seq.attempt →
      Becomes (.voteReceive false rank v) s { s.m with seq := { s.m.seq with votes := [(rank, v)] } }) ∧
    (∀ dev parent, t.kids = [(rank, dev)] → t.parent = some parent → s.m.seq.vote = none → s.m.seq.verdict = none → s.m.seq.votes = [] →
      s.m.seq.sentUp = false → 2 ≤ v.verdict → v.step = rd s.m OD.stepNumber → v.attempt = s.m.seq.attempt →
      Completes (.voteReceive false rank v) s (fun d => Claims.SentBy 0 (.vote parent.2 v) s.m d ∧ d.seq.sentUp = true))) ∧
  (∀ (rank : Nat) (w : W64) (s : State) (g : GroupRec), Calm s → gateGroup s.m = some g → s.m.seq.st = .gate →
    ((∀ m, g.members[rank]? = some m → m.gen = 3) → Becomes (.heritageVote rank w) s s.m) ∧
    (∀ m, g.members[rank]? = some m → m.gen ≠ 3 → (treeOf g).pos = 0 → s.m.seq.vote = none → s.m.seq.votes = [] → s.m.seq.heritage = [] →
      Claims.CanWrite s.m (stHvote s.m.seq.header + 8 * rank) 8 → fld w 51 48 ≤ 1 → fld w 63 60 = 0 → fld w 47 0 = rd s.m OD.stepNumber →
      fld w 59 52 = s.m.seq.attempt → Completes (.heritageVote rank w) s (fun d => d.seq = { s.m.seq with heritage := [(rank, fld w 51 48)] } ∧
        Claims.Stored (stHvote s.m.seq.header + 8 * rank) (leBytes 8 w.toNat) s.m d))) ∧
  (∀ (s : State) (v o : Vote), Calm s → s.m.seq.st = .gate → s.m.seq.verdict = some v → s.m.seq.vote = some o → gridsEnded s.m = true →
    Claims.Bare s.m →
    (v.verdict = 0 → Completes .verdictApply s (fun d => Claims.Advanced s.m d ∧ Claims.NextStep s.m d ∧ d.seq.written = [] ∧
      (∀ l, l ∈ d.seq.half ↔ (l ∈ s.m.seq.half ∧ l ∉ s.m.seq.written) ∨ (l ∈ s.m.seq.written ∧ l ∉ s.m.seq.half)) ∧
      d.seq.committed = true ∧ rd d OD.lastVerdict = 0 ∧ Claims.Counted OD.stepsCommitted true s.m d ∧ d.mem = s.m.mem)) ∧
    (v.verdict = 1 → s.m.seq.skipLayers = [] → Completes .verdictApply s (fun d => Claims.Advanced s.m d ∧ Claims.NextStep s.m d ∧
      d.seq.written = [] ∧ d.seq.half = s.m.seq.half ∧ rd d OD.lastVerdict = 1 ∧ Claims.Counted OD.nullCommits true s.m d ∧
      Claims.Counted OD.stepsSkipped true s.m d ∧ Claims.Counted OD.stepsCommitted false s.m d ∧ d.mem = s.m.mem)) ∧
    (v.verdict = 4 → Completes .verdictApply s (fun d => d.seq.written = [] ∧ d.seq.half = s.m.seq.half ∧ d.mem.cells = s.m.mem.cells ∧
      rd d OD.stepNumber = rd s.m OD.stepNumber ∧ Claims.Counted OD.stepsAbandoned true s.m d ∧ rd d OD.lastVerdict = 4 ∧
      Claims.Raises [Claims.ev (svcPort s.m 0) 0x3601 0 4 []] s.m d ∧
      (s.m.seq.attempt + 1 ≤ rd s.m OD.attemptLimit → s.m.seq.stopPending = false → d.seq.st = .committing ∧ d.seq.opening = true ∧
        d.seq.attempt = s.m.seq.attempt + 1) ∧
      (rd s.m OD.attemptLimit < s.m.seq.attempt + 1 → Claims.Halted d ∧ Claims.Raises [Claims.ev (svcPort s.m 0) 0x3602 0 0 []] s.m d))) ∧
    (v.verdict = 3 → rd s.m OD.nanAction = 0 → Completes .verdictApply s (fun d => Claims.Halted d ∧
      Claims.Counted OD.stepsAbandoned true s.m d ∧ rd d OD.stepNumber = rd s.m OD.stepNumber)) ∧
    (v.verdict = 3 → rd s.m OD.nanAction = 2 → Completes .verdictApply s (fun d => Claims.Advanced s.m d ∧ Claims.NextStep s.m d ∧
      Claims.Counted OD.nullCommits true s.m d ∧ Claims.Counted OD.stepsSkipped false s.m d ∧ d.seq.half = s.m.seq.half))) ∧
  (∀ s : State, Calm s → (s.m.seq.verdict = none ∨ s.m.seq.vote = none ∨ s.m.seq.st ≠ .gate ∨ gridsEnded s.m = false) →
    Becomes .verdictApply s s.m) ∧
  (∀ s : State, Calm s →
    (s.m.seq.st = .gate → s.m.seq.vote ≠ none → s.m.seq.verdict = none → s.m.seq.votedAt + rd s.m OD.gateWaitLimit ≤ s.m.tick →
      Claims.Bare s.m → Completes .gateWaitExpiry s (fun d => Claims.Halted d ∧ d.mem = s.m.mem ∧
        Claims.Raises [Claims.ev (svcPort s.m 0) 0x3603 0 0 []] s.m d ∧
        (rd s.m OD.partnerDevice ≠ 0xFFFF → d.ckpt.probeAt = some s.m.tick ∧ Claims.SentBy 4 (.probe (rd s.m OD.partnerDevice)) s.m d))) ∧
    ((s.m.seq.st ≠ .gate ∨ s.m.seq.vote = none ∨ s.m.seq.verdict ≠ none ∨ s.m.tick < s.m.seq.votedAt + rd s.m OD.gateWaitLimit) →
      Becomes .gateWaitExpiry s s.m))

namespace Sys2Proof.Claims

/-- The wire of a group: FP32 with a P1 member, BF16 with a P2 member, else native (R407). -/
def wire (ms : List Member) : Nat := if ∃ m ∈ ms, m.gen = 1 then 2 else if ∃ m ∈ ms, m.gen = 2 then 1 else 0

end Sys2Proof.Claims

/-- R407, R429, R430, R463-R465: admission of a group from its list, its end by the members' digests or by the limit, its release; a
service leaves a sequencer processor that does not work for its standby, once, and an open step is abandoned. -/
def Obligations.GroupsAndServices : Prop :=
  (∀ (p : Path) (g n rank list : Nat) (s : State) (ms : List Member), Calm s → g < 4096 → list < 2 ^ 49 → 1 ≤ n → n ≤ 32768 → rank < n →
    (let cmd := Instr.admitGroup p g n rank list false
     let good := ms[rank]? = some { dev := devNo s.m, gen := 3 } ∧ (∀ m ∈ ms, m.gen ≠ 0) ∧ (ms.map (fun m => m.dev)).Nodup
     (mfind s.m.seq.groups g = none → (readMem s.m list (4 * n)).1 = ST.ok → groupList n (readMem s.m list (4 * n)).2 = some ms →
      (good → Claims.Commanded cmd s p OD.groupCommand .rws ST.pending (fun d =>
        mfind d.seq.groups g = some { st := .admitting, wire := Claims.wire ms, rank := rank, members := ms, since := s.m.tick } ∧
        (∀ k, k ≠ g → mfind d.seq.groups k = mfind s.m.seq.groups k) ∧
        Msg.served (serviceSlot s.m 1) (mget 0 s.m.tw.seqs (serviceSlot s.m 1)) (.digest g (Config.sha3_512 (memberBytes ms))) ∈ d.sent)) ∧
      (¬good → Claims.TurnedAway cmd s p OD.groupCommand .rws ST.invalid [])) ∧
     (mfind s.m.seq.groups g ≠ none → Claims.TurnedAway cmd s p OD.groupCommand .rws ST.state []) ∧
     (mfind s.m.seq.groups g = none → (readMem s.m list (4 * n)).1 = ST.access → Claims.TurnedAway cmd s p OD.groupCommand .rws ST.access []))) ∧
  (∀ (g : Nat) (s : State) (r : GroupRec), Calm s → mfind s.m.seq.groups g = some r → s.m.ckpt.takeover = none → s.m.ckpt.restore = none →
    (r.st = .admitting →
     (∀ ds, (∀ x ∈ ds, x = Config.sha3_512 (memberBytes r.members)) → Completes (.admissionDone g (some ds)) s (fun d =>
       mfind d.seq.groups g = some { r with st := .admitted } ∧ (∀ k, k ≠ g → mfind d.seq.groups k = mfind s.m.seq.groups k) ∧
       Claims.Raises [Claims.ev (svcPort s.m 1) 0x3610 g 0 []] s.m d ∧
       (commandPending s.m OD.groupCommand = true → nfld (rd s.m OD.groupCommand) 15 4 = g → commandStatus d OD.groupCommand = ST.ok.toNat))) ∧
     (∀ ds, (∃ x ∈ ds, x ≠ Config.sha3_512 (memberBytes r.members)) → Completes (.admissionDone g (some ds)) s (fun d =>
       mfind d.seq.groups g = none ∧ (∀ k, k ≠ g → mfind d.seq.groups k = mfind s.m.seq.groups k) ∧
       Claims.Raises [Claims.ev (svcPort s.m 1) 0x3611 g ST.groupMismatch.toNat []] s.m d ∧ (commandPending s.m OD.groupCommand = true →
         nfld (rd s.m OD.groupCommand) 15 4 = g → commandStatus d OD.groupCommand = ST.groupMismatch.toNat))) ∧
     (r.since + rd s.m OD.gateWaitLimit ≤ s.m.tick → Completes (.admissionDone g none) s (fun d => mfind d.seq.groups g = none ∧
       Claims.Raises [Claims.ev (svcPort s.m 1) 0x3611 g ST.timeout.toNat []] s.m d)) ∧
     (s.m.tick < r.since + rd s.m OD.gateWaitLimit → Becomes (.admissionDone g none) s s.m)) ∧
    (r.st = .admitted → ∀ x, Becomes (.admissionDone g x) s s.m) ∧
    (∀ p, g < 4096 →
     (r.st = .admitted → groupUsed s.m g = false → Claims.Commanded (.release p g false) s p OD.groupCommand .rws ST.ok (fun d =>
       mfind d.seq.groups g = none ∧ ∀ k, k ≠ g → mfind d.seq.groups k = mfind s.m.seq.groups k)) ∧
     ((r.st = .admitting ∨ groupUsed s.m g = true) → Claims.TurnedAway (.release p g false) s p OD.groupCommand .rws ST.state []))) ∧
  (∀ (sq sv : Nat) (s : State), Calm s → sq < 4 → s.m.seq.services.length = 5 → sv < 5 → s.m.seq.services[sv]? = some sq →
    (works s.m (sequencerFn sq) = true → engineInReset s.m (0x8000 + sq) = false → Becomes (.serviceFailover sq) s s.m) ∧
    (works s.m (sequencerFn sq) = false →
     (sq = [0, 1, 2, 2, 3].getD sv 9 → works s.m (sequencerFn ((sq + 1) % 4)) = true → Completes (.serviceFailover sq) s (fun d =>
       d.seq.services[sv]? = some ((sq + 1) % 4) ∧ Claims.Reports (serviceFn sv) RS.degraded 2 s.m d ∧
       Claims.Raises [Claims.ev ((sq + 1) % 4) 0x3605 sv 0 []] s.m d ∧ (s.m.seq.st = .open → d.seq.cause = max s.m.seq.cause 4))) ∧
     (sq ≠ [0, 1, 2, 2, 3].getD sv 9 → Completes (.serviceFailover sq) s (fun d => d.seq.services[sv]? = some sq ∧
       Claims.Reports (serviceFn sv) RS.failed 4 s.m d ∧ (s.m.seq.st = .open → d.seq.cause = max s.m.seq.cause 4)))))

namespace Sys2Proof.Claims

/-- The event of the checkpoint service. -/
def ckptEv (d : Dev) (id detail0 : Nat) : Nat × Event := ev (svcPort d 4) id 0 detail0 []

/-- This device is paired with none: both held copies are gone, the partner is told, EV_3621 (R475). -/
def Unpaired (d d' : Dev) : Prop :=
  rd d' OD.partnerDevice = 0xFFFF ∧ rd d' OD.durabilityClass = 0 ∧ rd d' OD.sealedStep = 2 ^ 64 - 1 ∧ rd d' OD.heldCopyStep = 2 ^ 64 - 1 ∧
  d'.ckpt.held = none ∧ d'.ckpt.incoming = none ∧ d'.ckpt.copy = none ∧ d'.ckpt.sealedOwn = none ∧
  Msg.served (serviceSlot d 4) (mget 0 d.tw.seqs (serviceSlot d 4)) (.unpair (rd d OD.partnerDevice)) ∈ d'.sent ∧
  Raises [ckptEv d 0x3621 0] d d'

/-- What a tandem table entry of four words is refused for with ST_INVALID (R469, R472): w 0 to w 3 are its words. -/
def badEntry (d : Dev) (w : List W64) : Prop :=
  fld (word w 0) 63 52 ≠ 0 ∨ fld (word w 1) 63 49 ≠ 0 ∨ fld (word w 2) 63 49 ≠ 0 ∨ word w 3 ≠ 0 ∨ fld (word w 0) 48 0 % 64 ≠ 0 ∨
  fld (word w 1) 48 0 = 0 ∨ fld (word w 1) 48 0 % 64 ≠ 0 ∨
  (bit (word w 0) 51 = true ∧ (fld (word w 0) 50 49 ≠ 0 ∨ rideGood d (tandemOf w) = false))

/-- An entry lies where its class must: PARAM and STATE in one region, META and CONST outside every region (R470). -/
def placed (d : Dev) (w : List W64) : Prop :=
  let a := fld (word w 0) 48 0
  let n := fld (word w 1) 48 0
  (fld (word w 0) 50 49 < 2 → ∃ r ∈ d.seq.regions, r.base ≤ a ∧ a + n ≤ r.base + r.length) ∧
  (2 ≤ fld (word w 0) 50 49 → ∀ r ∈ d.seq.regions, ∀ x ∈ [(r.base, r.length), (r.half1, r.length), (r.map, r.length / 256)],
    overlaps x.1 x.2 a n = false)

/-- Bytes of the entries of a class. -/
def ofClass (ws : List (List W64)) (c : Nat) : Nat :=
  ((ws.filter (fun w => fld (word w 0) 50 49 == c)).map (fun w => fld (word w 1) 48 0)).sum

/-- The status of a pairing once both proposals are known (R475, R477). -/
def pairStatus (d : Dev) (own theirs : Proposal) : Status :=
  let feed := rd d OD.powerFeedId
  let total := fun c => ((d.ckpt.table.filter (fun e => e.cls == c)).map (fun e => e.length)).sum
  let z := 2 * theirs.image + (total 0 + total 1 + 511) / 512 + 2 * total 2 + 65536
  if (feed = theirs.feed ∨ feed = 0 ∨ theirs.feed = 0) ∧ ¬(own.override = true ∧ theirs.override = true) then ST.feedShared
  else if rd d OD.tandemStoreLength < z ∨ theirs.fits = false then ST.length else ST.ok

/-- A proposal that waited for the other device's is decided: paired with EV_3621, and EV_3622 where OVERRIDE made it, or refused
with this device paired with none as before. -/
def Paired (own theirs : Proposal) (d d' : Dev) : Prop :=
  let st := pairStatus d own theirs
  commandStatus d' OD.checkpointCommand = st.toNat ∧ d'.ckpt.proposal = none ∧ d'.ckpt.theirs = none ∧ d'.ckpt.held = d.ckpt.held ∧
  (st ≠ ST.ok → rd d' OD.partnerDevice = rd d OD.partnerDevice ∧ d'.ev = d.ev) ∧
  (st = ST.ok → rd d' OD.partnerDevice = own.dev ∧ d'.ckpt.partnerOverride = (own.override || theirs.override) ∧
    d'.ckpt.constDue = true ∧ Raises [ckptEv d 0x3621 0] d d' ∧
    (own.override = true ∨ theirs.override = true → Raises [ckptEv d 0x3622 0] d d'))

end Sys2Proof.Claims

/-- R469-R472, R475, R477: CONFIGURE takes a table whose entries are well formed, placed, apart, within the limits and granted, and
unpairs; PARTNER proposes; a pairing is mutual, checked in order, and times out; UNPAIR; REFRESH makes CONST due. -/
def Obligations.TandemTableAndPartners : Prop :=
  (∀ (p : Path) (t n : Nat) (s : State), Calm s → t < 2 ^ 49 → 1 ≤ n → n ≤ 256 → t % 32 = 0 → (s.m.seq.st = .loaded ∨ s.m.seq.st = .halted) →
    (readMem s.m t (32 * n)).1 = ST.ok →
    (let ws := (List.range n).map (fun i => wordsOf 4 ((readMem s.m t (32 * n)).2.drop (32 * i)))
     let cmd := Instr.configure p t n false
     let no := fun st => Claims.TurnedAway cmd s p OD.checkpointCommand .rws st []
     let formed := ∀ w ∈ ws, ¬Claims.badEntry s.m w
     let apart := rangesClash (ws.map (fun w => (fld (word w 0) 48 0, fld (word w 1) 48 0))) = false
     let small := Claims.ofClass ws 2 ≤ 2 ^ 24 ∧ Claims.ofClass ws 3 ≤ 2 ^ 30
     let may := ∀ w ∈ ws, fld (word w 0) 48 0 + fld (word w 1) 48 0 ≤ hbmEnd ∧
       granted s.m (stCtx s.m.seq.header) (fun r => r.rd) (fld (word w 0) 48 0) (fld (word w 1) 48 0) = true
     (formed → (∀ w ∈ ws, Claims.placed s.m w) → apart → small → may → Claims.Commanded cmd s p OD.checkpointCommand .rws ST.ok (fun d =>
       d.ckpt.table = ws.map tandemOf ∧ d.ckpt.flipLog = [] ∧ d.ckpt.snaps = [] ∧ rd d OD.checkpointState = 1 ∧ d.mem = s.m.mem ∧
       (rd s.m OD.partnerDevice ≠ 0xFFFF → Claims.Unpaired s.m d))) ∧
     (¬formed → no ST.invalid) ∧
     (formed → ((∃ w ∈ ws, ¬Claims.placed s.m w) ∨ ¬apart) → no ST.state) ∧
     (formed → (∀ w ∈ ws, Claims.placed s.m w) → apart → ¬small → no ST.length) ∧
     (formed → (∀ w ∈ ws, Claims.placed s.m w) → apart → small → ¬may → no ST.access))) ∧
  (∀ (p : Path) (t n : Nat) (s : State), Calm s →
    ((n = 0 ∨ 256 < n ∨ t % 32 ≠ 0 ∨ 2 ^ 49 ≤ t) → Claims.TurnedAway (.configure p t n false) s p OD.checkpointCommand .rws ST.invalid []) ∧
    (1 ≤ n → n ≤ 256 → t % 32 = 0 → t < 2 ^ 49 → s.m.seq.st ≠ .loaded → s.m.seq.st ≠ .halted →
      Claims.TurnedAway (.configure p t n false) s p OD.checkpointCommand .rws ST.state [])) ∧
  (∀ (p : Path) (dev : Nat) (over_ : Bool) (s : State), Calm s → dev < 2 ^ 15 → s.m.ckpt.takeover = none →
    (let cmd := Instr.partner p dev over_ false
     let own : Proposal := { dev, override := over_, at_ := s.m.tick, feed := rd s.m OD.powerFeedId, image := imageBytes s.m, fits := true }
     let may := rd s.m OD.checkpointState = 1 ∧ rd s.m OD.tandemStoreLength ≠ 0 ∧ (s.m.seq.st = .loaded ∨ s.m.seq.st = .halted) ∧
       (∃ t, gateTree s.m = some t ∧ ∃ m ∈ t.members, m.2 = dev) ∧ dev ≠ devNo s.m ∧
       (rd s.m OD.partnerDevice = 0xFFFF ∨ rd s.m OD.partnerDevice = dev)
     (may → s.m.ckpt.theirs = none → Claims.Commanded cmd s p OD.checkpointCommand .rws ST.pending (fun d =>
       d.ckpt = { s.m.ckpt with proposal := some own } ∧ Msg.served (serviceSlot s.m 4) (mget 0 s.m.tw.seqs (serviceSlot s.m 4))
         (.proposal dev over_ (rd s.m OD.powerFeedId) (imageBytes s.m)) ∈ d.sent)) ∧
     (∀ y, may → s.m.ckpt.theirs = some y → y.dev = dev → s.m.tick ≤ y.at_ + rd s.m OD.gateWaitLimit →
       Claims.Accepted s.m p OD.checkpointCommand .rws → commandPending s.m OD.checkpointCommand = false →
       Completes cmd s (fun d => d.hv.replyStatus = ST.ok ∧ Claims.Paired own y s.m d)) ∧
     (rd s.m OD.checkpointState ≤ 1 → ¬may → Claims.TurnedAway cmd s p OD.checkpointCommand .rws ST.state []))) ∧
  (∀ (dev feed image : Nat) (over_ fits : Bool) (s : State), Calm s → s.m.ckpt.takeover = none →
    (let t : Proposal := { dev, override := over_, at_ := s.m.tick, feed, image, fits }
     let cmd := Instr.partnerProposalReceived dev over_ feed image fits
     (∀ own, s.m.ckpt.proposal = some own → own.dev = dev → commandPending s.m OD.checkpointCommand = true →
       Completes cmd s (fun d => Claims.Paired own t s.m d ∧ d.mem = s.m.mem)) ∧
     ((∀ own, s.m.ckpt.proposal = some own → own.dev ≠ dev) → Becomes cmd s { s.m with ckpt := { s.m.ckpt with theirs := some t } }))) ∧
  (∀ s : State, Calm s → s.m.ckpt.takeover = none →
    (∀ own, s.m.ckpt.proposal = some own →
      (own.at_ + rd s.m OD.gateWaitLimit ≤ s.m.tick → commandPending s.m OD.checkpointCommand = true → Completes .partnerTimeout s (fun d =>
        d.ckpt = { s.m.ckpt with proposal := none } ∧ commandStatus d OD.checkpointCommand = ST.timeout.toNat ∧
        d = { s.m with ckpt := d.ckpt, od := d.od })) ∧
      (s.m.tick < own.at_ + rd s.m OD.gateWaitLimit → Becomes .partnerTimeout s s.m)) ∧
    (s.m.ckpt.proposal = none → Becomes .partnerTimeout s s.m)) ∧
  (∀ (p : Path) (s : State), Calm s →
    ((s.m.seq.st = .idle ∨ s.m.seq.st = .loaded ∨ s.m.seq.st = .halted) → Claims.Commanded (.unpair p false) s p OD.checkpointCommand .rws ST.ok
      (fun d => d.ckpt.table = s.m.ckpt.table ∧ (rd s.m OD.partnerDevice ≠ 0xFFFF → Claims.Unpaired s.m d) ∧
        (rd s.m OD.partnerDevice = 0xFFFF → d.ckpt = s.m.ckpt))) ∧
    (s.m.seq.st ≠ .idle → s.m.seq.st ≠ .loaded → s.m.seq.st ≠ .halted →
      Claims.TurnedAway (.unpair p false) s p OD.checkpointCommand .rws ST.state []) ∧
    Claims.Commanded (.refresh p false) s p OD.checkpointCommand .rws ST.ok (fun d => d.ckpt = { s.m.ckpt with constDue := true } ∧
      Claims.Replied { s.m with ckpt := d.ckpt } d))

namespace Sys2Proof.Claims

/-- The gate tree of this device. -/
def Tree (d : Dev) (t : GateTree) : Prop := gateTree d = some t

/-- The device's own copy of a step that the partner has not sealed yet. -/
structure Travels (d : Dev) (c : OwnCopy) : Prop where
  copy : d.ckpt.copy = some c
  open_ : c.sealed = false ∧ c.failed = false ∧ c.reported = false

/-- A member one step back (R488): the flipped lines have their other half committed, the service state is that of the snapshot. -/
def Rewound (sn : Snapshot) (d d' : Dev) : Prop :=
  (∀ l, l ∈ d'.seq.half ↔ (l ∈ d.seq.half ∧ l ∉ d.ckpt.flipLog) ∨ (l ∈ d.ckpt.flipLog ∧ l ∉ d.seq.half)) ∧ d'.ckpt.flipLog = [] ∧
  rd d' OD.stepNumber = leNat (sn.service.take 8) % 2 ^ 48 ∧ rd d' OD.jobDataPosition = leNat ((sn.service.drop 8).take 8) ∧
  rd d' OD.globalBatch = leNat ((sn.service.drop 16).take 8) % 2 ^ 32 ∧ rdFull d' OD.streamState = (sn.service.drop 32).take 16 ∧
  rdFull d' OD.jobSeed = (sn.service.drop 48).take 16 ∧ rdFull d' OD.shardCursors = (sn.service.drop 64).take 2048 ∧
  d'.ckpt.snaps = [sn] ∧ Counted OD.rewinds true d d' ∧ Raises [ckptEv d 0x3624 0] d d'

end Sys2Proof.Claims

/-- R480, R482, R485-R489: a chunk of the partner's copy is kept, asked for again up to twice, or fails the copy; the complete copy is
sealed under its root; missing chunks come from the former slot or are asked for; seals, reports, the notice or FAIL; rewind; refetch. -/
def Obligations.CopiesSealsAndReturns : Prop :=
  (∀ (ix : Nat) (c : Bytes) (s : State) (i : Incoming), Calm s → rd s.m OD.partnerDevice ≠ 0xFFFF → s.m.ckpt.incoming = some i →
    mfind i.chunks ix = none → i.head ≠ [] →
    (let put : Incoming := { i with chunks := mset i.chunks ix c }
     let cmd := Instr.copyChunkReceive none ix c
     (i.digests[ix]? = some (Config.sha3_512 c) → i.chunks.length + 1 ≠ i.digests.length →
       Becomes cmd s { s.m with ckpt := { s.m.ckpt with incoming := some put } }) ∧
     (i.digests[ix]? = some (Config.sha3_512 c) → i.chunks.length + 1 = i.digests.length → rootOf i.head i.digests = headRoot i.head →
       Completes cmd s (fun d => d.ckpt.held = some { head := i.head, digests := i.digests, body := put.chunks.flatMap (fun x => x.2) } ∧
         d.ckpt.incoming = none ∧ rd d OD.heldCopyStep = headStep i.head ∧ (∀ k, k ≠ OD.heldCopyStep → rd d k = rd s.m k) ∧
         Claims.SentBy 4 (.sealAck (rd s.m OD.partnerDevice) (headStep i.head)) s.m d)) ∧
     (∀ dg, i.digests[ix]? = some dg → dg ≠ Config.sha3_512 c →
       (mget 0 i.retries ix < 2 → Completes cmd s (fun d => Claims.Counted OD.chunksResent true s.m d ∧
         d.ckpt = { s.m.ckpt with incoming := some { i with retries := mset i.retries ix (mget 0 i.retries ix + 1) } } ∧
         Claims.SentBy 4 (.chunkRequest (rd s.m OD.partnerDevice) ix) s.m d)) ∧
       (∀ (k : OwnCopy) (t : GateTree) (q : Nat × Nat), 2 ≤ mget 0 i.retries ix → Claims.Travels s.m k → Claims.Tree s.m t → t.kids = [] →
         t.parent = some q → Completes cmd s (fun d => Claims.Counted OD.copiesFailed true s.m d ∧ d.ckpt.held = s.m.ckpt.held ∧
           d.ckpt.copy = some { k with failed := true, reported := true } ∧ Claims.SentBy 4 (.seal_ q.2 k.step true) s.m d))) ∧
     (∀ h : Bytes, 512 < h.length → (digestsOf (headWord (h.take 512) 3) (h.drop 512))[ix]? = some (Config.sha3_512 c) →
       headWord (h.take 512) 3 ≠ 1 → Completes (.copyChunkReceive (some h) ix c) s (fun d => d = { s.m with ckpt := d.ckpt } ∧
         d.ckpt = { s.m.ckpt with incoming := d.ckpt.incoming } ∧ d.ckpt.incoming =
           some ⟨h.take 512, digestsOf (headWord (h.take 512) 3) (h.drop 512), [(ix, c)], [], i.segments, []⟩)))) ∧
  (∀ (h : Option Bytes) (ix : Nat) (c : Bytes) (s : State), Calm s → rd s.m OD.partnerDevice = 0xFFFF →
    Becomes (.copyChunkReceive h ix c) s s.m) ∧
  (∀ (s : State) (i : Incoming), Calm s → s.m.ckpt.incoming = some i → i.head ≠ [] → i.segments = [] →
    (s.m.ckpt.held = none → i.chunks.length ≠ i.digests.length → Completes .copyRequest s (fun d => d = { s.m with sent := d.sent, tw := { s.m.tw with seqs := d.tw.seqs } } ∧ Claims.SentAllBy 4
      (((List.range i.digests.length).filter (fun ix => (mfind i.chunks ix).isNone)).map (fun ix => Msg.chunkRequest (rd s.m OD.partnerDevice) ix)) s.m d)) ∧
    (∀ (im : CopyImage) (d1 : Bytes), s.m.ckpt.held = some im → i.chunks = [] → i.digests = [Config.sha3_512 (im.body.take (2 ^ 20)), d1] →
      d1 ≠ Config.sha3_512 ((im.body.drop (2 ^ 20)).take (2 ^ 20)) → Completes .copyRequest s (fun d =>
        Claims.SentBy 4 (.chunkRequest (rd s.m OD.partnerDevice) 1) s.m d ∧
        d = { s.m with sent := d.sent, ckpt := d.ckpt, tw := { s.m.tw with seqs := d.tw.seqs } } ∧
        d.ckpt = { s.m.ckpt with incoming := some { i with chunks := [(0, im.body.take (2 ^ 20))] } }))) ∧
  (∀ s : State, Calm s → s.m.ckpt.incoming = none → Becomes .copyRequest s s.m) ∧
  (∀ (s : State) (c : OwnCopy) (t : GateTree), Calm s → s.m.ckpt.copy = some c → Claims.Tree s.m t →
    (Claims.Travels s.m c → ∀ q : Nat × Nat, t.kids = [] → t.parent = some q → Completes (.sealAcknowledgement c.step) s (fun d =>
      rd d OD.sealedStep = c.step ∧ rd d OD.durabilityClass = (if s.m.ckpt.partnerOverride = true then 1 else 2) ∧
      Claims.Counted OD.copiesSealed true s.m d ∧ d.ckpt.copy = some { c with sealed := true, reported := true } ∧
      d.ckpt.sealedOwn = some { table := c.table, start := c.start, digests := c.digests, retries := [] } ∧
      Claims.SentBy 4 (.seal_ q.2 c.step false) s.m d)) ∧
    (∀ n, (n ≠ c.step ∨ c.sealed = true ∨ c.failed = true) → Becomes (.sealAcknowledgement n) s s.m) ∧
    (∀ rank n bad, (∀ k ∈ t.kids, k.1 ≠ rank) → Becomes (.sealReport rank n bad) s s.m) ∧
    (∀ rank dev, t.kids = [(rank, dev)] → t.parent = none → c.sealed = true → c.failed = false → c.reported = false →
      Completes (.sealReport rank c.step false) s (fun d => rd d OD.jobSealedStep = c.step ∧ d.ckpt.holds = false ∧
        Claims.SentBy 4 (.notice dev c.step false) s.m d)) ∧
    (∀ rank dev, t.kids = [(rank, dev)] → t.parent = none → c.sealed = true → c.failed = false → c.reported = false → c.failedOnce = true →
      Completes (.sealReport rank c.step true) s (fun d => Claims.Halted d ∧ Claims.SentBy 4 (.notice dev c.step true) s.m d ∧
        Claims.Raises [Claims.ckptEv s.m 0x3620 0, Claims.ev (svcPort s.m 0) 0x3602 0 0 []] s.m d)) ∧
    (∀ sn, s.m.ckpt.snaps.head? = some sn → c.failedOnce = false → sourcePoison s.m = false → s.m.seq.st = .open →
      Completes (.jobSealNotice c.step true) s (fun d => d.seq = { s.m.seq with cause := max s.m.seq.cause 4 } ∧
        Claims.Raises [Claims.ckptEv s.m 0x3620 0] s.m d ∧ ∃ k, d.ckpt.copy = some k ∧ k.step = sn.step ∧ k.stopMode = true ∧
          k.failedOnce = true ∧ k.sealed = false ∧ k.failed = false))) ∧
  (∀ (s : State) (c : OwnCopy) (t : GateTree), s.m.ckpt.copy = some c → c.reported = true → Claims.Tree s.m t →
    Completes (.jobSealNotice c.step false) s (fun d => rd d OD.jobSealedStep = c.step ∧ d.ckpt.holds = false ∧ d.seq = s.m.seq ∧
      d.mem = s.m.mem ∧ Claims.SentAllBy 4 (t.kids.map (fun k => .notice k.2 c.step false)) s.m d)) ∧
  (∀ (s : State) (step : Nat), Calm s →
    (∀ sn, rd s.m OD.stepNumber = step + 2 → s.m.seq.st ≠ .idle → s.m.ckpt.snaps.find? (fun x => x.step == step) = some sn → sn.meta_ = [] →
      Completes (.refetchNotice step) s (fun d => Claims.Rewound sn s.m d ∧ d.seq.st = .halted ∧ d.seq.opening = true ∧ d.seq.attempt = 0 ∧
        d.mem = s.m.mem)) ∧
    ((rd s.m OD.stepNumber ≠ step + 2 ∨ s.m.seq.st = .idle ∨ ∀ sn ∈ s.m.ckpt.snaps, sn.step ≠ step) → Becomes (.refetchNotice step) s s.m) ∧
    (∀ l f, (rd s.m OD.partnerDevice = 0xFFFF ∨ poisoned s.m.mem (committedPlace s.m (64 * l) / 64) = false ∨
      sealedEntry s.m l = none) → Becomes (.refetch l f) s s.m) ∧
    (∀ (l n : Nat) (c : Bytes) (own : SealedOwn), rd s.m OD.partnerDevice ≠ 0xFFFF → s.m.seq.regions = [] → poisoned s.m.mem l = true →
      s.m.ckpt.sealedOwn = some own → own.table = [⟨0, clsConst, false, n, 0⟩] → 64 * l + 64 ≤ n → n ≤ hbmEnd →
      (let o := own.start + 64 * l
       let ix := o / 2 ^ 20
       let cmd := Instr.refetch l [(ix, c)]
       let again : SealedOwn := { own with retries := mset own.retries ix (mget 0 own.retries ix + 1) }
       (own.digests[ix]? = some (Config.sha3_512 c) → c.length = 2 ^ 20 → o % 2 ^ 20 + 64 ≤ 2 ^ 20 → Completes cmd s (fun d =>
         poisoned d.mem l = false ∧ (∀ j < 64, cellAt d.mem (64 * l + j) = c.getD (o % 2 ^ 20 + j) 0) ∧
         Claims.Counted OD.refetches true s.m d ∧ Claims.Raises [Claims.ckptEv s.m 0x3625 0] s.m d ∧ d.seq = s.m.seq)) ∧
       (own.digests[ix]? ≠ some (Config.sha3_512 c) →
        (mget 0 own.retries ix < 2 → Completes cmd s (fun d => Claims.Counted OD.chunksResent true s.m d ∧
          d.ckpt = { s.m.ckpt with sealedOwn := some again } ∧ d = { s.m with od := d.od, ckpt := d.ckpt })) ∧
        (2 ≤ mget 0 own.retries ix → Completes cmd s (fun d => rd d OD.durabilityClass = 0 ∧ d = { s.m with od := d.od }))))) ∧
    (∀ l e, sealedEntry s.m l = some e → e.cls ≠ clsConst → rd s.m OD.partnerDevice ≠ 0xFFFF →
      poisoned s.m.mem (committedPlace s.m (64 * l) / 64) = true → s.m.seq.st = .open → rd s.m OD.sealedStep + 1 = rd s.m OD.stepNumber →
      Becomes (.refetch l []) s { s.m with seq := { s.m.seq with cause := max s.m.seq.cause 4 } }))

namespace Sys2Proof.Claims

/-- A RESTORE is in progress whose layer k comes next, on an image whose sections are sec. -/
structure Restoring (d : Dev) (r : RestoreRun) (k : Nat) (sec : Sections) : Prop where
  run : d.ckpt.restore = some r
  layer : r.layer = k
  sections : sectionsOf r.image.body = some sec
  table : d.tw.fttPending = none

/-- A RESTORE has ended with a status, which the command that asked for it takes (R490). -/
def RestoreEnds (st : Status) (d d' : Dev) : Prop :=
  rd d' OD.restoreStatus = st.toNat ∧ d'.ckpt.restore = none ∧
  (commandPending d OD.checkpointCommand = true → commandStatus d' OD.checkpointCommand = st.toNat)

/-- The next layer of the RESTORE. -/
def Layer (r : RestoreRun) (k : Nat) (d' : Dev) : Prop := d'.ckpt.restore = some { r with layer := k }

/-- The device number of the lost module replaced by the own one (R490). -/
def own (d : Dev) (r : RestoreRun) (dev : Nat) : Nat := if dev = headDev r.image.head then devNo d else dev

/-- A takeover has ended without success (R496, R499). -/
def TakeoverEnds (st : Status) (d d' : Dev) : Prop :=
  d'.ckpt.takeover = none ∧ Raises [ckptEv d 0x3628 0] d d' ∧
  (commandPending d OD.checkpointCommand = true → commandStatus d' OD.checkpointCommand = st.toNat)

/-- Table entries that name the lost device name the spare (R497). -/
def retargeted (lost spare : Nat) (t : List FttEntry) : List FttEntry :=
  t.map (fun e => if e.tgt / 2 ^ 33 = lost then { e with tgt := spare * 2 ^ 33 + e.tgt % 2 ^ 33 } else e)

/-- A survivor has unloaded its table, and its entries reach the spare. -/
def Survives (lost spare : Nat) (leads : Bool) (d d' : Dev) : Prop :=
  d'.seq.st = .idle ∧ d'.seq.regions = [] ∧ d'.tw.ftt0 = retargeted lost spare d.tw.ftt0 ∧ d'.tw.ftt1 = retargeted lost spare d.tw.ftt1 ∧
  ∃ t, d'.ckpt.takeover = some { lost, spare := some spare, table := t, leads }

/-- Entry i of the spare table. -/
def spareAt (d : Dev) (i : Nat) : Nat := leNat (((rdFull d OD.spareTable).drop (2 * i)).take 2)

end Sys2Proof.Claims

/-- R490-R494: RESTORE checks the header and the root first and takes the image's layers in order: routing and membership with the own
device number for the lost one's, position and streams, tensors; each refusal ends it with its status. -/
def Sys2Proof.Claims.RestoreLayersPart : Prop :=
  (∀ (p : Path) (a lost : Nat) (h b : Bytes) (s : State), Calm s → lost < 2 ^ 15 → s.m.ckpt.lastRoot = none →
    (let im := imageFrom b
     let body := headWord h 4
     let fromMem := Instr.restore p true a lost none false
     let fromHeld := Instr.restore p false a lost (some b) false
     let free := ∀ c ∈ s.m.tw.ctxs, c.2.st = .free
     let starts := fun cmd => Claims.Commanded cmd s p OD.checkpointCommand .rws ST.pending (fun d =>
       d.ckpt = { s.m.ckpt with restore := some { image := im, layer := if headGen im.head = 3 then 1 else 2, skew := false } } ∧
       rd d OD.restoreStatus = 0 ∧ rd d OD.restoreLayer = (if headGen im.head = 3 then 0 else 1) ∧ d.mem = s.m.mem)
     let no := fun cmd st => Claims.TurnedAway cmd s p OD.checkpointCommand .rws st []
     (s.m.seq.st = .idle → a < 2 ^ 49 → readMem s.m a 512 = (ST.ok, h) → headGood h = true →
       readMem s.m a (512 + (64 * chunkTotal body + 4095) / 4096 * 4096 + body) = (ST.ok, b) → headGood im.head = true →
       (rootOf im.head im.digests = headRoot im.head → (free ∨ headGen im.head ≠ 3) → starts fromMem) ∧
       (rootOf im.head im.digests ≠ headRoot im.head → free → no fromMem ST.digest) ∧ (¬free → headGen im.head = 3 → no fromMem ST.state)) ∧
     (s.m.seq.st = .idle → a < 2 ^ 15 → headGood im.head = true →
       (headDev im.head = lost → rootOf im.head im.digests = headRoot im.head → free → starts fromHeld) ∧
       (headDev im.head ≠ lost → no fromHeld ST.noCopy)) ∧
     (s.m.seq.st = .idle → a < 2 ^ 15 → no (.restore p false a lost none false) ST.noCopy) ∧
     (s.m.seq.st ≠ .idle → a < 2 ^ 15 → no fromMem ST.state ∧ no fromHeld ST.state))) ∧
  (∀ (s : State) (r : RestoreRun) (sec : Sections), Calm s → Claims.Restoring s.m r 1 sec →
    (sec.ctxs = [] → sec.ftt = [] → sec.groups = [] → Completes .restoreRouting s (fun d => Claims.Layer r 2 d ∧
      d = { s.m with ckpt := { s.m.ckpt with restore := d.ckpt.restore } })) ∧
    (∀ (c : Nat) (w1 w2 : W64), sec.ctxs = [(c, [(w1, w2)])] → sec.ftt = [] → sec.groups = [] → (ctxOf s.m c).st = .free → w1 ≠ 0 →
      fld w1 15 4 = 0 → fld w1 63 49 = 0 → fld w2 15 0 = 0 → fld w2 63 49 = 0 → fld w1 48 16 ≤ fld w2 48 16 →
      Completes .restoreRouting s (fun d => Claims.Layer r 2 d ∧ (ctxOf d c).st = .live ∧ mfind (ctxOf d c).regions 0 =
        some ⟨bit w1 1, bit w1 2, bit w1 3, fld w1 48 16, fld w2 48 16, bit w1 0⟩ ∧ ∀ k, k ≠ c → ctxOf d k = ctxOf s.m k)) ∧
    (∀ e0 e1 : W64, sec.ctxs = [] → sec.ftt = [(e0, e1)] → sec.groups = [] → Claims.goodEntry e0 e1 →
      (let f : FttEntry := { entryOf e0 e1 with tgt := Claims.own s.m r (fld e1 47 33) * 2 ^ 33 + fld e1 32 0 }
       (Claims.fits s.m.tw.ftt0 f → Completes .restoreRouting s (fun d => Claims.Layer r 2 d ∧ d.tw.ftt0 = s.m.tw.ftt0 ++ [f] ∧
         d.tw.ftt1 = s.m.tw.ftt1 ++ [f])) ∧
       ((∃ g ∈ s.m.tw.ftt0, fttOverlap f g = true) → Completes .restoreRouting s (fun d => Claims.RestoreEnds ST.fttConflict s.m d ∧
         d.tw = s.m.tw)))) ∧
    (∀ (g rank : Nat) (ms : List Member), sec.ctxs = [] → sec.ftt = [] → sec.groups = [(g, rank, ms)] →
      (let ns := ms.map (fun m => { m with dev := Claims.own s.m r m.dev })
       (mfind s.m.seq.groups g = none → ns[rank]? = some { dev := devNo s.m, gen := 3 } → (∀ m ∈ ns, m.gen ≠ 0) →
         (ns.map (fun m => m.dev)).Nodup → Completes .restoreRouting s (fun d => Claims.Layer r 2 d ∧ mfind d.seq.groups g =
           some { st := .admitting, wire := Claims.wire ns, rank := rank, members := ns, since := s.m.tick } ∧
           Claims.SentBy 1 (.digest g (Config.sha3_512 (memberBytes ns))) s.m d)) ∧
       (mfind s.m.seq.groups g ≠ none → Completes .restoreRouting s (fun d => Claims.RestoreEnds ST.state s.m d ∧ d.seq = s.m.seq))))) ∧
  (∀ (s : State) (r : RestoreRun) (sec : Sections), Calm s → Claims.Restoring s.m r 2 sec → headGen r.image.head = 3 →
    natAt r.image.body 0 < 2 ^ 48 → natAt r.image.body 16 < 2 ^ 32 → (∀ e ∈ sec.table, e.cls < 2) →
    (let b := r.image.body
     let ok := natAt b 32 = natAt b 0 ∧ natAt b 40 = natAt b 8
     (sec.groups = [] → Completes .restorePosition s (fun d => rd d OD.stepNumber = natAt b 0 ∧ rd d OD.jobDataPosition = natAt b 8 ∧
       rd d OD.globalBatch = natAt b 16 ∧ rdFull d OD.jobSeed = (b.drop 48).take 16 ∧ rdFull d OD.shardCursors = (b.drop 64).take 2048 ∧
       rdFull d OD.streamState = leBytes 8 (natAt b 0) ++ leBytes 8 (natAt b 8) ∧ rd d OD.restoreLayer = 2 ∧ d.mem = s.m.mem ∧
       d.ckpt = { s.m.ckpt with restore := d.ckpt.restore, lastRoot := some (headRoot r.image.head) } ∧
       d.ckpt.restore = some { r with layer := 3, skew := decide ¬ok } ∧ (¬ok → Claims.Raises [Claims.ckptEv s.m 0x3623 0] s.m d) ∧
       (ok → d.ev = s.m.ev))) ∧
     ((∃ g ∈ sec.groups, ∀ x, mfind s.m.seq.groups g.1 = some x → x.st = .admitting) → Becomes .restorePosition s s.m))) ∧
  (∀ (s : State) (r : RestoreRun) (sec : Sections), Calm s → Claims.Restoring s.m r 2 sec →
    ((headGen r.image.head = 1 ∧ (2 ^ 32 ≤ natAt r.image.body 0 ∨ 2 ^ 40 ≤ natAt r.image.body 8)) ∨ 2 ^ 48 ≤ natAt r.image.body 0 ∨
      2 ^ 32 ≤ natAt r.image.body 16) → Completes .restorePosition s (fun d => Claims.RestoreEnds ST.invalid s.m d ∧ d.mem = s.m.mem ∧
      rd d OD.stepNumber = rd s.m OD.stepNumber)) ∧
  (∀ (s : State) (r : RestoreRun) (sec : Sections), Calm s → Claims.Restoring s.m r 3 sec →
    (∀ e, chunkDigests r.image.body = r.image.digests → sec.table = [e] → e.cls < 2 → Claims.CanWrite s.m e.addr e.length →
      sec.start + e.length ≤ r.image.body.length → Completes .restoreTensors s (fun d =>
        Claims.Stored e.addr ((r.image.body.drop sec.start).take e.length) s.m d ∧ rd d OD.restoreLayer = 3 ∧ rd d OD.checkpointState = 1 ∧
        d.ckpt.table = [e] ∧ d.ckpt.lastRoot = none ∧ Claims.RestoreEnds (if r.skew = true then ST.streamSkew else ST.ok) s.m d)) ∧
    (chunkDigests r.image.body ≠ r.image.digests → Completes .restoreTensors s (fun d => Claims.RestoreEnds ST.digest s.m d ∧
      d.mem = s.m.mem ∧ d.tw = s.m.tw ∧ d.ckpt.lastRoot = s.m.ckpt.lastRoot))) ∧
  (∀ s : State, Calm s → (∀ r, s.m.ckpt.restore = some r → r.layer ≠ 1) → Becomes .restoreRouting s s.m) ∧
  (∀ s : State, Calm s → (∀ r, s.m.ckpt.restore = some r → r.layer ≠ 2) → Becomes .restorePosition s s.m) ∧
  (∀ s : State, Calm s → (∀ r, s.m.ckpt.restore = some r → r.layer ≠ 3) → Becomes .restoreTensors s s.m)

/-- R495-R499: the partner is declared lost after a probe without answer, or by TAKEOVER; the first spare that accepts; the target; a
survivor unloads, admits its groups anew with the spare at the lost rank and retargets; it rewinds by one step, or the takeover ends. -/
def Sys2Proof.Claims.TakeoverPart : Prop :=
  (∀ (s : State) (t : Nat), Calm s → s.m.ckpt.probeAt = some t → s.m.ckpt.takeover = none →
    (let run : TakeoverRun := { lost := rd s.m OD.partnerDevice, spare := none, table := s.m.seq.table, leads := true }
     let due := s.m.seq.st = .halted ∧ t + (rd s.m OD.retryLimit + 1) * rd s.m OD.txTimeout ≤ s.m.tick
     (due → rd s.m OD.autoResume = 1 → Completes .probeTimeout s (fun d =>
       d.ckpt = { s.m.ckpt with takeover := some run, probeAt := none } ∧
       Claims.Raises [Claims.ckptEv s.m 0x3626 (rd s.m OD.partnerDevice % 2 ^ 28)] s.m d)) ∧
     (due → rd s.m OD.autoResume = 0 → Becomes .probeTimeout s { s.m with ckpt := { s.m.ckpt with probeAt := none } }) ∧
     (¬due → Becomes .probeTimeout s s.m))) ∧
  (∀ s : State, Calm s → s.m.ckpt.probeAt = none → Becomes .probeTimeout s s.m) ∧
  (∀ (p : Path) (dev : Nat) (s : State), Calm s → dev < 2 ^ 15 →
    (dev = rd s.m OD.partnerDevice → s.m.seq.st = .halted → s.m.ckpt.takeover = none →
      Claims.Commanded (.takeover p dev false) s p OD.checkpointCommand .rws ST.pending (fun d =>
        d.ckpt = { s.m.ckpt with takeover := some { lost := dev, spare := none, table := s.m.seq.table, leads := true }, probeAt := none } ∧
        Claims.Raises [Claims.ckptEv s.m 0x3626 dev] s.m d)) ∧
    ((dev ≠ rd s.m OD.partnerDevice ∨ s.m.seq.st ≠ .halted) →
      Claims.TurnedAway (.takeover p dev false) s p OD.checkpointCommand .rws ST.state [])) ∧
  (∀ (ans : List Bool) (steps : List Nat) (s : State) (t : TakeoverRun) (tr : GateTree), Calm s → s.m.ckpt.takeover = some t →
    t.leads = true → t.spare = none → Claims.Tree s.m tr →
    ((∀ i < 16, ans.getD i false = false ∨ 2 ^ 15 ≤ Claims.spareAt s.m i) → Completes (.spareClaim ans steps) s (fun d =>
      Claims.TakeoverEnds ST.noSpare s.m d ∧ d.seq = s.m.seq ∧ d.tw = s.m.tw)) ∧
    (∀ k target, k < 16 → ans.getD k false = true → Claims.spareAt s.m k < 2 ^ 15 →
      (∀ j < k, ans.getD j false = false ∨ 2 ^ 15 ≤ Claims.spareAt s.m j) → target ∈ rd s.m OD.jobSealedStep :: steps → target < 2 ^ 48 →
      (∀ n ∈ rd s.m OD.jobSealedStep :: steps, n < 2 ^ 48 → n ≤ target) → s.m.seq.st = .halted → rd s.m OD.stepNumber ≤ target + 1 →
      s.m.ckpt.theirs = none → rd s.m OD.partnerDevice ≠ 0xFFFF → Completes (.spareClaim ans steps) s (fun d =>
        Claims.Survives t.lost (Claims.spareAt s.m k) true s.m d ∧ rd d OD.partnerDevice = 0xFFFF ∧ d.ckpt.held = s.m.ckpt.held ∧
        rd d OD.durabilityClass = 0 ∧ (∀ m ∈ tr.members, m.2 ≠ devNo s.m → m.2 ≠ t.lost →
          ∃ n, Msg.served (serviceSlot s.m 4) n (.takeoverNotice m.2 t.lost (Claims.spareAt s.m k) target) ∈ d.sent) ∧
        ∃ n image, Msg.served (serviceSlot s.m 4) n (.proposal (Claims.spareAt s.m k) false (rd s.m OD.powerFeedId) image) ∈ d.sent))) ∧
  (∀ (ans : List Bool) (steps : List Nat) (s : State), Calm s → (∀ t, s.m.ckpt.takeover = some t → t.leads = false) →
    Becomes (.spareClaim ans steps) s s.m) ∧
  (∀ (lost spare target : Nat) (s : State), Calm s → s.m.ckpt.takeover = none → s.m.seq.st = .halted →
    (∀ g r, rd s.m OD.stepNumber ≤ target + 1 → s.m.seq.groups = [(g, r)] → (∃ m ∈ r.members, m.dev = lost) →
      (let ms := r.members.map (fun m => if m.dev = lost then { m with dev := spare } else m)
       Completes (.takeoverNotice lost spare target) s (fun d => Claims.Survives lost spare false s.m d ∧
         d.seq.groups = [(g, { st := .admitting, wire := Claims.wire ms, rank := r.rank, members := ms, since := s.m.tick })] ∧
         Claims.SentBy 1 (.digest g (Config.sha3_512 (memberBytes ms))) s.m d))) ∧
    (rd s.m OD.stepNumber ≤ target + 1 → (∀ q ∈ s.m.seq.groups, ∀ m ∈ q.2.members, m.dev ≠ lost) →
      Completes (.takeoverNotice lost spare target) s (fun d => Claims.Survives lost spare false s.m d ∧ d.seq.groups = s.m.seq.groups ∧
        d.sent = s.m.sent ∧ rd d OD.stepNumber = rd s.m OD.stepNumber)) ∧
    (∀ sn, rd s.m OD.stepNumber = target + 2 → s.m.ckpt.snaps.find? (fun x => x.step == target) = some sn →
      Completes (.takeoverNotice lost spare target) s (fun d => Claims.Survives lost spare false s.m d ∧
        rd d OD.stepNumber = leNat (sn.service.take 8) % 2 ^ 48 ∧ Claims.Counted OD.rewinds true s.m d ∧
        Claims.Raises [Claims.ckptEv s.m 0x3624 0] s.m d)) ∧
    (target + 1 < rd s.m OD.stepNumber → (∀ sn ∈ s.m.ckpt.snaps, sn.step ≠ target) →
      Completes (.takeoverNotice lost spare target) s (fun d => Claims.TakeoverEnds ST.noCopy s.m d ∧ d.seq = s.m.seq ∧ d.tw = s.m.tw)))

/-- R490-R499: the layers of a restore, and the takeover of a lost device by a spare. -/
def Obligations.RestoreAndTakeover : Prop := Claims.RestoreLayersPart ∧ Claims.TakeoverPart

namespace Sys2Proof.Claims

/-- A reset is in progress beside others, and the fault record names it (R515, R527). -/
def Began (others : List Reset) (tier target cause : Nat) (command : Bool) (d d' : Dev) : Prop :=
  d'.faults.resets = others ++ [⟨tier, target, cause, d.tick, command⟩] ∧ rd d' OD.lastResetTier = tier ∧
  rd d' OD.lastResetTarget = target ∧ rd d' OD.lastResetCause = cause

/-- The fence of a reset is up and its drain is timed (R518). -/
def Fenced (d d' : Dev) : Prop := d'.faults.drainSince = some d.tick

/-- The die whose port reports an engine (R57, R506). -/
def engineEv (id e : Nat) : Nat × Event := ev (enginePort e) id (e % 0x1000) 0 []

/-- An engine of kinds 1 to 7 holds accepted work (R506, R507): a digest engine works. -/
def HasWork (d : Dev) (e : Nat) : Prop :=
  let i := e % 0x1000
  let busy := fun (u : ExecUnit) => u.queue ≠ [] ∨ u.run ≠ none
  (e / 0x1000 = 1 ∧ i < 256 ∧ busy (unitAt d i false)) ∨ (e / 0x1000 = 2 ∧ i < 256 ∧ busy (unitAt d i true)) ∨
  (e / 0x1000 = 3 ∧ i < 2048 ∧ busy (pisteOf d i)) ∨ (e / 0x1000 = 4 ∧ i < 2048 ∧ ∃ b ∈ d.blocks, b.core = i) ∨
  (e / 0x1000 = 5 ∧ i < 2048 ∧ ∃ q < 4, (queueOf d (4 * i + q)).accepted ≠ []) ∨
  (e / 0x1000 = 6 ∧ i < 12 ∧ ∃ x ∈ d.mem.combining, lineController d.mem x.line = i) ∨ (e / 0x1000 = 7 ∧ i < 2 ∧ works d (digestFn i) = true)

/-- Logical cluster of an engine of kinds 1 to 5. -/
def clusterOf (e : Nat) : Nat := if e / 0x1000 ≤ 2 then e % 0x1000 else e % 0x1000 / 8

/-- A reset of software's command has ended: the command is done (R516). -/
def CommandDone (command : Bool) (d d' : Dev) : Prop :=
  command = true → commandPending d OD.faultCommand = true → commandStatus d' OD.faultCommand = ST.ok.toNat

/-- An engine that no reset cleared stays fenced and FAILED (R506). -/
def LeftFailed (f : FunctionKey) (bit_ e : Nat) (d d' : Dev) : Prop :=
  Reports f RS.failed 4 d d' ∧ Raises [engineEv 0x400B e] d d' ∧ (leNat (rdFull d' OD.enginesFailed)).testBit bit_ = true

/-- What the reset of an engine of a kind keeps and loses (R506, R515, R523-R525). -/
def EngineFenced (e : Nat) (d d' : Dev) : Prop :=
  let i := e % 0x1000
  Fenced d d' ∧ d'.mem.cells = d.mem.cells ∧ d'.units = d.units ∧ d'.piste = d.piste ∧
  (∀ k, (queueOf d' k).accepted = (queueOf d k).accepted) ∧
  ((e / 0x1000 = 4 ∨ e / 0x1000 = 5) → (∀ b ∈ d'.blocks, b.core ≠ i) ∧
    ∀ b ∈ d.blocks, b.core = i → ∀ g, mfind d.grids b.grid = some g → ∃ g', mfind d'.grids b.grid = some g' ∧
      g'.fault = some (g.fault.getD ST.fenced)) ∧
  (e / 0x1000 ≠ 4 → e / 0x1000 ≠ 5 → d'.blocks = d.blocks ∧ d'.grids = d.grids) ∧
  (e / 0x1000 = 6 → ∀ x, x ∈ d'.mem.combining ↔ x ∈ d.mem.combining ∧ (lineController d.mem x.line ≠ i ∨ pinned d.mem x.line = true))

end Sys2Proof.Claims

/-- R506, R507, R509, R515-R517, R523-R526: a hung engine's reset begins at once, a second one within the window moves its cluster, a hang
under a reset goes to the next tier; heartbeats; a reset completes, or exceeds its timeout; ENGINE_RESET. -/
def Obligations.EngineResets : Prop :=
  (∀ (e : Nat) (s : State), Calm s → Claims.HasWork s.m e → s.m.faults.failedClusters = [] →
    (s.m.faults.resets = [] → mfind s.m.faults.lastReset e = none → Completes (.engineHang e) s (fun d =>
      Claims.Began [] 1 e 0x4001 false s.m d ∧ Claims.Raises [Claims.engineEv 0x4001 e] s.m d ∧ Claims.EngineFenced e s.m d)) ∧
    (∀ t, e / 0x1000 ≤ 5 → s.m.faults.resets = [] → mfind s.m.faults.lastReset e = some t → s.m.tick < t + rd s.m OD.resetWindow →
      rd s.m (OD.sparesRemaining + Claims.clusterOf e / 64) ≠ 0 → Completes (.engineHang e) s (fun d =>
        Claims.Began [] 2 (Claims.clusterOf e) 0x4001 false s.m d ∧ Claims.Fenced s.m d ∧ d.blocks = s.m.blocks ∧ d.units = s.m.units)) ∧
    (∀ c t cmd, s.m.faults.resets = [⟨1, e, c, t, cmd⟩] → e / 0x1000 ≤ 5 → rd s.m (OD.sparesRemaining + Claims.clusterOf e / 64) ≠ 0 →
      Completes (.engineHang e) s (fun d => Claims.Began [] 2 (Claims.clusterOf e) 0x4001 cmd s.m d ∧
        Claims.Raises [Claims.engineEv 0x4001 e] s.m d)) ∧
    (∀ c t cmd, e / 0x1000 ≤ 5 → (s.m.faults.resets = [⟨2, Claims.clusterOf e, c, t, cmd⟩] ∨
        s.m.faults.resets = [⟨1, e, c, t, cmd⟩] ∧ rd s.m (OD.sparesRemaining + Claims.clusterOf e / 64) = 0) →
      Completes (.engineHang e) s (fun d => Claims.Began [] 3 0 0x4001 cmd s.m d)) ∧
    (∀ c t cmd, e / 0x1000 = 6 → s.m.faults.resets = [⟨1, e, c, t, cmd⟩] → Completes (.engineHang e) s (fun d =>
      Claims.Began [] 4 0 0x4001 cmd s.m d)) ∧
    (∀ c t, e / 0x1000 = 7 → s.m.faults.resets = [⟨1, e, c, t, false⟩] → Completes (.engineHang e) s (fun d => d.faults.resets = [] ∧
      Claims.LeftFailed (digestFn (e % 0x1000)) (4 + e % 0x1000) e s.m d)) ∧
    (∀ r, s.m.faults.resets = [r] → (r.tier = 4 ∨ (r.tier = 3 ∧ e / 0x1000 ≤ 5)) → Becomes (.engineHang e) s s.m)) ∧
  (∀ (e : Nat) (s : State), Calm s → (e < 0x1000 ∨ 0x8000 ≤ e ∨ (e / 0x1000 = 1 ∧ (Claims.unitAt s.m (e % 0x1000) false).queue = [] ∧ (Claims.unitAt s.m (e % 0x1000) false).run = none)) →
    Becomes (.engineHang e) s s.m) ∧
  (∀ (sq : Nat) (s : State), Calm s → sq < 4 →
    (works s.m (sequencerFn sq) = true → s.m.faults.resets = [] → (∀ v ∈ s.m.seq.services, v ≠ sq) → Completes (.heartbeatMissed sq) s (fun d =>
      Claims.Began [] 1 (0x8000 + sq) 0x4001 false s.m d ∧ Claims.Reports (sequencerFn sq) RS.fenced 3 s.m d ∧
      Claims.Raises [Claims.ev sq 0x4001 sq 0 []] s.m d)) ∧
    (∀ sv, works s.m (sequencerFn sq) = true → works s.m (sequencerFn ((sq + 1) % 4)) = true → s.m.faults.resets = [] →
      s.m.seq.services.length = 5 → sv < 5 → s.m.seq.services[sv]? = some sq → sq = [0, 1, 2, 2, 3].getD sv 9 →
      Completes (.heartbeatMissed sq) s (fun d => d.seq.services[sv]? = some ((sq + 1) % 4) ∧
        (s.m.seq.st = .open → d.seq.cause = max s.m.seq.cause 4))) ∧
    (∀ c t, s.m.faults.resets = [⟨1, 0x8000 + sq, c, t, false⟩] → Completes (.heartbeatMissed sq) s (fun d => d.faults.resets = [] ∧
      Claims.LeftFailed (sequencerFn sq) sq (0x8000 + sq) s.m d)) ∧
    (works s.m (sequencerFn sq) = false → engineInReset s.m (0x8000 + sq) = false → Becomes (.heartbeatMissed sq) s s.m)) ∧
  (∀ (e c t : Nat) (cmd : Bool) (s : State), Calm s → s.m.faults.resets = [⟨1, e, c, t, cmd⟩] →
    Completes (.engineResetDone e) s (fun d => d.faults.resets = [] ∧ Claims.Counted OD.engineResets true s.m d ∧
      Claims.Raises [Claims.engineEv 0x4002 e] s.m d ∧ Claims.CommandDone cmd s.m d ∧ d.mem = s.m.mem ∧ d.blocks = s.m.blocks ∧
      (∀ i < 4, e = 0x8000 + i → Claims.Reports (sequencerFn i) RS.ready 0 s.m d) ∧
      (∀ i < 256, ∀ skate : Bool, e = Claims.unitId i skate → ∀ r, (Claims.unitAt s.m i skate).run = some r →
        (Claims.unitAt d i skate).queue = (Claims.unitAt s.m i skate).queue ∧
        (Claims.unitAt d i skate).run = some (if matrixStuck s.m r.op.words = true then { r with status := ST.poison } else r)))) ∧
  (∀ (e : Nat) (s : State), Calm s → engineInReset s.m e = false → Becomes (.engineResetDone e) s s.m) ∧
  (∀ (c t x cause : Nat) (cmd : Bool) (s : State), Calm s →
    (let esc := fun (d : Dev) => Claims.Raises [Claims.ev 16 0x4007 0 0 []] s.m d ∧ Claims.Counted OD.escalations true s.m d
     (0x1000 ≤ x → x / 0x1000 ≤ 5 → 1 ≤ x / 0x1000 → s.m.faults.resets = [⟨1, x, cause, t, cmd⟩] → s.m.faults.failedClusters = [] →
       rd s.m (OD.sparesRemaining + Claims.clusterOf x / 64) ≠ 0 → t + rd s.m OD.engineResetEscalation ≤ s.m.tick →
       Completes (.resetEscalation x) s (fun d => esc d ∧ Claims.Began [] 2 (Claims.clusterOf x) 0x4007 cmd s.m d)) ∧
     (c < 0x100 → s.m.faults.resets = [⟨2, c, cause, t, cmd⟩] → t + rd s.m OD.clusterMoveEscalation ≤ s.m.tick →
       Completes (.resetEscalation c) s (fun d => esc d ∧ Claims.Began [] 3 0 0x4007 cmd s.m d)) ∧
     (s.m.faults.resets = [⟨3, 0, cause, t, cmd⟩] → t + rd s.m OD.kickTurnEscalation ≤ s.m.tick →
       Completes (.resetEscalation 0x100) s (fun d => esc d ∧ Claims.Began [] 4 0 0x4007 cmd s.m d)) ∧
     (s.m.faults.resets = [⟨4, 0, cause, t, cmd⟩] → s.m.pow.pcycReq = false → t + rd s.m OD.fullRestartEscalation ≤ s.m.tick →
       Completes (.resetEscalation 0x101) s (fun d => esc d ∧ d.pow.pcycReq = true ∧ d.pow.pcycAt = s.m.tick ∧
         Claims.Counted OD.powerCycleRequests true s.m d ∧ Claims.Raises [Claims.ev 16 0x4008 0 0 []] s.m d ∧
         d.faults.resets = s.m.faults.resets)) ∧
     (∀ i < 4, s.m.faults.resets = [⟨1, 0x8000 + i, cause, t, false⟩] → t + rd s.m OD.engineResetEscalation ≤ s.m.tick →
       Completes (.resetEscalation (0x8000 + i)) s (fun d => d.faults.resets = [] ∧ Claims.Counted OD.escalations false s.m d ∧
         Claims.LeftFailed (sequencerFn i) i (0x8000 + i) s.m d)) ∧
     (0x1000 ≤ x → s.m.faults.resets = [⟨1, x, cause, t, cmd⟩] → s.m.tick < t + rd s.m OD.engineResetEscalation →
       Becomes (.resetEscalation x) s s.m) ∧
     (s.m.faults.resets = [] → Becomes (.resetEscalation x) s s.m))) ∧
  (∀ (p : Path) (e : Nat) (s : State), Calm s →
    (engineDefined e = false → e < 2 ^ 16 → Claims.TurnedAway (.engineReset p e false) s p OD.faultCommand .rws ST.invalid []) ∧
    (engineDefined e = true → s.m.faults.resets = [] → mfind s.m.faults.lastReset e = none → engineFailed s.m e = false → e < 0x8000 →
      Claims.Commanded (.engineReset p e false) s p OD.faultCommand .rws ST.pending (fun d => Claims.Began [] 1 e 0 true s.m d ∧
        Claims.EngineFenced e s.m d)) ∧
    (engineDefined e = true → ((∃ r ∈ s.m.faults.resets, r.tier = 4 ∨ (r.tier = 1 ∧ r.target = e) ∨
        (e / 0x1000 ≤ 5 ∧ (r.tier = 3 ∨ (r.tier = 2 ∧ r.target = Claims.clusterOf e)))) ∨ engineFailed s.m e = true) →
      Claims.TurnedAway (.engineReset p e false) s p OD.faultCommand .rws ST.state []))

namespace Sys2Proof.Claims

/-- A logical cluster runs on a spare of its die from now on (R22, R511). -/
def OnSpareCluster (c i : Nat) (d d' : Dev) : Prop :=
  (∀ j < 64, (clusterMapOf d' (c / 64))[j]? = if j = c % 64 then some (BitVec.ofNat 8 (64 + i)) else (clusterMapOf d (c / 64))[j]?) ∧
  Raises [ev (c / 64) 0x4003 c 0 []] d d' ∧ Counted OD.clusterMoves true d d'

/-- A logical cluster marked failed for want of a spare (R514). -/
def ClusterFailed (c : Nat) (d d' : Dev) : Prop :=
  d'.faults.failedClusters = d.faults.failedClusters ++ [c] ∧ Raises [ev (c / 64) 0x4004 c 0 []] d d' ∧
  (readyState d (computeFn (8 * c)) = RS.ready → Reports (computeFn (8 * c)) RS.degraded 2 d d') ∧
  (∀ b ∈ d'.blocks, b.core / 8 ≠ c)

/-- The cluster runs nothing: no block, no queued or running operation. -/
def ClusterIdle (c : Nat) (d : Dev) : Prop :=
  (∀ b ∈ d.blocks, b.core / 8 ≠ c) ∧ (∀ sk, unitAt d c sk = ExecUnit.empty) ∧ ∀ k, k / 8 = c → pisteOf d k = ExecUnit.empty

/-- The dies of some ports are reset: what they have raised and not published is discarded and counted as dropped, and what they
have published stays (R58). -/
structure Discards (reset : Nat → Bool) (d m : Dev) : Prop where
  raised : m.ev.raised = d.ev.raised.filter (fun e => !(decide (e.1 < 10) && reset e.1))
  dropped : ∀ p < 10, reset p = true →
    let gone := (d.ev.raised.filter (fun e => e.1 == p)).map (fun e => (eventPacket e.2).length)
    let old := mget Fifo.empty d.ev.events p
    mget Fifo.empty m.ev.events p = { old with dropPkts := old.dropPkts + gone.length, dropWords := old.dropWords + gone.sum }
  others : ∀ p, (10 ≤ p ∨ reset p = false) → mget Fifo.empty m.ev.events p = mget Fifo.empty d.ev.events p
  rest : m = { d with ev := { d.ev with raised := m.ev.raised, events := m.ev.events } }

/-- Every die but HV and FL is reset (R283, R519, R521, R573). -/
structure Restarted (d d' : Dev) : Prop where
  contexts : ∀ c, (ctxOf d' c).st = .free ∧ (ctxOf d' c).epoch = 0
  table : d'.tw.ftt0 = [] ∧ d'.tw.ftt1 = []
  sequencer : d'.seq = StepState.reset
  checkpoint : d'.ckpt = CkptState.reset
  compute : d'.grids = [] ∧ d'.blocks = [] ∧ d'.units = [] ∧ d'.piste = []
  ports : d'.ports = [] ∧ d'.runs = []
  llc : d'.mem.llc = [] ∧ d'.mem.combining = []
  memory : ∀ x, d.mem.llc = [] → d.ports = [] → x < hbmEnd → cellAt d'.mem x = cellAt d.mem x
  retired : d'.mem.retired = d.mem.retired ∧ d'.mem.lost = d.mem.lost
  edges : ∀ e < 2, rd d' (OD.edgeLinkState + e) = 0

end Sys2Proof.Claims

/-- R509, R511-R521, R351: a cluster moves to the lowest spare that passes, with or without its state, or is marked failed; a kick turn
fences, faults and completes the compute domain's work; a full restart; their ends; the drain of a fence; the commands. -/
def Obligations.MovesTurnsAndRestarts : Prop :=
  (∀ (p : Path) (c : Nat) (s : State), Calm s → c < 256 →
    (s.m.faults.resets = [] → s.m.faults.failedClusters = [] → rd s.m (OD.sparesRemaining + c / 64) ≠ 0 →
      Claims.Commanded (.clusterMove p c false) s p OD.faultCommand .rws ST.pending (fun d => Claims.Began [] 2 c 0 true s.m d ∧
        Claims.Fenced s.m d ∧ d.blocks = s.m.blocks ∧ d.mem = s.m.mem)) ∧
    ((rd s.m (OD.sparesRemaining + c / 64) = 0 ∨ ∃ r ∈ s.m.faults.resets, r.tier = 3 ∨ r.tier = 4 ∨ (r.tier = 2 ∧ r.target = c)) →
      Claims.TurnedAway (.clusterMove p c false) s p OD.faultCommand .rws ST.state [])) ∧
  (∀ (p : Path) (c : Nat) (s : State), Calm s → 256 ≤ c → Claims.TurnedAway (.clusterMove p c false) s p OD.faultCommand .rws ST.invalid []) ∧
  (∀ (c cause t : Nat) (cmd : Bool) (ts : List Bool) (s : State), Calm s → c < 256 → s.m.faults.resets = [⟨2, c, cause, t, cmd⟩] →
    (clusterMapOf s.m (c / 64)).length = 64 → s.m.units = [] → s.m.piste = [] →
    (let n := 2 * (c / 64)
     let left := rd s.m (OD.sparesRemaining + c / 64)
     let moved := fun (i used : Nat) (d : Dev) => Claims.OnSpareCluster c i s.m d ∧ d.faults.resets = [] ∧ Claims.CommandDone cmd s.m d ∧
       rd d (OD.sparesRemaining + c / 64) = left - used
     (∀ i < 2, n + i ∉ s.m.faults.usedSpares → (∀ j < i, n + j ∈ s.m.faults.usedSpares) → ts.headD true = true →
       Completes (.clusterMoveDone c ts false) s (fun d => moved i 1 d ∧ d.blocks = s.m.blocks ∧ d.grids = s.m.grids ∧
         d.faults.usedSpares = s.m.faults.usedSpares ++ [n + i]) ∧
       Completes (.clusterMoveDone c ts true) s (fun d => moved i 1 d ∧ (∀ b ∈ d.blocks, b.core / 8 ≠ c) ∧
         ∀ b ∈ s.m.blocks, b.core / 8 = c → ∀ g, mfind s.m.grids b.grid = some g → ∃ g', mfind d.grids b.grid = some g' ∧
           g'.fault = some (g.fault.getD ST.poison))) ∧
     (n ∉ s.m.faults.usedSpares → n + 1 ∉ s.m.faults.usedSpares → ∀ rest, Completes (.clusterMoveDone c (false :: true :: rest) false) s (fun d =>
       moved 1 2 d ∧ d.faults.usedSpares = s.m.faults.usedSpares ++ [n, n + 1])) ∧
     (n ∉ s.m.faults.usedSpares → n + 1 ∉ s.m.faults.usedSpares → ∀ u rest, Completes (.clusterMoveDone c (false :: false :: rest) u) s (fun d =>
       Claims.ClusterFailed c s.m d ∧ d.faults.resets = [] ∧ Claims.CommandDone cmd s.m d)))) ∧
  (∀ (c : Nat) (ts : List Bool) (u : Bool) (s : State), Calm s → (∀ r ∈ s.m.faults.resets, r.tier = 2 → r.target ≠ c) →
    Becomes (.clusterMoveDone c ts u) s s.m) ∧
  (∀ (c b t : Nat) (cmd : Bool) (ts : List Bool) (u : Bool) (s : State), Calm s → c / 64 = b / 64 → b < c → (∃ r ∈ s.m.faults.resets, r =
    ⟨2, b, 0x4007, t, cmd⟩) → Becomes (.clusterMoveDone c ts u) s s.m) ∧
  (∀ (p : Path) (s : State), Calm s →
    (s.m.faults.resets = [] → Claims.Commanded (.kickTurn p false) s p OD.faultCommand .rws ST.pending (fun d =>
      Claims.Began [] 3 0 0 true s.m d ∧ Claims.Fenced s.m d ∧
      (∀ i < 4, works s.m (OD.readyCompute + i) = true → Claims.Reports (OD.readyCompute + i) RS.fenced 3 s.m d) ∧ d.blocks = [] ∧
      (s.m.seq.st = .open → d.seq.cause = max s.m.seq.cause 4) ∧ d.tw.ctxs = s.m.tw.ctxs ∧
      ∀ n g b, s.m.grids = [(n, g)] → s.m.blocks = [b] → b.grid = n → g.complete = false → g.ended + 1 = g.next →
        ∃ g', mfind d.grids n = some g' ∧ g'.fault = some (g.fault.getD ST.fenced) ∧ g'.complete = true)) ∧
    ((∃ r ∈ s.m.faults.resets, r.tier = 3 ∨ r.tier = 4) → Claims.TurnedAway (.kickTurn p false) s p OD.faultCommand .rws ST.state [])) ∧
  (∀ (cause t : Nat) (cmd : Bool) (s : State), Calm s → s.m.faults.resets = [⟨3, 0, cause, t, cmd⟩] →
    (let ended := fun (m d : Dev) => Claims.Discards (fun p => decide (p < 4)) s.m m ∧ d.faults.resets = [] ∧
       Claims.Counted OD.kickTurns true s.m d ∧ Claims.Raises [Claims.ev 16 0x4005 0 0 []] m d ∧ Claims.CommandDone cmd s.m d ∧
       d.mem.prefetch = []
     (s.m.faults.failedClusters = [] → Completes (.kickTurnDone []) s (fun d => ∃ m, ended m d ∧
       (∀ i < 4, readyState s.m (OD.readyCompute + i) = RS.fenced → Claims.Reports (OD.readyCompute + i) RS.ready 0 m d))) ∧
     (∀ c < 256, s.m.faults.failedClusters = [] → (clusterMapOf s.m (c / 64)).length = 64 → 2 * (c / 64) ∉ s.m.faults.usedSpares →
       Completes (.kickTurnDone [c]) s (fun d => ∃ m, ended m d ∧ Claims.OnSpareCluster c 0 m d)) ∧
     (∀ c < 256, s.m.faults.failedClusters = [] → 2 * (c / 64) ∈ s.m.faults.usedSpares → 2 * (c / 64) + 1 ∈ s.m.faults.usedSpares →
       Claims.ClusterIdle c s.m → readyState s.m (computeFn (8 * c)) = RS.fenced → Completes (.kickTurnDone [c]) s (fun d => ∃ m, ended m d ∧
         d.faults.failedClusters = [c] ∧ Claims.Reports (computeFn (8 * c)) RS.degraded 2 m d)))) ∧
  (∀ (f : List Nat) (s : State), Calm s → (∀ r ∈ s.m.faults.resets, r.tier ≠ 3) → Becomes (.kickTurnDone f) s s.m) ∧
  (∀ (p : Path) (s : State), Calm s →
    ((∀ r ∈ s.m.faults.resets, r.tier ≠ 4) → Claims.Accepted s.m p OD.faultCommand .rws → commandPending s.m OD.faultCommand = false →
      Completes (.fullRestart p false) s (fun d => d.hv.replyStatus = ST.ok ∧ commandStatus d OD.faultCommand = ST.pending.toNat ∧
        Claims.Began [] 4 0 0 true s.m d ∧ Claims.Counted OD.fullRestarts true s.m d ∧ Claims.Restarted s.m d ∧
        ∃ m, Claims.Discards (fun _ => true) s.m m ∧ Claims.Raises [Claims.ev 16 0x4006 0 0 []] m d ∧
          ∀ e < 2, nfld (rd s.m (OD.edgeLinkState + e)) 2 0 = 2 → Claims.Raises [Claims.ev (ldPort e) 0x3120 e 0 []] m d)) ∧
    ((∃ r ∈ s.m.faults.resets, r.tier = 4) → Claims.TurnedAway (.fullRestart p false) s p OD.faultCommand .rws ST.state [])) ∧
  (∀ s : State, Calm s →
    (∀ cause t cmd, s.m.faults.resets = [⟨4, 0, cause, t, cmd⟩] → Completes .fullRestartDone s (fun d => d.faults.resets = [] ∧
      d.tw = { s.m.tw with retxUntil := some (s.m.tick + rd s.m OD.replayRetention + tLifeUs s.m) } ∧ Claims.CommandDone cmd s.m d ∧
      d = { s.m with faults := d.faults, tw := d.tw, od := d.od })) ∧
    ((∀ r ∈ s.m.faults.resets, r.tier ≠ 4) → Becomes .fullRestartDone s s.m) ∧
    (∀ t, s.m.tw.retxUntil = some t → t ≤ s.m.tick → Becomes .restartRetxPeriodEnd s { s.m with tw := { s.m.tw with retxUntil := none } }) ∧
    ((∀ t, s.m.tw.retxUntil = some t → s.m.tick < t) → Becomes .restartRetxPeriodEnd s s.m) ∧
    (∀ t, s.m.faults.drainSince = some t → t + rd s.m OD.fenceDrainTime ≤ s.m.tick →
      Becomes .fenceDrainExpiry s { s.m with faults := { s.m.faults with drainSince := none } }) ∧
    ((∀ t, s.m.faults.drainSince = some t → s.m.tick < t + rd s.m OD.fenceDrainTime) → Becomes .fenceDrainExpiry s s.m))

namespace Sys2Proof.Claims

/-- Hivan's own port. -/
def hvEv (id : Nat) : Nat × Event := ev 16 id 0 0 []

/-- An orderly or critical power-down has begun (R612): the compute domain is fenced, an open step is to be abandoned, every fabric
port and every PCIe edge port goes down. -/
structure GoesOff (kind : DownSt) (d d' : Dev) : Prop where
  down : d'.pow.down = kind
  resets : d'.faults.resets = []
  blocks : d'.blocks = []
  fenced : ∀ i < 4, works d (OD.readyCompute + i) = true → Reports (OD.readyCompute + i) RS.fenced 3 d d'
  step : d.seq.st = .open → d'.seq.cause = max d.seq.cause 4
  ports : ∀ p < 32, portUp d' p = false
  edges : ∀ e < 2, rd d' (OD.edgeLinkState + e) = 0 ∧
    (nfld (rd d (OD.edgeLinkState + e)) 2 0 = 2 → Raises [ev (ldPort e) 0x3120 e 0 []] d d')

/-- Events raised on the way to the loss of power, which discards what the dies have not published (R58). -/
def RaisesAtLoss (es : List (Nat × Event)) (d d' : Dev) : Prop := ∃ m, Discards (fun _ => true) d m ∧ Raises es m d'

/-- No event but EV_2112, where t_step_max reported anew passes StepLimit (R44, R46). -/
def LimitOnly (d d' : Dev) : Prop :=
  d'.ev = { d.ev with raised := d'.ev.raised } ∧ ∃ l, d'.ev.raised = d.ev.raised ++ l ∧ ∀ e ∈ l, e.2.id = 0x2112

/-- The rails are off: memory is lost, and the 48 V input is no longer drawn from (R283, R612). -/
structure RailsOff (d' : Dev) : Prop where
  rails : d'.pow.hotSwap = false ∧ d'.pow.pwrGood = false ∧ d'.pow.rail = 0 ∧ rd d' OD.supplyMeasured = 0
  memory : d'.mem.cells = [] ∧ d'.mem.poison = []
  compute : d'.blocks = [] ∧ d'.grids = []
  resets : d'.faults.resets = []

/-- Nothing is due under R610 but what a clause names: no critical condition. -/
structure NotCritical (d : Dev) : Prop where
  points : ∀ i < 96, ∀ x, measured d (OD.temperature + i) = some x → x < ratBits (rd d OD.junctionCritical)
  hbm : ∀ i < 12, ∀ x, measured d (OD.stackTemperature + i) = some x → x < ratBits (rd d OD.hbmCritical)
  flow : d.pow.flowCritSince = none

/-- The cap in force reads as R600 says. -/
def CapsApplied (d' : Dev) : Prop := rd d' OD.setpointInForce = inForce d'

/-- More phases than a die has are never shed: 24 of a base die, 8 of a link die (R504). -/
def phasesOf (die : Nat) : Nat := if die < 4 then 24 else 8

end Sys2Proof.Claims

/-- R504, R535, R58, R63, R384, R596-R603, R605, R606, R608-R613: input ranges and disconnects, the discharge sink, the power limit, the governor, shed
phases, sensor samples, with SupplyMeasured the lowest measured setpoint rail (log entry 104) and EV_3111 for a standby laser input that is low, thermal limits, PWR_EN, power-downs, and the request of a power cycle. -/
def Obligations.PowerAndThermal : Prop :=
  (∀ (v : W32) (x : ℚ) (held : Nat) (s : State), Calm s → ratOf v = some x →
    (44 ≤ x → x ≤ 56 → Completes (.input48VRange v held) s (fun d => rd d OD.inputVoltage48 = v.toNat ∧ d.ev = s.m.ev ∧
      d.pow = { s.m.pow with v48ok := true, v48present := true })) ∧
    ((x < 44 ∧ (40 ≤ x ∨ held < 1000)) ∨ (56 < x ∧ (x ≤ 58 ∨ held < 10)) → s.m.pow.v48ok = true → Completes (.input48VRange v held) s
      (fun d => d.pow = { s.m.pow with v48ok := false } ∧ Claims.Raises [Claims.hvEv 0x2120] s.m d)) ∧
    ((x < 40 ∧ 1000 ≤ held) ∨ (58 < x ∧ 10 ≤ held) → s.m.pow.v48present = true → Completes (.input48VRange v held) s (fun d =>
      d.pow.v48present = false ∧ (s.m.pow.hotSwap = true → Claims.RailsOff d ∧ Claims.RaisesAtLoss [Claims.hvEv 0x2121] s.m d) ∧
      (s.m.pow.hotSwap = false → Claims.Raises [Claims.hvEv 0x2121] s.m d))) ∧
    (108 / 10 ≤ x → x ≤ 132 / 10 → Completes (.input12VRange v held) s (fun d => rd d OD.inputVoltage12 = v.toNat ∧
      d.pow = { s.m.pow with v12ok := true } ∧ d.hv = s.m.hv)) ∧
    ((x < 10 ∨ 14 < x) → 1000 ≤ held → s.m.hv.running = true → Completes (.input12VRange v held) s (fun d => d.hv.running = false ∧
      d.pow.v12ok = false ∧ (s.m.pow.hotSwap = true → Claims.RailsOff d ∧ Claims.RaisesAtLoss [Claims.hvEv 0x2121] s.m d) ∧
      (s.m.pow.hotSwap = false → Claims.Raises [Claims.hvEv 0x2121] s.m d))) ∧
    (let on := 20 ≤ x ∧ (s.m.pow.sink = true ∨ (x < 38 ∧ 100 ≤ held) ∨ (s.m.pow.pwrEn = false ∧ s.m.pow.pwrGood = false))
     (on → Completes (.discharge v held) s (fun d => d.pow = { s.m.pow with sink := true } ∧ d = { s.m with pow := d.pow, od := d.od })) ∧
     (¬on → Completes (.discharge v held) s (fun d => d.pow = { s.m.pow with sink := false } ∧ d = { s.m with pow := d.pow, od := d.od })))) ∧
  (∀ (w : W32) (x : ℚ) (s : State), Calm s → coresRun s.m = true → ratOf w = some x →
    (let limit : ℚ := rd s.m OD.powerLimit
     let cap := rd s.m OD.powerCap
     (limit < x → 620 < cap → Completes (.powerLimitWindow w) s (fun d => rd d OD.powerCap = max 620 (cap - 5) ∧ Claims.CapsApplied d ∧
       d.pow = { s.m.pow with powerBelow := 0, powerFell := true, limitArmed := d.pow.limitArmed } ∧ (s.m.pow.powerFell = false → Claims.Raises [Claims.hvEv 0x2122] s.m d) ∧
       (s.m.pow.powerFell = true → Claims.LimitOnly s.m d))) ∧
     (x < limit * (95 / 100) → x ≤ limit → cap < 880 → s.m.pow.powerBelow = 9 → Completes (.powerLimitWindow w) s (fun d =>
       rd d OD.powerCap = min 880 (cap + 5) ∧ Claims.CapsApplied d ∧ d.pow.powerBelow = 0 ∧ Claims.LimitOnly s.m d)) ∧
     (x < limit * (95 / 100) → x ≤ limit → cap < 880 → s.m.pow.powerBelow < 9 → Becomes (.powerLimitWindow w) s
       { s.m with pow := { s.m.pow with powerBelow := s.m.pow.powerBelow + 1 } }) ∧
     (limit * (95 / 100) ≤ x → x ≤ limit → Becomes (.powerLimitWindow w) s { s.m with pow := { s.m.pow with powerBelow := 0 } }))) ∧
  (∀ (cur dem bal : W32) (x y z : ℚ) (s : State), Calm s → ratOf s.m.pow.windowCurrent = some x → ratOf dem = some y → ratOf cur = some z →
    s.m.pow.pwrGood = true → s.m.pow.down = .none →
    (let step : ℚ := ratBits (rd s.m OD.inputSlewLimit) * (5 / 100)
     let kept := fun (d : Dev) => d.pow.windowCurrent = cur ∧ rd d OD.inputCurrent48 = cur.toNat ∧ rd d OD.ballastPower = bal.toNat ∧
       rd d OD.setpointInForce = rd s.m OD.setpointInForce
     (y ≤ x + step → z ≤ x + step → Completes (.governorWindow cur dem bal) s (fun d => kept d ∧ d.pow.rail = s.m.pow.rail ∧ d.ev = s.m.ev)) ∧
     (x + step < y → z ≤ x + step → 625 ≤ s.m.pow.rail → Completes (.governorWindow cur dem bal) s (fun d => kept d ∧
       Claims.Counted OD.governorDips true s.m d ∧ rd d OD.supplyMeasured = d.pow.rail ∧
       (∃ n, 1 ≤ n ∧ 5 * n ≤ s.m.pow.rail - 620 ∧ d.pow.rail = s.m.pow.rail - 5 * n) ∧
       d.pow.loweredTo = some (min d.pow.rail (s.m.pow.loweredTo.getD d.pow.rail)) ∧
       (mfind s.m.ev.lastRaised 0x2130 = none → Claims.Raises [Claims.hvEv 0x2130] s.m d) ∧
       (∀ t, mfind s.m.ev.lastRaised 0x2130 = some t → s.m.tick < t + 1000000 → Claims.LimitOnly s.m d))) ∧
     (y ≤ x + step → x + step < z → Completes (.governorWindow cur dem bal) s (fun d => kept d ∧ Claims.Counted OD.slewExceeded true s.m d ∧
       Claims.Raises [Claims.hvEv 0x2131] s.m d)))) ∧
  (∀ (die : Nat) (s : State), Calm s → die < 6 → (∀ i < 6, rd s.m (OD.phasesShed + i) ≤ 1) → s.m.pow.down = .none →
    Completes (.powerPhaseFault die) s (fun d => rd d (OD.phasesShed + die) = rd s.m (OD.phasesShed + die) + 1 ∧ Claims.CapsApplied d ∧
      d.pow.phaseCap = (if rd s.m (OD.phasesShed + die) = 0 then 880 else 800) ∧
      Claims.Raises [Claims.ev (if die < 4 then 4 + die else 8 + (die - 4)) 0x400A 0 0 []] s.m d)) ∧
  (∀ (die : Nat) (s : State), Calm s → die < 6 → s.m.pow.down = .none → (∀ i < 6, i ≠ die → rd s.m (OD.phasesShed + i) ≤ 1) →
    (rd s.m (OD.phasesShed + die) = 2 → Completes (.powerPhaseFault die) s (fun d => d.pow.phaseCap = 700 ∧ Claims.CapsApplied d ∧
      Claims.Raises [Claims.hvEv 0x2123] s.m d ∧ d.pow.down = .none)) ∧
    (rd s.m (OD.phasesShed + die) = 3 → Completes (.powerPhaseFault die) s (fun d => Claims.GoesOff .orderly s.m d)) ∧
    (rd s.m (OD.phasesShed + die) = Claims.phasesOf die → Becomes (.powerPhaseFault die) s s.m)) ∧
  (∀ (kind : SensorKind) (rs : List W32) (s : State), Calm s → coresRun s.m = true → s.m.pow.failedSensors = [] →
    rs.length = (sensorKeys kind).length →
    Completes (.sensorSample kind rs []) s (fun d => (kind ≠ .laser → d.ev = s.m.ev) ∧ d.mem = s.m.mem ∧
      (∀ x : Nat → ℚ, kind = .railVoltage → (∀ i < 10, (rs[i]?).bind ratOf = some (x i)) → ∃ j < 10, (∀ i < 10, x j ≤ x i) ∧
        rd d OD.supplyMeasured = ⌊x j * 1000⌋.toNat % 2 ^ 16) ∧
      (∀ e a, kind = .laser → e < 8 → rd s.m (OD.laserActive + e) = a → a < 2 → ∀ x, (rs[2 * e + (1 - a)]?).bind ratOf = some x →
        (x < ratBits (rd s.m OD.laserLowThreshold) → e ∈ d.pow.lowStandby ∧ (e ∉ s.m.pow.lowStandby →
          Claims.Raises [Claims.ev (8 + e / 4) 0x3111 e 0 []] s.m d)) ∧
        (ratBits (rd s.m OD.laserLowThreshold) ≤ x → e ∉ d.pow.lowStandby)) ∧ (∀ (i k : Nat) (w : W32), (sensorKeys kind)[i]? = some k → rs[i]? = some w →
      rd d k = w.toNat) ∧ (∀ (x : Nat → ℚ), kind = .temperature → (∀ i < 96, (rs[i]?).bind ratOf = some (x i)) →
        (∃ j < 96, (∀ i < 96, x i ≤ x j) ∧ rd d OD.temperatureMaxPoint = j ∧ some (BitVec.ofNat 32 (rd d OD.temperatureMax)) = rs[j]?) ∧
        ((∃ i < 88, ratBits (rd s.m OD.junctionThrottle) < x i) → d.pow.hotSince = some (s.m.pow.hotSince.getD s.m.tick)))) ∧
    (∀ i k, (sensorKeys kind)[i]? = some k → Completes (.sensorSample kind rs [i]) s (fun d => rd d k = 0x7FC00000 ∧
      d.pow.failedSensors = [k] ∧ Claims.Counted OD.sensorsFailed true s.m d ∧ Claims.Raises [Claims.hvEv 0x400D] s.m d ∧
      (kind = .temperature → readyState s.m OD.readyThermal = RS.ready → Claims.Reports OD.readyThermal RS.degraded 2 s.m d)))) ∧
  (∀ (kind : SensorKind) (rs : List W32) (bad : List Nat) (s : State), Calm s → coresRun s.m = false → Becomes (.sensorSample kind rs bad) s s.m) ∧
  (∀ s : State, Calm s → coresRun s.m = true → s.m.pow.inletSince = none → s.m.pow.flowLowSince = none → Claims.NotCritical s.m →
    (let cap := rd s.m OD.thermalCap
     (∀ t, s.m.pow.hotSince = some t → t + 1000 ≤ s.m.tick → s.m.pow.coolSince = none → 620 < cap → Completes .thermalLimit s (fun d =>
       rd d OD.thermalCap = max 620 (cap - 5) ∧ Claims.CapsApplied d ∧ d.pow.hotSince = some s.m.tick ∧
       (s.m.pow.thermFell = false → Claims.Raises [Claims.hvEv 0x2201] s.m d))) ∧
     (∀ t, s.m.pow.coolSince = some t → t + 10000 ≤ s.m.tick → s.m.pow.hotSince = none → s.m.pow.flowHeld = false → cap < 880 →
       Completes .thermalLimit s (fun d => rd d OD.thermalCap = min 880 (cap + 5) ∧ Claims.CapsApplied d ∧ Claims.LimitOnly s.m d)))) ∧
  (∀ s : State, Calm s → coresRun s.m = true → s.m.pow.hotSince = none → s.m.pow.coolSince = none → Claims.NotCritical s.m →
    (∀ t, s.m.pow.inletSince = some t → t + 1000000 ≤ s.m.tick → s.m.pow.inletRaised = false → s.m.pow.flowLowSince = none →
      Completes .thermalLimit s (fun d => Claims.Raises [Claims.hvEv 0x2203] s.m d ∧ rd d OD.thermalCap = rd s.m OD.thermalCap)) ∧
    (∀ t, s.m.pow.flowLowSince = some t → t + 1000000 ≤ s.m.tick → s.m.pow.flowHeld = false → s.m.pow.inletSince = none →
      Completes .thermalLimit s (fun d => Claims.Raises [Claims.hvEv 0x2204] s.m d ∧ rd d OD.thermalCap = min 700 (rd s.m OD.thermalCap) ∧
        d.pow.flowHeld = true ∧ Claims.CapsApplied d))) ∧
  (∀ s : State, Calm s → coresRun s.m = true → s.m.pow.hotSwap = true → s.m.pow.down = .none → (∃ i < 96, ∃ x,
    measured s.m (OD.temperature + i) = some x ∧ ratBits (rd s.m OD.junctionCritical) ≤ x) → Completes .thermalLimit s (fun d =>
      Claims.GoesOff .critical s.m d ∧ Claims.Raises [Claims.hvEv 0x2202] s.m d)) ∧
  (∀ (w : W32) (s : State), Calm s → coresRun s.m = true → s.m.pow.hotSwap = false → s.m.pow.v48present = true → s.m.pow.down = .none →
    readyState s.m OD.readyPower ≠ RS.failed →
    ((∃ x, ratOf w = some x ∧ 45 / 100 ≤ x ∧ x ≤ 60 / 100) → works s.m OD.readyManagement = true → Completes (.pwrEnAssert w) s (fun d =>
      d.pow.pwrEn = true ∧ d.pow.hotSwap = true ∧ rd d OD.dischargeSinkCurrent = w.toNat ∧ readyState d OD.readyPower = RS.init ∧
      readyReason d OD.readyPower = 1 ∧ d.mem.cells = s.m.mem.cells)) ∧
    ((∀ x, ratOf w = some x → x < 45 / 100 ∨ 60 / 100 < x) → Completes (.pwrEnAssert w) s (fun d => d.pow.hotSwap = false ∧
      Claims.Raises [Claims.hvEv 0x2140] s.m d ∧ Claims.Reports OD.readyPower RS.failed 4 s.m d ∧
      rd d OD.dischargeSinkCurrent = w.toNat))) ∧
  (∀ s : State, Calm s →
    (s.m.pow.hotSwap = true → s.m.pow.down = .none → Completes .pwrEnRelease s (fun d => d.pow.pwrEn = false ∧ Claims.GoesOff .orderly s.m d)) ∧
    (s.m.pow.hotSwap = false → Becomes .pwrEnRelease s { s.m with pow := { s.m.pow with pwrEn := false } }) ∧
    ((s.m.pow.down = .orderly ∨ s.m.pow.down = .critical) → Completes .powerDownComplete s (fun d => Claims.RailsOff d ∧ d.pow.down = .off ∧
      Claims.RaisesAtLoss [Claims.hvEv 0x2141] s.m d ∧ d.hv = s.m.hv ∧ d.sec = s.m.sec)) ∧
    ((s.m.pow.down = .none ∨ s.m.pow.down = .off) → Becomes .powerDownComplete s s.m) ∧
    (s.m.hv.running = true →
      (s.m.pow.pcycReq = false → Completes .powerCycleRequest s (fun d => d.pow = { s.m.pow with pcycReq := true, pcycAt := s.m.tick, pcycLate := false } ∧
        Claims.Raises [Claims.hvEv 0x4008] s.m d ∧ Claims.Counted OD.powerCycleRequests true s.m d)) ∧
      (s.m.pow.pcycReq = true → s.m.pow.pcycLate = false → s.m.pow.pcycAt + 10000000 ≤ s.m.tick → Completes .powerCycleRequest s (fun d =>
        d.pow = { s.m.pow with pcycLate := true } ∧ Claims.Raises [Claims.hvEv 0x2142] s.m d)) ∧
      (s.m.pow.pcycReq = true → s.m.pow.pcycLate = true → s.m.pow.pcycAt + 60000000 ≤ s.m.tick → Completes .powerCycleRequest s (fun d =>
        d.pow = { s.m.pow with pcycAt := s.m.tick } ∧ Claims.Counted OD.powerCycleRequests true s.m d ∧ d.ev = s.m.ev))))

namespace Sys2Proof.Claims

/-- A function, the functions it needs, when it is ready, and when it is then DEGRADED (R628, R632). -/
structure FnRow where
  fn : FunctionKey
  needs : List FunctionKey
  ready : Prop
  degraded : Prop

/-- The functions of R628. An input of an engine counts as good above its threshold (R384). -/
def fnRows (d : Dev) : List FnRow :=
  [⟨OD.readyPower, [OD.readyManagement], d.pow.hotSwap = true, False⟩,
   ⟨OD.readyThermal, [OD.readyPower], True, (∃ x, ratOf (rdF d OD.coolantFlow) = some x ∧ x < 4) ∨
     ∃ k ∈ d.pow.failedSensors, k ∈ sensorKeys .temperature⟩,
   ⟨OD.readyMemory, [OD.readyPower], True, d.mem.llcOff ≠ []⟩,
   ⟨OD.readyHbm, [OD.readyMemory], d.mem.initDue = false, d.mem.lost ≠ none⟩] ++
  (List.range 2).map (fun l => ⟨OD.readyLinkDie + l, [OD.readyPower], True, False⟩) ++
  (List.range 2).map (fun l => ⟨OD.readyDigestEngine + l, [OD.readyLinkDie + l], True, False⟩) ++
  (List.range 8).map (fun e => ⟨OD.readyOpticalEngine + e, [OD.readyLinkDie + e / 4], inputGood d (2 * e) = true ∨ inputGood d (2 * e + 1) = true,
    inputGood d (2 * e) = false ∨ inputGood d (2 * e + 1) = false⟩) ++
  (List.range 32).map (fun p => ⟨OD.readyFabricPort + p, [OD.readyLinkDie + p / 16, OD.readyOpticalEngine + p / 4, OD.readySecurity],
    portUp d p = true, False⟩) ++
  (List.range 2).map (fun e => ⟨OD.readyEdgePort + e, (OD.readyLinkDie + e) :: (if edgeRoleOf d e = 2 then [OD.readyMemory] else []),
    if edgeRoleOf d e = 2 then (cxlPort d.mem e).st = .up else nfld (rd d (OD.edgeLinkState + e)) 2 0 = 2, False⟩) ++
  (List.range 4).map (fun c => ⟨OD.readyCompute + c, [OD.readyMemory, OD.readyThermal], True, ∃ x ∈ d.faults.failedClusters, x / 64 = c⟩) ++
  (List.range 4).map (fun q => ⟨OD.readySequencer + q, [OD.readyCompute + q], True, False⟩) ++
  (List.range 5).map (fun v => ⟨OD.readyService + v, [OD.readySequencer + [0, 1, 2, 2, 3].getD v 0,
    OD.readySequencer + ([0, 1, 2, 2, 3].getD v 0 + 1) % 4, OD.readyHbm], True, False⟩)

/-- The image of a slot passes its check at the start that comes next (R582). -/
def SlotPasses (s : State) (i : Nat) (x : SlotImage) : Prop := x.valid = true ∧ Config.recordGood (4 + i) ((s.log.boot + 1) % 2 ^ 16) = true

/-- The installation record holds installation objects only (R575). -/
def Installed (s : State) : Prop :=
  (∀ x ∈ s.m.installed, x.1 ∈ installationKeys) ∧ ∀ x ∈ s.m.installedBytes, x.1 ∈ installationKeys

def ImagesPass (s : State) : Prop := SlotPasses s 0 s.m.hv.imageA ∧ SlotPasses s 1 s.m.hv.imageB

/-- The tests of a function's start find nothing. -/
def clean : StartTests := ⟨false, [], [], [], []⟩

/-- A function is starting, and every function it needs works (R628). -/
structure Starting (d : Dev) (f : FunctionKey) (needs : List FunctionKey) : Prop where
  init : readyState d f = RS.init
  reason : readyReason d f = 1
  needed : ∀ g ∈ needs, works d g = true

end Sys2Proof.Claims

/-- R58, R253, R259, R570-R573, R596, R624-R630, R633: a waiting function starts once every function it needs works and fails with one of them; READY, DEGRADED or FAILED
under its condition and by what the tests of its start find; HBM lines initialised; the start of Hivan, its log, its records and what a power cycle keeps. -/
def Obligations.StartOfFunctions : Prop :=
  (∀ (s : State), Calm s → ∀ r ∈ Claims.fnRows s.m, readyState s.m r.fn = RS.init →
    (readyReason s.m r.fn = 7 →
      ((∀ g ∈ r.needs, works s.m g = true) → Completes (.functionStart r.fn) s (fun d => Claims.Reports r.fn RS.init 1 s.m d ∧
        d = { s.m with od := d.od, ev := d.ev } ∧ d.ev = s.m.ev)) ∧
      ((∃ g ∈ r.needs, readyState s.m g = RS.failed) → Completes (.functionStart r.fn) s (fun d => Claims.Reports r.fn RS.failed 7 s.m d)) ∧
      ((∀ g ∈ r.needs, readyState s.m g ≠ RS.failed) → (∃ g ∈ r.needs, works s.m g = false) → Becomes (.functionStart r.fn) s s.m)) ∧
    (readyReason s.m r.fn = 1 → (∀ g ∈ r.needs, works s.m g = true) →
      (r.ready → ¬r.degraded → Completes (.functionReady r.fn false Claims.clean) s (fun d => Claims.Reports r.fn RS.ready 0 s.m d)) ∧
      (r.ready → r.degraded → Completes (.functionReady r.fn false Claims.clean) s (fun d => Claims.Reports r.fn RS.degraded 2 s.m d)) ∧
      (¬r.ready → ∀ t, Becomes (.functionReady r.fn false t) s s.m) ∧
      ∀ t, Completes (.functionReady r.fn true t) s (fun d => Claims.Reports r.fn RS.failed 4 s.m d)) ∧
    (readyReason s.m r.fn = 1 → (∃ g ∈ r.needs, works s.m g = false) → ∀ b t, Becomes (.functionReady r.fn b t) s s.m)) ∧
  (∀ (s : State), Calm s → ∀ r ∈ Claims.fnRows s.m, readyState s.m r.fn ≠ RS.init →
    Becomes (.functionStart r.fn) s s.m ∧ ∀ b t, Becomes (.functionReady r.fn b t) s s.m) ∧
  (∀ s : State, Calm s → readyState s.m OD.readyPower = RS.init → readyReason s.m OD.readyPower = 1 → works s.m OD.readyManagement = true →
    s.m.pow.hotSwap = true → s.m.pow.rail = 0 → Completes (.functionReady OD.readyPower false Claims.clean) s (fun d => d.pow.pwrGood = true ∧
      d.pow.rail = 620 ∧ rd d OD.supplyMeasured = 620)) ∧
  (∀ (t : StartTests) (s : State), Calm s → s.m.hv.running = true → s.m.hv.restarting = true → s.m.hv.mailDone = true →
    rd s.m OD.managementMode = 0 → Completes (.functionReady OD.readyManagement false t) s (fun d => d.hv.restarting = false ∧
      Claims.Reports OD.readyManagement RS.ready 0 s.m d ∧ ∀ n x, mfind s.m.hv.slots n = some x →
        (x.doorbell ≠ x.done → ∃ y, mfind d.hv.slots n = some y ∧ y.done = x.doorbell ∧ y.reply = leBytes 8 ST.fenced.toNat ++ leBytes 8 0) ∧
        (x.doorbell = x.done → mfind d.hv.slots n = some x))) ∧
  (∀ (s : State), Calm s →
    (∀ k, Claims.Starting s.m OD.readyMemory [OD.readyPower] → k < 2 ^ 24 → k % 16 < 12 → s.m.mem.llcOff = [] → s.m.mem.llc = [] →
      Completes (.functionReady OD.readyMemory false { Claims.clean with ways := [k] }) s (fun d => d.mem.llcOff = [k] ∧
        Claims.Counted OD.llcWaysDisabled true s.m d ∧ Claims.Raises [Claims.ev (4 + k / 2 ^ 22) 0x2810 (k / 2 ^ 16) 0 []] s.m d ∧
        Claims.Reports OD.readyMemory RS.degraded 2 s.m d)) ∧
    (Claims.Starting s.m OD.readyHbm [OD.readyMemory] → s.m.mem.initDue = false → s.m.mem.lost = none →
      (∀ l < 36 * 384, l ∉ s.m.mem.laneRepairs → Completes (.functionReady OD.readyHbm false { Claims.clean with lanes := [l] }) s
        (fun d => d.mem = { s.m.mem with laneRepairs := s.m.mem.laneRepairs ++ [l] } ∧ Claims.Reports OD.readyHbm RS.ready 0 s.m d)) ∧
      (∀ k < 12, Completes (.functionReady OD.readyHbm false { Claims.clean with trainFailed := [k] }) s (fun d =>
        (∀ i, (rd d OD.stacksPresent).testBit i = ((rd s.m OD.stacksPresent).testBit i && i != k)) ∧
        Claims.Reports OD.readyHbm RS.failed 4 s.m d))) ∧
    (∀ n < 4, ∀ c, c / 64 = n → Claims.Starting s.m (OD.readyCompute + n) [OD.readyMemory, OD.readyThermal] → s.m.faults.failedClusters = [] →
      (2 * n ∉ s.m.faults.usedSpares → (clusterMapOf s.m n).length = 64 →
        Completes (.functionReady (OD.readyCompute + n) false { Claims.clean with clusters := [c] }) s (fun d =>
          Claims.OnSpareCluster c 0 s.m d ∧ Claims.Reports (OD.readyCompute + n) RS.ready 0 s.m d)) ∧
      (2 * n ∈ s.m.faults.usedSpares → 2 * n + 1 ∈ s.m.faults.usedSpares → Claims.ClusterIdle c s.m →
        Completes (.functionReady (OD.readyCompute + n) false { Claims.clean with clusters := [c] }) s (fun d =>
          d.faults.failedClusters = [c] ∧ Claims.Raises [Claims.ev n 0x4004 c 0 []] s.m d ∧
          Claims.Reports (OD.readyCompute + n) RS.degraded 2 s.m d)))) ∧
  (∀ s : State, Calm s →
    (readyState s.m OD.readyHbm = RS.init → readyReason s.m OD.readyHbm = 1 → s.m.mem.initDue = true → Completes .hbmInitialised s (fun d =>
      d.mem.initDue = false ∧ (∀ l, 64 * l < reserveEnd → poisoned d.mem l = false) ∧ (∀ x, x < reserveEnd → cellAt d.mem x = 0) ∧
      (∀ x, reserveEnd ≤ x → cellAt d.mem x = cellAt s.m.mem x))) ∧
    (s.m.mem.initDue = false → Becomes .hbmInitialised s s.m)) ∧
  (∀ (resp : Bytes) (slot : Nat) (mc : Bool) (s : State), s.m.hv.running = true → exec (.hivanStart resp slot mc) s = .next s) ∧
  (∀ (resp : Bytes) (slot : Nat) (s : State), s.m.hv.running = false → s.m.sec.helper = true → resp = s.m.sec.enrolled →
    s.m.sec.marker ≠ .pending → rd s.m OD.tamperState = 0 → rdBytes s.m OD.deviceCertificate = none → Claims.ImagesPass s → Claims.Installed s →
    rd s.m OD.updateState = 0 →
    ∃ d l, exec (.hivanStart resp slot true) s = .next { s with m := d, log := l } ∧ d.hv.running = true ∧ d.hv.sessions = [] ∧
      d.hv.handshakes = [] ∧ readyState d OD.readyManagement = RS.ready ∧ readyState d OD.readySecurity = RS.ready ∧
      (∀ e ∈ s.m.ev.raised, e.2.id = 0x2121 → e ∈ d.ev.raised) ∧ d.sec.factoryOk = Config.recordGood 0 l.boot ∧
      d.sec.ownerOk = Config.recordGood 3 l.boot ∧ rd d OD.plcaNodeId = slot % 32 ∧ d.tick = 0 ∧ rd d OD.tickCount = 0 ∧
      d.sec.identity = some (identityOf resp) ∧ d.sec.sealKey = some (sealKeyOf resp) ∧ d.mem.cells = [] ∧ d.grids = [] ∧ d.blocks = [] ∧
      (∀ c, (ctxOf d c).st = .free) ∧ d.mem.retired = s.m.mem.retired ∧ d.mem.lost = s.m.mem.lost ∧
      d.faults.failedClusters = s.m.faults.failedClusters ∧ d.faults.usedSpares = s.m.faults.usedSpares ∧
      rd d OD.lastResetTier = rd s.m OD.lastResetTier ∧ rd d OD.lastResetCause = rd s.m OD.lastResetCause ∧
      l.ring = [] ∧ l.persisted = s.log.persisted ∧ l.boot = (s.log.boot + 1) % 2 ^ 16 ∧
      (s.log.seqBase = none → l.nextSeq = 0) ∧ (∀ b, s.log.seqBase = some b → l.nextSeq % 2 ^ 32 = 0)) ∧
  (∀ (resp : Bytes) (slot : Nat) (mc : Bool) (s : State), s.m.hv.running = false → resp ≠ s.m.sec.enrolled → Claims.ImagesPass s → Claims.Installed s →
    rd s.m OD.updateState = 0 → ∃ d l, exec (.hivanStart resp slot mc) s = .next { s with m := d, log := l } ∧
      readyState d OD.readySecurity = RS.failed ∧ d.sec.identity = none ∧ d.sec.sealKey = none ∧
      Claims.hvEv 0x6013 ∈ d.ev.raised ∧ d.hv.running = true) ∧
  (∀ (resp : Bytes) (slot : Nat) (s : State), s.m.hv.running = false → Claims.Installed s → s.log.seqBase ≠ none → rd s.m OD.updateState = 0 →
    rd s.m OD.activeSlot = 0 → ¬Claims.SlotPasses s 0 s.m.hv.imageA → Claims.SlotPasses s 1 s.m.hv.imageB →
    ∃ d l, exec (.hivanStart resp slot true) s = .next { s with m := d, log := l } ∧ d.hv.running = true ∧ rd d OD.activeSlot = 1 ∧
      rd d OD.activeRelease = s.m.hv.imageB.image.release) ∧
  (∀ (resp : Bytes) (slot : Nat) (mc : Bool) (s : State), s.m.hv.running = false → s.m.hv.imageA.valid = false → s.m.hv.imageB.valid = false →
    rd s.m OD.updateState = 0 → ∃ d l, exec (.hivanStart resp slot mc) s = .next { s with m := d, log := l } ∧ d.hv.running = false ∧
      readyState d OD.readyManagement = RS.failed ∧ ∃ r, l.persisted.getLast? = some r ∧ r.event = 0x6012 ∧ r.severity = 4)

namespace Sys2Proof.Claims

/-- Session n is open: a SESSION ID is never zero (R550). -/
def Open (d : Dev) (n : Nat) (x : Session) : Prop := n ≠ 0 ∧ mfind d.hv.sessions n = some x

/-- A Hivan restart has begun (R559): every session closes with reason 4, nothing of compute, memory or the sequencer changes. -/
structure HivanRestarts (d d' : Dev) : Prop where
  restarting : d'.hv.restarting = true ∧ d'.hv.startedAt = d.tick
  ended : d'.hv.handshakes = [] ∧ d'.hv.stages = [] ∧ d'.hv.snaps = [] ∧ d'.hv.cursors = []
  closed : ∀ n x, Open d n x → mfind d'.hv.sessions n = none
  noted : (∃ n x, Open d n x) → Raises [ev 16 0x1102 0 4 []] d d'
  event : Raises [hvEv 0x7005] d d'
  ready : Reports OD.readyManagement RS.init 1 d d'
  others : d'.mem = d.mem ∧ d'.seq = d.seq ∧ d'.blocks = d.blocks ∧ d'.units = d.units ∧ d'.tw = d.tw ∧ d'.ckpt = d.ckpt

/-- A restarted Hivan stays with the cores that pass, or stops (R531, R532): what a disagreement of the pair does. -/
def Disagrees (mc0 mc1 : Bool) (d d' : Dev) : Prop :=
  Raises [hvEv 0x400C] d d' ∧ Counted OD.lockstepMismatches true d d' ∧
  (mc0 = true → mc1 = true → HivanRestarts d d') ∧
  (mc0 ≠ mc1 → rd d' OD.managementMode = (if mc0 = true then 1 else 2) ∧ d'.hv = d.hv ∧
    (d.hv.restarting = false → Reports OD.readyManagement RS.degraded 2 d d')) ∧
  (mc0 = false → mc1 = false → Reports OD.readyManagement RS.failed 4 d d' ∧ d'.hv.restarting = false)

/-- The management cores are alive: Hivan runs and its function has not failed. -/
def Alive (d : Dev) : Prop := d.hv.running = true ∧ readyState d OD.readyManagement ≠ RS.failed

/-- An entry as the packet of an event makes it (R536-R538): the new record, and the log's next SEQ. -/
structure Logged (source : Nat) (e : Event) (s : State) (l : LogStore) (r : LogRec) : Prop where
  last : l.ring.getLast? = some r
  seq : r.seq = s.log.nextSeq
  next : l.nextSeq = (s.log.nextSeq + 1) % 2 ^ 64
  event : r.event = e.id ∧ r.inst = e.inst ∧ r.detail0 = e.detail0 ∧ r.details = e.details
  origin : r.source = source ∧ r.rep = 0 ∧ r.severity = severityOf e.id
  time : r.time = rd s.m OD.tickCount % 2 ^ 48 ∧ r.boot = s.log.boot ∧ l.boot = s.log.boot

/-- An event whose fields fit its packet (R536). -/
def Fits (e : Event) : Prop := e.id < 2 ^ 16 ∧ e.inst < 2 ^ 12 ∧ e.detail0 < 2 ^ 28 ∧ e.details.length ≤ 15 ∧ ∀ x ∈ e.details, x < 2 ^ 64

/-- The entry is not persisted: its severity is below the threshold (R540). -/
def Low (d : Dev) (e : Event) : Prop := severityOf e.id < rd d OD.persistThreshold

end Sys2Proof.Claims

/-- R531-R533, R536-R542, R555, R559, R635: disagreements of the management pair, the lone core, its watchdog and self test; the next entry of
a source, its severity, its place in ring and persistent log, a repetition; cursors and reads of the log. -/
def Obligations.ManagementCoresAndLog : Prop :=
  (∀ (mc0 mc1 : Bool) (s : State), Calm s → Claims.Alive s.m →
    (rd s.m OD.managementMode = 0 → Completes (.lockstepMismatch mc0 mc1) s (Claims.Disagrees mc0 mc1 s.m) ∧
      Completes (.managementWatchdog mc0 mc1) s (Claims.Disagrees mc0 mc1 s.m) ∧
      Completes (.managementCoreError mc0) s (Claims.Disagrees mc0 mc0 s.m) ∧ Becomes (.simplexSelfTest mc0) s s.m) ∧
    (∀ k < 2, rd s.m OD.managementMode = 1 + k →
      (let pass := if k = 0 then mc0 else mc1
       let lone := fun (p : Bool) (d : Dev) => (p = true → Claims.HivanRestarts s.m d) ∧ (p = false → Claims.Reports OD.readyManagement RS.failed 4 s.m d)
       Completes (.managementWatchdog mc0 mc1) s (lone pass) ∧ Completes (.managementCoreError mc0) s (lone mc0) ∧
       Completes (.simplexSelfTest false) s (fun d => Claims.Reports OD.readyManagement RS.failed 4 s.m d ∧ d.hv.restarting = false) ∧
       Becomes (.simplexSelfTest true) s s.m ∧ Becomes (.lockstepMismatch mc0 mc1) s s.m))) ∧
  (∀ (a b : Bool) (s : State), Calm s → (s.m.hv.running = false ∨ readyState s.m OD.readyManagement = RS.failed) →
    Becomes (.lockstepMismatch a b) s s.m ∧ Becomes (.managementWatchdog a b) s s.m ∧ Becomes (.managementCoreError a) s s.m ∧
    Becomes (.simplexSelfTest a) s s.m) ∧
  (∀ (src : Nat) (e : Event) (rest : List (List W64)) (s : State), coresRun s.m = true → src < 10 → Claims.Fits e →
    (mget Fifo.empty s.m.ev.events src).packets = eventPacket e :: rest →
    ∃ d l r, exec (.logEntry src) s = .next { s with m := d, log := l } ∧ Claims.Logged src e s l r ∧
      (mget Fifo.empty d.ev.events src).packets = rest ∧ d.mem = s.m.mem ∧ d.seq = s.m.seq ∧
      (Claims.Low s.m e → l.persisted = s.log.persisted) ∧
      (¬Claims.Low s.m e → s.log.persistTokens ≠ 0 → l.persisted.getLast? = some r) ∧
      (¬Claims.Low s.m e → s.log.persistTokens = 0 → s.log.persistTick = s.m.tick → l.persisted = s.log.persisted ∧
        Claims.Counted OD.persistDropped true s.m d ∧ (mfind s.m.ev.lastRaised 0x5002 = none → Claims.Raises [Claims.hvEv 0x5002] s.m d))) ∧
  (∀ (e : Event) (pre post : List (Nat × Event)) (s : State), coresRun s.m = true → s.m.ev.raised = pre ++ [(16, e)] ++ post →
    (∀ q ∈ pre, q.1 ≠ 16) →
    (e.inst = 0 → e.details.length ≤ 15 → Claims.Low s.m e → ∃ d l r, exec (.logEntry 16) s = .next { s with m := d, log := l } ∧ Claims.Logged 16 e s l r ∧
      d.ev.raised = pre ++ post) ∧
    (∀ r : LogRec, (e.id = 0x1104 ∨ e.id = 0x6001) → e.inst = 1 → r.event = e.id → r.detail0 = e.detail0 → r.details = e.details →
      s.log.ring = [r] → exec (.logEntry 16) s = .next { s with
        m := { s.m with ev := { s.m.ev with raised := pre ++ post } },
        log := { s.log with ring := [{ r with rep := min 0xFFFF (r.rep + 1) }] } })) ∧
  (∀ (src : Nat) (s : State), (coresRun s.m = false ∨ (10 ≤ src ∧ src ≠ 16)) → exec (.logEntry src) s = .next s) ∧
  (∀ x ∈ [(0x4008, 4), (0x7007, 4), (0x2121, 3), (0x400B, 3), (0x1104, 2), (0x4001, 2), (0x4002, 1), (0x7005, 1), (0x1101, 0), (0x2001, 0)],
    severityOf x.1 = x.2) ∧
  (∀ (p : Path) (n : Nat) (s : State), Calm s → n < 2 ^ 64 → Claims.Accepted s.m p OD.logReadCursor .rw →
    Completes (.logReadCursorWrite p n) s (fun d => d.hv.replyStatus = ST.ok ∧ cursorOf d (clientOf p) = n ∧
      (∀ c, c ≠ clientOf p → cursorOf d c = cursorOf s.m c) ∧ d.od = s.m.od)) ∧
  (∀ (n : Nat) (s : State) (r : LogRec), Calm s → n < 256 → coresRun s.m = true → s.log.ring = [r] → r.size ≤ 16384 →
    (let who := Client.slot n
     (cursorOf s.m who ≤ r.seq → Completes (.logReadData (.slot n) 0 0) s (fun d => d.hv.replyStatus = ST.ok ∧
       d.hv.reply = leBytes 8 (r.bytes.length * 2 ^ 32) ++ leBytes 8 (r.bytes.length * 2 ^ 32) ++ r.bytes ∧
       cursorOf d who = r.seq + 1 ∧ d.ev.readTo = max s.m.ev.readTo (r.seq + 1))) ∧
     (r.seq < cursorOf s.m who → Completes (.logReadData (.slot n) 0 0) s (fun d => d.hv.replyStatus = ST.ok ∧
       d.hv.reply = leBytes 8 0 ++ leBytes 8 0 ∧ cursorOf d who = cursorOf s.m who ∧ d.ev.readTo = s.m.ev.readTo))))

namespace Sys2Proof.Claims

/-- The slot that is not active: 0 A, 1 B. -/
def inactive (d : Dev) : Nat := 1 - rd d OD.activeSlot % 2
def imageAt (d : Dev) (i : Nat) : SlotImage := if i = 0 then d.hv.imageA else d.hv.imageB

/-- An update command that is accepted and done at once, after which Hivan does not restart. -/
def Updated (c : Instr) (s : State) (p : Path) (st : Status) (P : Dev → Prop) : Prop :=
  Commanded c s p OD.updateCommand .rws st (fun d => d.hv.restarting = s.m.hv.restarting ∧ P d)

/-- An update command that ends in a Hivan restart, answered first. -/
def RestartsBy (c : Instr) (s : State) (p : Path) (P : Dev → Prop) : Prop :=
  Accepted s.m p OD.updateCommand .rws → commandPending s.m OD.updateCommand = false →
    Completes c s (fun d => d.hv.replyStatus = ST.ok ∧ commandStatus d OD.updateCommand = ST.ok.toNat ∧ HivanRestarts s.m d ∧ P d)

end Sys2Proof.Claims

/-- R556-R559, R582: the update from BEGIN to STAGED, its trial, confirmation, abort and rollback, each command in the states that take it. -/
def Obligations.FirmwareUpdate : Prop :=
  (∀ (p : Path) (s : State), Calm s → s.m.hv.update.due = false →
    (let u := rd s.m OD.updateState
     let o := Claims.inactive s.m
     let no := fun c st => Claims.TurnedAway c s p OD.updateCommand .rws st []
     (∀ n, 1 ≤ n → n ≤ 16777216 → (u = 0 ∨ u = 4) → Claims.Updated (.begin p n false) s p ST.pending (fun d => rd d OD.updateState = 1 ∧
       rd d OD.updateReceived = 0 ∧ (Claims.imageAt d o).valid = false ∧ Claims.imageAt d (1 - o) = Claims.imageAt s.m (1 - o) ∧
       d.hv.update = ⟨p, n, [], false, 0, 0, false⟩)) ∧
     (∀ n, (n = 0 ∨ 16777216 < n) → no (.begin p n false) ST.invalid) ∧
     (∀ n, 1 ≤ n → n ≤ 16777216 → u ≠ 0 → u ≠ 4 → no (.begin p n false) ST.state) ∧
     (u = 2 → rd s.m OD.updateReceived = s.m.hv.update.length → Claims.Updated (.verify p false) s p ST.pending (fun d =>
       rd d OD.updateState = 3 ∧ d.hv.update = s.m.hv.update)) ∧
     ((u ≠ 2 ∨ rd s.m OD.updateReceived ≠ s.m.hv.update.length) → no (.verify p false) ST.state) ∧
     (u = 4 → Claims.Updated (.activate p false false) s p ST.ok (fun d => rd d OD.updateState = 4 ∧
       d.hv.update = { s.m.hv.update with marked := true })) ∧
     (u = 4 → (Claims.imageAt s.m o).image.minSeqRelease ≤ rd s.m OD.sequencerRelease → Claims.RestartsBy (.activate p true false) s p
       (fun d => rd d OD.updateState = 5 ∧ d.hv.update.trialSince = s.m.tick ∧ rd d OD.activeSlot = rd s.m OD.activeSlot)) ∧
     (u = 4 → rd s.m OD.sequencerRelease < (Claims.imageAt s.m o).image.minSeqRelease → no (.activate p true false) ST.state) ∧
     (u ≠ 4 → ∀ now, no (.activate p now false) ST.state) ∧
     (u = 5 → Claims.Updated (.confirm p false) s p ST.ok (fun d => rd d OD.activeSlot = o ∧ rd d OD.updateState = 0 ∧
       rd d OD.activeRelease = (Claims.imageAt s.m o).image.release ∧ rd d OD.minSecurityVersion = (Claims.imageAt s.m o).image.secVersion ∧
       Claims.Raises [Claims.hvEv 0x7003] s.m d)) ∧
     (u ≠ 5 → no (.confirm p false) ST.state) ∧
     ((u = 2 ∨ u = 4) → Claims.Updated (.abort p false) s p ST.ok (fun d => rd d OD.updateState = 0 ∧ (Claims.imageAt d o).valid = false)) ∧
     (u = 5 → Claims.RestartsBy (.abort p false) s p (fun d => rd d OD.updateState = 0 ∧ (Claims.imageAt d o).valid = false ∧
       rd d OD.activeSlot = rd s.m OD.activeSlot ∧ Claims.Raises [Claims.hvEv 0x7004] s.m d)) ∧
     (u ≠ 2 → u ≠ 4 → u ≠ 5 → no (.abort p false) ST.state) ∧
     ((u = 0 ∨ (u = 4 ∧ s.m.hv.update.marked = false)) → Claims.RestartsBy (.hivanRestart p false) s p (fun d => rd d OD.updateState = u)) ∧
     (u ≠ 0 → u ≠ 4 → u ≠ 5 → no (.hivanRestart p false) ST.state) ∧
     (∀ (off : Nat) (v : Bytes), v ≠ [] → 8 + v.length ≤ 1048576 →
       (let cmd := Instr.updateDataWrite p off v
        let n := rd s.m OD.updateReceived
        (off = n → u = 2 → s.m.hv.update.session = p → n + v.length ≤ s.m.hv.update.length → Claims.Accepted s.m p OD.updateData .wo →
          Completes cmd s (fun d => d.hv.replyStatus = ST.ok ∧ rd d OD.updateReceived = n + v.length ∧
            d.hv.update = { s.m.hv.update with bytes := s.m.hv.update.bytes ++ v })) ∧
        (off ≠ n → Claims.TurnedAway cmd s p OD.updateData .wo ST.invalid []) ∧
        (off = n → (u ≠ 2 ∨ s.m.hv.update.session ≠ p) → Claims.TurnedAway cmd s p OD.updateData .wo ST.state []))))) ∧
  (∀ s : State, Calm s → coresRun s.m = true →
    (rd s.m OD.updateState = 1 → Completes .eraseDone s (fun d => rd d OD.updateState = 2 ∧
      commandStatus d OD.updateCommand = ST.ok.toNat ∧ d = { s.m with od := d.od })) ∧
    (rd s.m OD.updateState ≠ 1 → Becomes .eraseDone s s.m) ∧
    (∀ i : Image, rd s.m OD.updateState = 3 →
      (let good := imageGood i = true ∧ i.body.length ≤ s.m.hv.update.length ∧ rd s.m OD.minSecurityVersion ≤ i.secVersion
       (good → Completes (.verifyDone i) s (fun d => rd d OD.updateState = 4 ∧ Claims.imageAt d (Claims.inactive s.m) = ⟨true, i⟩ ∧
         commandStatus d OD.updateCommand = ST.ok.toNat ∧ Claims.Raises [Claims.hvEv 0x7001] s.m d)) ∧
       (¬good → Completes (.verifyDone i) s (fun d => rd d OD.updateState = 0 ∧ (Claims.imageAt d (Claims.inactive s.m)).valid = false ∧
         commandStatus d OD.updateCommand = ST.image.toNat ∧ Claims.Raises [Claims.hvEv 0x7002] s.m d)))) ∧
    (∀ i, rd s.m OD.updateState ≠ 3 → Becomes (.verifyDone i) s s.m)) ∧
  (∀ s : State, Calm s → Claims.Alive s.m →
    (rd s.m OD.updateState = 5 → s.m.hv.update.trialSince + rd s.m OD.trialWindow * 1000000 ≤ s.m.tick → Completes .trialRollback s (fun d =>
      rd d OD.updateState = 0 ∧ Claims.HivanRestarts s.m d ∧ rd d OD.activeSlot = rd s.m OD.activeSlot ∧
      Claims.Raises [Claims.hvEv 0x7004] s.m d)) ∧
    ((rd s.m OD.updateState ≠ 5 ∨ (s.m.tick < s.m.hv.update.trialSince + rd s.m OD.trialWindow * 1000000 ∧ s.m.hv.restarting = false)) →
      Becomes .trialRollback s s.m))

namespace Sys2Proof.Claims

/-- A frame of one fragment without a tag, and the same tagged under a key (R544, R550). -/
def plain (type session seq : Nat) (payload : Bytes) : Frame := ⟨1, type, 0, 0, false, false, session, seq, payload, []⟩
def tagged (key : Bytes) (type session seq : Nat) (payload : Bytes) : Frame :=
  let f : Frame := ⟨1, type, 0, 0, true, false, session, seq, payload, []⟩
  { f with tag := frameTag key f }

/-- A short frame leaves on the field network, or in the mailbox with MSI-X vector 0 (R553). -/
def Leaves (mailbox : Bool) (f : Frame) (d d' : Dev) : Prop :=
  if mailbox = true then d'.sent = d.sent ++ [.msix 0] ∧ d'.hv.mailDone = true ∧ d'.hv.mailReply = frameBytes f
  else d'.sent = d.sent ++ [.frame f]

/-- SEQ of a reply without a session: that of the frame in the mailbox; 0 on the field network (log entry 16). -/
def seqOf (mailbox : Bool) (d : Dev) : Nat := if mailbox = true then (d.hv.mailFrame.map (fun f => f.seq)).getD 0 else 0

/-- A refusal with REFUSE and a status (R549, R550). -/
def Refuses (mailbox : Bool) (n : Nat) (st : Status) (d d' : Dev) : Prop :=
  Leaves mailbox (plain 0x3F n (seqOf mailbox d) (leBytes 2 st.toNat)) d d'

/-- A message on the field network, in one or more fragments. -/
def Message (type : Nat) (payload : Bytes) (d d' : Dev) : Prop :=
  ∃ fs : List Frame, d'.sent = d.sent ++ fs.map Msg.frame ∧ fs.flatMap (fun f => f.payload) = payload ∧
    ∀ f ∈ fs, f.type = type ∧ f.session = 0 ∧ f.payload.length ≤ 1184 ∧ f.tagged = false

/-- Why a HELLO is refused (R549, R584, R591). -/
def helloRefusal (d : Dev) (slot : Nat) : Status :=
  if d.sec.identity = none then ST.state
  else if rd d OD.tamperState = 2 ∧ (rd d OD.recoverySlots).testBit slot = false then ST.state
  else if (rdBytes d (OD.operatorKey + slot)).getD [] = [] then ST.access
  else if 2 ≤ d.hv.handshakes.length then ST.state else ST.ok

/-- A frame that is discarded and counted, with no reply but the mailbox's DONE with length zero (R544; log entry 27). -/
def Discarded (mailbox : Bool) (counter : Nat) (d d' : Dev) : Prop :=
  Counted counter true d d' ∧ d'.hv.handshakes = d.hv.handshakes ∧ d'.hv.sessions = d.hv.sessions ∧ d'.ev = d.ev ∧
  (mailbox = false → d'.sent = d.sent) ∧ (mailbox = true → d'.hv.mailDone = true ∧ d'.hv.mailReply = [])

/-- A session is closed with a reason; every other stays (R550). -/
structure Closes (n reason : Nat) (d d' : Dev) : Prop where
  gone : mfind d'.hv.sessions n = none
  others : ∀ k, k ≠ n → mfind d'.hv.sessions k = mfind d.hv.sessions k
  event : Raises [ev 16 0x1102 0 reason []] d d'
  held : ∀ x ∈ d'.hv.stages, x.client ≠ .session n
  snaps : ∀ x ∈ d'.hv.snaps, x.client ≠ .session n
  nonces : ∀ x ∈ d'.sec.nonces, x.1 ≠ .session n
  update : (d.hv.update.session = .field n ∨ d.hv.update.session = .mailbox n) → (rd d OD.updateState = 1 ∨ rd d OD.updateState = 2) →
    rd d' OD.updateState = 0
  kept : d.hv.update.session ≠ .field n → d.hv.update.session ≠ .mailbox n → rd d' OD.updateState = rd d OD.updateState

end Sys2Proof.Claims

/-- R549, R550, R584, R591: HELLO and its reply over the transcript T, FINISH under K_c and the operator's signature, the session with its
keys, what is refused, counted or dropped after 5 s. -/
def Sys2Proof.Claims.SessionHandshakePart : Prop :=
  (∀ (mailbox : Bool) (slot : Nat) (nonce key : Bytes) (s : State), Calm s → coresRun s.m = true →
    (let cmd := Instr.hello mailbox slot nonce key
     let good := slot < 16 ∧ nonce.length = 32 ∧ key.length = 1568
     (good → Claims.helloRefusal s.m slot ≠ ST.ok → Completes cmd s (fun d =>
       Claims.Refuses mailbox 0 (Claims.helloRefusal s.m slot) s.m d ∧ Claims.Raises [Claims.hvEv 0x1103] s.m d ∧
       d.hv.handshakes = s.m.hv.handshakes)) ∧
     (good → Claims.helloRefusal s.m slot = ST.ok → Completes cmd s (fun d =>
       (let body := Config.random s.m.free 32 ++ Config.kemCipher key (s.m.free + 1)
        let t := Config.sha3_512 (leBytes 8 slot ++ nonce ++ key ++ body)
        let sig := Config.mldsaSign (s.m.sec.identity.getD []) [] t
        mfind d.hv.handshakes s.m.hv.nextHs = some ⟨slot, mailbox, t, sig,
          Config.kmac256 (Config.kemSecret key (s.m.free + 1)) t 512 (ascii "HDP1 session"), s.m.tick⟩ ∧
        (∀ k, k ≠ s.m.hv.nextHs → mfind d.hv.handshakes k = mfind s.m.hv.handshakes k) ∧ d.hv.sessions = s.m.hv.sessions ∧
        (mailbox = false → Claims.Message 0x02 (body ++ sig) s.m d) ∧
        (mailbox = true → Claims.Leaves true (Claims.plain 0x02 0 (Claims.seqOf true s.m) (body ++ sig)) s.m d)))) ∧
     (¬good → Completes cmd s (Claims.Discarded mailbox OD.requestsDiscarded s.m)))) ∧
  (∀ (mailbox : Bool) (hs : Nat) (signature tag : Bytes) (s : State) (h : Handshake), Calm s → coresRun s.m = true →
    mfind s.m.hv.handshakes hs = some h →
    (let cmd := Instr.finish mailbox hs signature tag
     let right := tag = (Claims.tagged (h.keys.take 32) 0x03 0 0 signature).tag
     let signed := Config.mldsaVerify ((rdBytes s.m (OD.operatorKey + h.keySlot)).getD []) []
       (Config.sha3_512 (h.transcript ++ h.signature)) signature = true
     let may := rd s.m OD.tamperState = 2 → (rd s.m OD.recoverySlots).testBit h.keySlot = true
     let refused := fun st => Completes cmd s (fun d => Claims.Refuses mailbox 0 st s.m d ∧ Claims.Raises [Claims.hvEv 0x1103] s.m d ∧
       mfind d.hv.handshakes hs = none ∧ d.hv.sessions = s.m.hv.sessions)
     (right → signed → may → s.m.hv.sessions.length < 8 → rd s.m OD.sessionLimit = 8 → Completes cmd s (fun d => ∃ n, n ≠ 0 ∧ n < 2 ^ 32 ∧
       mfind s.m.hv.sessions n = none ∧
       mfind d.hv.sessions n = some ⟨h.keySlot, mailbox, h.keys.take 32, h.keys.drop 32, 0, [], s.m.tick, 0, none, 1⟩ ∧
       (∀ k, k ≠ n → mfind d.hv.sessions k = mfind s.m.hv.sessions k) ∧ mfind d.hv.handshakes hs = none ∧
       Claims.Raises [Claims.hvEv 0x1101] s.m d ∧
       Claims.Leaves mailbox (Claims.tagged (h.keys.drop 32) 0x04 0 (Claims.seqOf mailbox s.m) (leBytes 8 n)) s.m d)) ∧
     (right → ¬may → refused ST.state) ∧ (right → may → ¬signed → refused ST.access) ∧
     (right → may → signed → rd s.m OD.sessionLimit ≤ s.m.hv.sessions.length → refused ST.state) ∧
     (¬right → Completes cmd s (Claims.Discarded mailbox OD.tagFailures s.m)))) ∧
  (∀ (hs : Nat) (s : State) (h : Handshake), Calm s → mfind s.m.hv.handshakes hs = some h →
    (h.since + 5000000 ≤ s.m.tick → Completes (.handshakeTimeout hs) s (fun d => mfind d.hv.handshakes hs = none ∧
      d = { s.m with hv := { s.m.hv with handshakes := d.hv.handshakes } } ∧
      ∀ k, k ≠ hs → mfind d.hv.handshakes k = mfind s.m.hv.handshakes k)) ∧
    (s.m.tick < h.since + 5000000 → Becomes (.handshakeTimeout hs) s s.m)) ∧
  (∀ (mailbox : Bool) (hs : Nat) (a b : Bytes) (s : State), Calm s → coresRun s.m = true → mfind s.m.hv.handshakes hs = none →
    Becomes (.handshakeTimeout hs) s s.m ∧ Completes (.finish mailbox hs a b) s (Claims.Discarded mailbox OD.requestsDiscarded s.m))

/-- R550, R544, R548, R557: how a session closes (CLOSE, the idle limit, the sixteenth tag failure in succession), a frame that names no
session, and a message whose rest never comes. -/
def Sys2Proof.Claims.SessionsClosePart : Prop :=
  (∀ (n : Nat) (s : State) (x : Session), Calm s → coresRun s.m = true → Claims.Open s.m n x →
    Completes (.close n) s (Claims.Closes n 1 s.m) ∧
    (x.lastFrame + rd s.m OD.sessionIdle * 1000000 ≤ s.m.tick → Completes (.sessionIdleExpiry n) s (Claims.Closes n 2 s.m)) ∧
    (s.m.tick < x.lastFrame + rd s.m OD.sessionIdle * 1000000 → Becomes (.sessionIdleExpiry n) s s.m) ∧
    (15 ≤ x.tagFails → Completes (.tagFailure n) s (fun d => Claims.Closes n 3 s.m d ∧ Claims.Counted OD.tagFailures true s.m d)) ∧
    (x.tagFails < 15 → Completes (.tagFailure n) s (fun d => Claims.Counted OD.tagFailures true s.m d ∧
      mfind d.hv.sessions n = some { x with tagFails := x.tagFails + 1 } ∧ d.ev = s.m.ev ∧ d.mem = s.m.mem ∧
      ∀ k, k ≠ n → mfind d.hv.sessions k = mfind s.m.hv.sessions k)) ∧
    (∀ seq, Completes (.fragmentTimeout n seq) s (fun d => d = { s.m with hv := { s.m.hv with sessions := d.hv.sessions } } ∧
      mfind d.hv.sessions n = some { x with lastFrame := max x.lastFrame (s.m.tick - 200000) } ∧
      ∀ k, k ≠ n → mfind d.hv.sessions k = mfind s.m.hv.sessions k))) ∧
  (∀ (n seq : Nat) (s : State), Calm s → coresRun s.m = true → n ≠ 0 → mfind s.m.hv.sessions n = none →
    (let no := fun c => Completes c s (fun d => Claims.Refuses false n ST.noSession s.m d ∧ d = { s.m with sent := d.sent })
     no (.close n) ∧ no (.tagFailure n) ∧ Becomes (.sessionIdleExpiry n) s s.m ∧ Becomes (.fragmentTimeout n seq) s s.m))

namespace Sys2Proof.Claims

/-- The payload of a READ of a whole object (R545). -/
def readOf (index sub : Nat) : Bytes := leBytes 8 (1 + index * 2 ^ 16 + sub * 2 ^ 32) ++ leBytes 8 0

/-- A scalar object that may be read. -/
def Readable (index sub : Nat) : Prop :=
  1 ≤ sub ∧ sub < 256 ∧ index < 65536 ∧ ∃ o, objDef (256 * index + sub) = some o ∧ o.type.scalar = true ∧ o.access ≠ .wo

/-- An identity or readiness object. -/
def Named (index : Nat) : Prop := (0x1000 ≤ index ∧ index ≤ 0x10FF) ∨ (0x2000 ≤ index ∧ index ≤ 0x20FF)

end Sys2Proof.Claims

/-- R543, R547, R550-R553, R617: a doorbell of an in-band slot, a frame in the host mailbox by its session, tag and SEQ, the service
interface, and what the module answers to the hosts of its segment. -/
def Obligations.PathsAndFrames : Prop :=
  (∀ (n : Nat) (sq : Bool) (seq : W64) (s : State), Calm s → n < 256 →
    (let x := slotAt s.m n
     let cmd := Instr.slotDoorbell n sq seq
     (n < 4 → sq = false → Completes cmd s (fun d => d.hv.busStatus = ST.access ∧ d.hv.slots = s.m.hv.slots ∧ d.od = s.m.od)) ∧
     ((4 ≤ n ∨ sq = true) → x.done ≠ x.doorbell → Completes cmd s (fun d => d.hv.busStatus = ST.ok ∧ d.hv.slots = s.m.hv.slots ∧
       Claims.Counted OD.requestsDiscarded true s.m d)) ∧
     ((4 ≤ n ∨ sq = true) → x.done = x.doorbell → seq ≠ 0 → coresRun s.m = false → Completes cmd s (fun d => d.hv.busStatus = ST.ok ∧
       slotAt d n = { x with doorbell := seq.toNat, pending := true } ∧ ∀ k, k ≠ n → slotAt d k = slotAt s.m k)) ∧
     (∀ index sub, (4 ≤ n ∨ sq = true) → x.done = x.doorbell → seq ≠ 0 → coresRun s.m = true → Claims.Readable index sub →
       bufRead x.request 0 16 = Claims.readOf index sub → Completes cmd s (fun d => d.hv.busStatus = ST.ok ∧ d.hv.replyStatus = ST.ok ∧
         slotAt d n = { x with doorbell := seq.toNat, done := seq.toNat, reply := d.hv.reply, pending := false } ∧
         ∀ k, k ≠ n → slotAt d k = slotAt s.m k)))) ∧
  (∀ (f : Frame) (s : State), Calm s →
    (let cmd := Instr.mailboxDoorbell (frameBytes f).length f
     let whole := f.version = 1 ∧ f.reserved = false ∧ f.fragLast = 0 ∧ f.fragIdx = 0 ∧ f.payload.length ≤ 32656 ∧
       f.tag.length = (if f.tagged then 32 else 0)
     let n := f.session
     ((s.m.hv.mailDone = false ∨ s.m.hv.running = false) → Completes cmd s (fun d =>
       d = { s.m with hv := { s.m.hv with mailIn := bufWrite s.m.hv.mailIn 0 (frameBytes f) } })) ∧
     (s.m.hv.mailDone = true → coresRun s.m = true →
       (¬whole → Completes cmd s (Claims.Discarded true OD.requestsDiscarded s.m)) ∧
       (whole → f.type = 0x10 → n ≠ 0 →
         (mfind s.m.hv.sessions n = none → Completes cmd s (fun d => d.hv.mailDone = true ∧ d.hv.sessions = s.m.hv.sessions ∧
           d.hv.mailReply = frameBytes (Claims.plain 0x3F n f.seq (leBytes 2 ST.noSession.toNat)))) ∧
         (∀ x, mfind s.m.hv.sessions n = some x →
           (f.tagged = true → frameTag x.keyIn f = f.tag →
             (f.seq = (x.lastSeq + 1) % 2 ^ 32 → ∀ sev < 16, f.payload = leBytes 8 (4 + sev * 2 ^ 40) ++ leBytes 8 0 → Completes cmd s (fun d =>
               (mfind d.hv.sessions n = some { x with lastSeq := f.seq, lastReply := leBytes 8 0 ++ leBytes 8 0, lastFrame := s.m.tick,
                                                      tagFails := 0, notices := if sev = 15 then none else some sev }) ∧
               d.hv.mailDone = true ∧ d.sent = s.m.sent ++ [.msix 0] ∧
               d.hv.mailReply = frameBytes (Claims.tagged x.keyOut 0x11 n f.seq (leBytes 8 0 ++ leBytes 8 0)))) ∧
             (f.seq = x.lastSeq → x.lastReply ≠ [] → Completes cmd s (fun d => d.hv.mailDone = true ∧
               d.hv.mailReply = frameBytes (Claims.tagged x.keyOut 0x11 n f.seq x.lastReply) ∧ d.od = s.m.od ∧ d.ev = s.m.ev)) ∧
             (f.seq ≠ x.lastSeq → f.seq ≠ (x.lastSeq + 1) % 2 ^ 32 → Completes cmd s (fun d => d.hv.mailReply = [] ∧
               Claims.Counted OD.requestsDiscarded true s.m d))) ∧
           ((f.tagged = false ∨ frameTag x.keyIn f ≠ f.tag) → x.tagFails < 15 → Completes cmd s (fun d =>
             Claims.Counted OD.tagFailures true s.m d ∧ (mfind d.hv.sessions n = some { x with tagFails := x.tagFails + 1 }) ∧
             d.hv.mailReply = [] ∧ d.hv.mailDone = true))))))) ∧
  (∀ (f : Frame) (s : State), Calm s → (s.m.hv.running = true ∨ s.m.hv.stoppedFailed = true) → s.m.pow.svcEn = true →
    (let cmd := Instr.serviceInterfaceFrame f
     let whole := f.version = 1 ∧ f.reserved = false ∧ f.fragLast = 0 ∧ f.fragIdx = 0 ∧ f.payload.length ≤ 4096 ∧ f.session = 0 ∧ f.tagged = false
     let answered := fun st => Completes cmd s (fun d => d.hv.replyStatus = st ∧ d.od = s.m.od ∧
       d.sent = s.m.sent ++ [.frame (Claims.plain 0x11 0 f.seq d.hv.reply)])
     (¬whole → Completes cmd s (fun d => Claims.Counted OD.requestsDiscarded true s.m d ∧ d = { s.m with od := d.od })) ∧
     (whole → (f.type ≠ 0x10 ∨ nfld (leNat (f.payload.take 8)) 3 0 ≠ 1) → answered ST.access) ∧
     (∀ index sub, whole → f.type = 0x10 → f.payload = Claims.readOf index sub → Claims.Readable index sub →
       (Claims.Named index → answered ST.ok) ∧ (¬Claims.Named index → answered ST.access)))) ∧
  (∀ (up : Bool) (a payload : Bytes) (s : State), Calm s →
    Becomes (.plcaStatusChange up) s { s.m with hv := { s.m.hv with plcaUp := up } } ∧
    (let ours := coresRun s.m = true ∧ rd s.m OD.plcaNodeId ≠ 0 ∧
       (a = linkLocal ∨ (a = rdFull s.m OD.staticAddress ∧ ∃ b ∈ a, b ≠ 0))
     (ours → Becomes (.icmpv6EchoRequest a payload) s { s.m with sent := s.m.sent ++ [.echoReply payload] } ∧
       Becomes (.neighbourSolicitation a) s { s.m with sent := s.m.sent ++ [.neighbourAdvert a] }) ∧
     (¬ours → Becomes (.icmpv6EchoRequest a payload) s s.m ∧ Becomes (.neighbourSolicitation a) s s.m)))

/-- R544, R548-R550, R557, R584, R591: the handshake, and every way in which a session closes. -/
def Obligations.Sessions : Prop := Claims.SessionHandshakePart ∧ Claims.SessionsClosePart

namespace Sys2Proof.Claims

/-- Only Hivan's own state and what is sent may differ. -/
def Untouched (d d' : Dev) : Prop := d' = { d with hv := d'.hv, sent := d'.sent }

/-- The request is answered with a status and takes no effect. -/
def Turned (c : Instr) (s : State) (st : Status) : Prop := Completes c s (fun d => d.hv.replyStatus = st ∧ Untouched s.m d)

/-- A READ or a staged piece that the present state does not permit: nothing but the count and the event of the refusal (R12, R555). -/
def OutOfState (c : Instr) (s : State) (key : Nat) : Prop :=
  Completes c s (fun d => d.hv.replyStatus = ST.state ∧ Replied s.m d ∧ d.odBytes = s.m.odBytes ∧
    (∀ k, k ≠ OD.stateRefusals → rd d k = rd s.m k) ∧ Counted OD.stateRefusals true s.m d ∧
    ∃ e : Event, e.id = 0x1104 ∧ e.detail0 = key ∧ d.ev.raised = s.m.ev.raised ++ [(16, e)])

/-- A command written to a command object, with any operands (a, b, k, l are numbers, o a flag, w1 and w2 words). -/
def CommandRow (p : Path) (a b k l : Nat) (o : Bool) (w1 w2 : W64) (r : Bool) (c : Instr) : Prop :=
  c ∈ [.create p a r, .teardown p a r, .localRegionWrite p a b w1 w2 r, .insert p w1 w2 r, .remove p w1 w2 r, .setrights p w1 w2 r,
   .removeContext p a r, .load p a r, .start p a r, .stop p r, .unload p r, .admitGroup p a b k l r, .release p a r, .configure p a b r,
   .partner p a o r, .unpair p r, .refresh p r, .restore p o a b none r, .takeover p a r, .engineReset p a r, .clusterMove p a r,
   .kickTurn p r, .fullRestart p r, .begin p a r, .verify p r, .activate p o r, .confirm p r, .abort p r, .hivanRestart p r, .clear p r,
   .unlock p r]

/-- Any other request. -/
def RequestRow (p : Path) (a b k l : Nat) (o r : Bool) (es : List (W64 × W64)) (v : Bytes) (c : Instr) : Prop :=
  c ∈ [.supplySetpointWrite p a, .deviceNumberWrite p a, .fttBulkInsert p es, .logReadCursorWrite p a, .logReadData p a b,
   .updateDataWrite p a v, .ownerRecordInstall p v, .attestNonceWrite p v, .attestReportRead p a b, .read p a b k l r,
   .write p a b k o r v, .describe p a b r, .subscribe p a r, .registerWrite p a b v]

end Sys2Proof.Claims

/-- R546, R550, R551, R568: a request of any row is not answered, or refused for its session, its rights or its reserved fields, and then
takes no effect. -/
def Obligations.RequestChecks : Prop :=
  ∀ (p : Path) (a b k l : Nat) (o r : Bool) (w1 w2 : W64) (es : List (W64 × W64)) (v : Bytes) (s : State), Calm s →
    s.m.hv.update.due = false →
    (∀ c, (Claims.CommandRow p a b k l o w1 w2 r c ∨ Claims.RequestRow p a b k l o r es v c) →
      (answers s.m p = false → Becomes c s s.m) ∧
      (∀ n mailbox, p = (if mailbox = true then Path.mailbox n else Path.field n) → answers s.m p = true → n ≠ 0 →
        mfind s.m.hv.sessions n = none → Completes c s (fun d => Claims.Refuses mailbox n ST.noSession s.m d ∧ Claims.Untouched s.m d))) ∧
    (∀ c, Claims.CommandRow p a b k l o w1 w2 r c → answers s.m p = true → unknownSession s.m p = false →
      ((∀ n, p = .slot n → 4 ≤ n) → pathSession p = 0 → Claims.Turned c s ST.access) ∧
      (r = true → (pathSession p ≠ 0 ∨ ∃ n < 4, p = .slot n) → Claims.Turned c s ST.invalid)) ∧
    (∀ value, answers s.m p = false → Becomes (.topologyWrite p a b k) s s.m ∧ Becomes (.installationWrite p a b value) s s.m)

namespace Sys2Proof.Claims

/-- A path may read an object that is not write-only (R551). -/
def MayRead (d : Dev) (p : Path) (index : Nat) : Prop := authed d p = true ∨ Named index ∨ ∃ n, p = .slot n

/-- A reply of ST_OK with bytes of an object (R545). -/
def Bytes_ (size offset : Nat) (b : Bytes) : Bytes := leBytes 8 (size * 2 ^ 32) ++ leBytes 8 (offset + b.length * 2 ^ 32) ++ b

/-- Objects that read what the module counts and holds elsewhere. -/
def shown (p : Path) (s : State) : List (Nat × Nat) :=
  [(OD.sessionsOpen, s.m.hv.sessions.length), (OD.logNextSeq, s.log.nextSeq), (OD.logReadCursor, cursorOf s.m (clientOf p)),
   (OD.fttEntriesUsed, s.m.tw.ftt0.length), (OD.sessionIdle, rd s.m OD.sessionIdle), (OD.tamperState, rd s.m OD.tamperState),
   (OD.contextState + 5, ctxCode (ctxOf s.m 5).st + (ctxOf s.m 5).epoch % 2 ^ 16 * 2 ^ 16)]

def typeCodes : List (ObjType × Nat) :=
  [(.u8, 0), (.u16, 1), (.u32, 2), (.u64, 3), (.f32, 6), (.str, 7), (.dom, 8), (.record, 9)]
def accessCodes : List (Access × Nat) := [(.ro, 0), (.rw, 1), (.wo, 2), (.rws, 4), (.const, 5)]

end Sys2Proof.Claims

/-- R12, R542, R545, R546, R548, R551, R555: READ of scalars and of snapshots, its refusals in their order, DESCRIBE, SUBSCRIBE. -/
def Obligations.ReadsAndDescriptions : Prop :=
  (∀ (p : Path) (index sub offset count : Nat) (s : State), Calm s → answers s.m p = true → unknownSession s.m p = false →
    (let key := 256 * index + sub
     let cmd := Instr.read p index sub offset count false
     let none_ := lookupObj index sub = none
     (16384 < count → Claims.Turned cmd s ST.invalid) ∧ Claims.Turned (.read p index sub offset count true) s ST.invalid ∧
     (count ≤ 16384 → none_ → Claims.Turned cmd s ST.noObject) ∧
     (∀ o, count ≤ 16384 → lookupObj index sub = some o → (o.access = .wo ∨ ¬Claims.MayRead s.m p index) → Claims.Turned cmd s ST.access) ∧
     (∀ o, Claims.Readable index sub → Claims.MayRead s.m p index → objDef key = some o → count ≤ 16384 →
       (let b := leBytes o.type.bytes (scalarNow p s.log s.m key)
        let n := if count = 0 then b.length - offset else count
        (offset + count ≤ b.length → Completes cmd s (fun d => d.hv.replyStatus = ST.ok ∧
          d.hv.reply = Claims.Bytes_ b.length offset ((b.drop offset).take n) ∧ Claims.Untouched s.m d)) ∧
        (b.length < offset + count → Claims.Turned cmd s ST.length))) ∧
     (∀ x ∈ Claims.shown p s, scalarNow p s.log s.m x.1 = x.2) ∧
     (∀ o, 1 ≤ sub → objDef key = some o → o.type.scalar = false → o.access ≠ .wo → Claims.MayRead s.m p index → count ≤ 16384 →
       (pathSession p ≠ 0 ∨ ∃ n, p = .slot n) →
       (let whole := objNow p s.log s.m o key
        let n := if count = 0 then min 16384 whole.length else count
        (offset = 0 → key ∉ [OD.logReadData, OD.traceData, OD.attestReport] → count ≤ whole.length → Completes cmd s (fun d =>
          d.hv.replyStatus = ST.ok ∧ d.hv.reply = Claims.Bytes_ whole.length 0 (whole.take n) ∧ snapOf d (clientOf p) key = some whole ∧
          Claims.Untouched s.m d)) ∧
        (∀ b, offset ≠ 0 → snapOf s.m (clientOf p) key = some b → offset + count ≤ b.length → Completes cmd s (fun d =>
          d.hv.replyStatus = ST.ok ∧ d.hv.snaps = s.m.hv.snaps ∧ Claims.Untouched s.m d ∧
          d.hv.reply = Claims.Bytes_ b.length offset ((b.drop offset).take (if count = 0 then min 16384 (b.length - offset) else count)))) ∧
        (offset ≠ 0 → key ∈ [OD.logReadData, OD.traceData, OD.attestReport] → snapOf s.m (clientOf p) key = none →
          Claims.OutOfState cmd s key))) ∧
     Claims.Turned (.describe p index sub true) s ST.invalid ∧ (none_ → Claims.Turned (.describe p index sub false) s ST.noObject) ∧
     (∀ o, lookupObj index sub = some o → (¬Claims.MayRead s.m p index ∨ p = .service) →
       Claims.Turned (.describe p index sub false) s ST.access) ∧
     (∀ o, ∀ t ∈ Claims.typeCodes, ∀ a ∈ Claims.accessCodes, lookupObj index sub = some o → o.type = t.1 → o.access = a.1 →
       Claims.MayRead s.m p index → p ≠ .service → Completes (.describe p index sub false) s (fun d => d.hv.replyStatus = ST.ok ∧ Claims.Untouched s.m d ∧
         d.hv.reply = leBytes 8 ((if t.2 ≤ 6 then o.type.bytes else o.size1) * 2 ^ 32) ++ (leBytes 8 (t.2 + a.2 * 2 ^ 8) ++
           leBytes 8 (if t.2 ≤ 6 then o.dflt else 0) ++ (Config.unitText key).take 256))))) ∧
  (∀ (p : Path) (sev : Nat) (s : State), Calm s → answers s.m p = true → unknownSession s.m p = false →
    (16 ≤ sev → Claims.Turned (.subscribe p sev false) s ST.invalid) ∧ Claims.Turned (.subscribe p sev true) s ST.invalid ∧
    (sev < 16 → mfind s.m.hv.sessions (pathSession p) = none → Claims.Turned (.subscribe p sev false) s ST.access) ∧
    (∀ x, sev < 16 → mfind s.m.hv.sessions (pathSession p) = some x → Completes (.subscribe p sev false) s (fun d =>
      d.hv.replyStatus = ST.ok ∧ Claims.Untouched s.m d ∧ ∃ y, mfind d.hv.sessions (pathSession p) = some y ∧
      y.notices = (if sev = 15 then none else some sev) ∧ y.keyIn = x.keyIn ∧ y.keyOut = x.keyOut)))

namespace Sys2Proof.Claims

/-- Scalar objects that only hold what is written: key, size, access code, range. -/
def scalarRows : List (Nat × Nat × Access × Nat × Nat) :=
  [(OD.sessionIdle, 4, .rw, 10, 86400), (OD.persistThreshold, 1, .rw, 0, 4), (OD.persistRate, 2, .rw, 1, 1024),
   (OD.hostNoticeThreshold, 1, .rw, 0, 4), (OD.traceEnable, 2, .rw, 0, 1023), (OD.trialWindow, 4, .rw, 60, 86400),
   (OD.recoverySlots, 2, .rws, 0, 65535), (OD.legacyPeerPolicy, 1, .rws, 0, 1), (OD.minCredentialEpoch, 4, .rws, 0, 2 ^ 32 - 1)]

/-- Counters that a write of zero restarts. -/
def counterKeys : List Nat :=
  [OD.tagFailures, OD.requestsDiscarded, OD.stateRefusals, OD.lockstepMismatches, OD.persistDropped, OD.linkAuthFailures]

end Sys2Proof.Claims

/-- R10, R12, R546, R548, R555, R566, R575: writes of objects: scalars in and out of range, read-only objects, counters, bytes of a DOMAIN, a value
staged in pieces, and the installation objects, which their record keeps. -/
def Obligations.WritesOfObjects : Prop :=
  ∀ (p : Path) (s : State), Calm s → answers s.m p = true → unknownSession s.m p = false → s.m.hv.update.due = false →
    (∀ x ∈ Claims.scalarRows, ∀ v,
      (let key := x.1
       let put := fun (b : Bytes) => Instr.registerWrite p (key / 256) (key % 256) b
       (Claims.Accepted s.m p key x.2.2.1 → x.2.2.2.1 ≤ v → v ≤ x.2.2.2.2 → Completes (put (leBytes x.2.1 v)) s (fun d =>
         d.hv.replyStatus = ST.ok ∧ rd d key = v ∧ Claims.ObjectsOnly [key] s.m d)) ∧
       (Claims.Permitted s.m p key x.2.2.1 → (v < x.2.2.2.1 ∨ x.2.2.2.2 < v) → v < 256 ^ x.2.1 → Claims.Turned (put (leBytes x.2.1 v)) s ST.invalid) ∧
       (∀ b : Bytes, Claims.Permitted s.m p key x.2.2.1 → (b.length < x.2.1 → Claims.Turned (put b) s ST.invalid) ∧
         (x.2.1 < b.length → Claims.Turned (put b) s ST.length)))) ∧
    (∀ key ∈ Claims.counterKeys, Claims.Permitted s.m p key .rw → ∀ v < 2 ^ 64,
      (let cmd := Instr.registerWrite p (key / 256) (key % 256) (leBytes 8 v)
       (v = 0 → Completes cmd s (fun d => d.hv.replyStatus = ST.ok ∧ rd d key = 0 ∧ Claims.ObjectsOnly [key] s.m d)) ∧
       (v ≠ 0 → Claims.Turned cmd s ST.invalid))) ∧
    (∀ index sub v, 1 ≤ sub → (∀ o, objDef (256 * index + sub) = some o → (o.access = .ro ∨ o.access = .const) →
      Claims.Turned (.registerWrite p index sub v) s ST.access) ∧
      (objDef (256 * index + sub) = none → Claims.Turned (.registerWrite p index sub v) s ST.noObject)) ∧
    (∀ v : Bytes, ∀ slot < 16, Claims.Accepted s.m p (OD.operatorKey + slot) .rws →
      (let cmd := Instr.registerWrite p 0x6011 (slot + 1) v
       ((v = [] ∨ v.length = 2592) → Completes cmd s (fun d => d.hv.replyStatus = ST.ok ∧ rdBytes d (OD.operatorKey + slot) = some v ∧
         (∀ k, k ≠ OD.operatorKey + slot → rdBytes d k = rdBytes s.m k) ∧ d.od = s.m.od ∧ (∀ n, (mfind d.hv.sessions n).isSome = (mfind s.m.hv.sessions n).isSome))) ∧
       (v ≠ [] → v.length < 2592 → (rdBytes s.m (OD.operatorKey + slot)).getD [] = [] → Claims.Turned cmd s ST.invalid) ∧
       (2592 < v.length → Claims.Turned cmd s ST.length))) ∧
    (∀ (off : Nat) (v : Bytes), Claims.Accepted s.m p OD.staticAddress .rws → stageOf s.m (clientOf p) OD.staticAddress = none →
      (rdFull s.m OD.staticAddress).length = 16 → off + v.length ≤ 16 → Completes (.write p 0x1100 3 off false false v) s (fun d =>
        d.hv.replyStatus = ST.ok ∧ d.od = s.m.od ∧
        rdFull d OD.staticAddress = (rdFull s.m OD.staticAddress).take off ++ v ++ (rdFull s.m OD.staticAddress).drop (off + v.length))) ∧
    (∀ (index sub off : Nat) (v : Bytes) (o : ObjDef), objDef (256 * index + sub) = some o → 1 ≤ sub → v.length ≤ 16384 →
      (let key := 256 * index + sub
       let old := (stageOf s.m (clientOf p) key).getD []
       let piece := Instr.write p index sub off true false v
       (mayWrite s.m p o.access = false → Claims.Turned piece s ST.access) ∧
       (mayWrite s.m p o.access = true → 1048576 < old.length + v.length → Claims.Turned piece s ST.length) ∧
       (mayWrite s.m p o.access = true → old.length + v.length ≤ 1048576 → off ≠ old.length →
         Claims.OutOfState piece s key ∧ Completes piece s (fun d => stageOf d (clientOf p) key = none)) ∧
       (∀ b, stageOf s.m (clientOf p) key = some b → off ≠ b.length → Claims.OutOfState (.write p index sub off false false v) s key) ∧
       (mayWrite s.m p o.access = true → old.length + v.length ≤ 1048576 → off = old.length → (pathSession p ≠ 0 ∨ ∃ n, p = .slot n) →
         Completes piece s (fun d => d.hv.replyStatus = ST.ok ∧ Claims.Untouched s.m d ∧ stageOf d (clientOf p) key = some (old ++ v))) ∧
       (∀ b, stageOf s.m (clientOf p) key = some b → off = b.length → b.length + v.length ≤ 1048576 →
         exec (.write p index sub off false false v) s = exec (.registerWrite p index sub (b ++ v)) s) ∧
       (stageOf s.m (clientOf p) key = none → exec (.write p index sub 0 false false v) s = exec (.registerWrite p index sub v) s) ∧
       Claims.Turned (.write p index sub off false true v) s ST.invalid)) ∧
    (∀ n < 256, Claims.Accepted s.m p OD.plcaBurst .rw → rdBytes s.m OD.plcaBurst = none → Completes (.installationWrite p 0x1100 5 (leBytes 1 n)) s (fun d =>
      d.hv.replyStatus = ST.ok ∧ rd d OD.plcaBurst = n ∧ (∀ k, k ≠ OD.plcaBurst → rd d k = rd s.m k) ∧
      (s.m.sec.sealKey ≠ none → mfind d.installed OD.plcaBurst = some n ∧ d.sec.installSealed = true) ∧
      (s.m.sec.sealKey = none → d.installed = s.m.installed ∧ d.sec = s.m.sec))) ∧
    (∀ (index sub : Nat) (v : Bytes), (256 * index + sub ∈ installationKeys → exec (.installationWrite p index sub v) s = exec (.registerWrite p index sub v) s) ∧
      (256 * index + sub ∉ installationKeys → Becomes (.installationWrite p index sub v) s s.m))

namespace Sys2Proof.Claims

/-- The security root runs (R578). -/
def Rooted (d : Dev) : Prop := d.hv.running = true ∨ d.hv.stoppedFailed = true

/-- An enabled, working, armed sensor (R589; log entry 25). -/
def ArmedSensor (d : Dev) (k : Nat) : Prop :=
  k < 4 ∧ (rd d OD.tamperSensorEnable).testBit k = true ∧ (rd d OD.tamperSensorsFailed).testBit k = false ∧
  (k = 2 → d.pow.down = .none ∧ d.pow.v48present = true)

/-- Every enabled working sensor is untripped (R590). -/
def Quiet (d : Dev) : Prop :=
  ∀ k ∈ d.sec.tripped, (rd d OD.tamperSensorEnable).testBit k = true → (rd d OD.tamperSensorsFailed).testBit k = true

/-- EV_6001 of a sensor; `again` 1 only raises REPEAT of its entry. -/
def tripEv (k again : Nat) : Nat × Event := ev 16 0x6001 again k []

/-- Every authenticated session is closed with reason 5. -/
def AllClosed (d d' : Dev) : Prop :=
  (∀ n x, Open d n x → mfind d'.hv.sessions n = none) ∧ ((∃ n x, Open d n x) → Raises [ev 16 0x1102 0 5 []] d d')

/-- The tamper state has returned to CLEAR (R590). -/
def Cleared (d d' : Dev) : Prop :=
  rd d' OD.tamperState = 0 ∧ Raises [hvEv 0x6004] d d' ∧
  (rd d OD.tamperSensorsFailed = 0 → Reports OD.readySecurity RS.ready 0 d d')

end Sys2Proof.Claims

/-- R589-R592: a trip by the state and the policy, what LOCKED closes and keeps, what ERASED destroys, the self test, CLEAR and UNLOCK, and
the end of the flash erase. -/
def Obligations.TamperResponse : Prop :=
  (∀ (k : Nat) (s : State), Calm s → Claims.Rooted s.m →
    (let trip := fun (P : Dev → Prop) => Completes (.tamperTrip k true) s (fun d =>
       rd d OD.lastTripSensor = (if s.m.sec.marker = .pending then rd s.m OD.lastTripSensor else k) ∧
       rd d OD.tamperTrips = (rd s.m OD.tamperTrips + 1) % 2 ^ 32 ∧ k ∈ d.sec.tripped ∧ d.mem = s.m.mem ∧ P d)
     let state := rd s.m OD.tamperState
     (k < 4 → Completes (.tamperTrip k false) s (fun d => d = { s.m with sec := { s.m.sec with tripped := d.sec.tripped } } ∧
       ∀ j, j ∈ d.sec.tripped ↔ j ∈ s.m.sec.tripped ∧ j ≠ k)) ∧
     (k < 4 → ¬Claims.ArmedSensor s.m k → Completes (.tamperTrip k true) s (fun d => k ∈ d.sec.tripped ∧
       d = { s.m with sec := { s.m.sec with tripped := d.sec.tripped } })) ∧
     (4 ≤ k → Becomes (.tamperTrip k true) s s.m) ∧
     (Claims.ArmedSensor s.m k →
       (state = 0 → rd s.m OD.tamperPolicy = 0 → trip (fun d => rd d OD.tamperState = 1 ∧ Claims.Raises [Claims.tripEv k 0] s.m d ∧ d.hv = s.m.hv)) ∧
       (state = 0 → rd s.m OD.tamperPolicy = 1 → trip (fun d => rd d OD.tamperState = 2 ∧
         Claims.Raises [Claims.tripEv k 0, Claims.hvEv 0x6002] s.m d ∧ Claims.AllClosed s.m d ∧ rd d OD.updateState = 0 ∧
         (1 ≤ rd s.m OD.updateState → rd s.m OD.updateState ≤ 4 → (Claims.imageAt d (Claims.inactive s.m)).valid = false) ∧
         (rd s.m OD.updateState = 5 → Claims.Raises [Claims.hvEv 0x7004] s.m d) ∧
         (readyState s.m OD.readySecurity ≠ RS.failed → Claims.Reports OD.readySecurity RS.degraded 4 s.m d) ∧
         d.seq = s.m.seq ∧ d.blocks = s.m.blocks ∧ d.ports = s.m.ports ∧ d.tw = s.m.tw ∧ d.sec.identity = s.m.sec.identity)) ∧
       (state = 0 → rd s.m OD.tamperPolicy = 2 → trip (fun d => rd d OD.tamperState = 3 ∧
         Claims.Raises [Claims.tripEv k 0, Claims.hvEv 0x6003] s.m d ∧ Claims.AllClosed s.m d ∧ d.hv.handshakes = [] ∧
         d.sec.marker = .pending ∧ d.sec.identity = none ∧ d.sec.sealKey = none ∧
         (∀ p < 32, portUp d p = false ∧ (readyState s.m (fabricPortFn p) ≠ RS.absent → readyState d (fabricPortFn p) = RS.failed ∧
           readyReason d (fabricPortFn p) = 4)) ∧
         Claims.Reports OD.readySecurity RS.failed 4 s.m d)) ∧
       ((state = 1 ∨ state = 2) → trip (fun d => rd d OD.tamperState = state ∧ Claims.Raises [Claims.tripEv k 1] s.m d ∧ d.hv = s.m.hv)) ∧
       (state = 3 → trip (fun d => rd d OD.tamperState = 3 ∧ d.ev = s.m.ev ∧ d.hv = s.m.hv))) ∧
     (k < 4 → (rd s.m OD.tamperSensorsFailed).testBit k = false → Completes (.tamperSelfTest k false) s (fun d =>
       rd d OD.tamperSensorsFailed = Nat.lor (rd s.m OD.tamperSensorsFailed) (2 ^ k) ∧ Claims.Raises [Claims.ev 16 0x6005 0 k []] s.m d ∧
       (works s.m OD.readySecurity = true → state ≠ 2 → Claims.Reports OD.readySecurity RS.degraded 2 s.m d))) ∧
     Becomes (.tamperSelfTest k true) s s.m)) ∧
  (∀ (p : Path) (s : State), Calm s →
    (let state := rd s.m OD.tamperState
     let recovery := ∃ x, Claims.Open s.m (pathSession p) x ∧ (rd s.m OD.recoverySlots).testBit x.keySlot = true
     (state = 1 → Claims.Quiet s.m → Claims.Commanded (.clear p false) s p OD.tamperCommand .rws ST.ok (Claims.Cleared s.m)) ∧
     ((state ≠ 1 ∨ ¬Claims.Quiet s.m) → Claims.TurnedAway (.clear p false) s p OD.tamperCommand .rws ST.state []) ∧
     (state = 2 → recovery → Claims.Quiet s.m → Claims.Commanded (.unlock p false) s p OD.tamperCommand .rws ST.ok (Claims.Cleared s.m)) ∧
     ((state ≠ 2 ∨ ¬recovery ∨ ¬Claims.Quiet s.m) → Claims.TurnedAway (.unlock p false) s p OD.tamperCommand .rws ST.state []) ∧
     (state = 2 → recovery → ∀ c, (∃ mv, c = Instr.supplySetpointWrite p mv ∧ 620 ≤ mv ∧ mv ≤ 880 ∧ mv % 5 = 0) ∨ c = .stop p false ∨ c = .fullRestart p false →
       answers s.m p = true → Completes c s (fun d => d.hv.replyStatus = ST.state ∧ d.seq = s.m.seq ∧ d.faults = s.m.faults ∧
         rd d OD.supplySetpoint = rd s.m OD.supplySetpoint)))) ∧
  (∀ s : State, Calm s → (s.m.sec.marker = .pending → Becomes .helperDataErased s { s.m with sec := { s.m.sec with helper := false, marker := .done } }) ∧
    (s.m.sec.marker ≠ .pending → Becomes .helperDataErased s s.m))

namespace Sys2Proof.Claims

/-- An owner record of one entry, with its number and its signature (R583; the layout of an entry is the model's, log entry 30). -/
def ownerRecord (number index sub : Nat) (value sig : Bytes) : Bytes :=
  leBytes 8 (0x4F574E52 + number * 2 ^ 32) ++ (leBytes 8 (index + sub * 2 ^ 16 + value.length * 2 ^ 32) ++ value) ++ sig

/-- The signature of a record verifies under the key in operator slot 0. -/
def OwnerSigned (d : Dev) (number index sub : Nat) (value sig : Bytes) : Prop :=
  sig.length = 4627 ∧ Config.mldsaVerify ((rdBytes d OD.operatorKey).getD []) (ascii "P3 owner") (ownerRecord number index sub value []) sig = true

/-- Bytes of the report that a reply carries. -/
def part (d : Dev) (o n : Nat) : Bytes := (d.hv.reply.drop (16 + o)).take n

end Sys2Proof.Claims

/-- R581-R586, R590, R593: an owner record installed or refused, the nonce of a client and the report over it, and re-provisioning by a
ticket on the service interface. -/
def Obligations.IdentityAndRecords : Prop :=
  (∀ (p : Path) (number index sub : Nat) (value sig : Bytes) (s : State), Calm s → number < 2 ^ 32 → index < 2 ^ 16 → sub < 2 ^ 8 →
    value.length < 60000 → Claims.Accepted s.m p OD.ownerRecordInstall .rws →
    (let record := Claims.ownerRecord number index sub value sig
     let cmd := Instr.ownerRecordInstall p record
     let signed := Claims.OwnerSigned s.m number index sub value sig
     let newer := rd s.m OD.ownerRecordNumber < number
     (signed → newer → index = 0x6003 → sub = 2 → value.length = 2 → Completes cmd s (fun d => d.hv.replyStatus = ST.ok ∧
       rd d OD.ownerRecordNumber = number ∧ d.sec.ownerDigest = Config.sha3_512 record ∧ Claims.Raises [Claims.hvEv 0x6011] s.m d ∧
       d.sec.ownerValues = [(OD.recoverySlots, leNat value)] ∧ d.sec.ownerBytes = [] ∧
       (s.m.sec.ownerValues = [] → s.m.sec.ownerBytes = [] →
         rd d OD.recoverySlots = (if rd s.m OD.recoverySlots = 1 then leNat value else rd s.m OD.recoverySlots) ∧
         rd d OD.legacyPeerPolicy = rd s.m OD.legacyPeerPolicy))) ∧
     (signed → newer → index = 0x6011 → sub = 1 → value.length = 2592 → s.m.sec.ownerBytes = [] →
       (rdBytes s.m OD.operatorKey).getD [] = (if s.m.sec.factoryOk = true then Config.operatorKey0 else []) → Completes cmd s (fun d => d.hv.replyStatus = ST.ok ∧ rdBytes d OD.operatorKey = some value)) ∧
     (signed → ¬newer → index = 0x6003 → sub = 2 → value.length = 2 → Completes cmd s (fun d => d.hv.replyStatus = ST.state ∧ d.sec = s.m.sec ∧
       Claims.Counted OD.stateRefusals true s.m d)) ∧
     (signed → index < 0x6000 → Claims.Turned cmd s ST.invalid) ∧
     (sig.length = 4627 → ¬signed → Claims.Turned cmd s ST.access))) ∧
  (∀ (p : Path) (nonce : Bytes) (s : State), Calm s → Claims.Accepted s.m p OD.attestNonce .rw →
    (nonce.length = 32 → Completes (.attestNonceWrite p nonce) s (fun d => d.hv.replyStatus = ST.ok ∧ nonceOf d (clientOf p) = some nonce ∧
      (∀ c, c ≠ clientOf p → nonceOf d c = nonceOf s.m c) ∧ d.od = s.m.od)) ∧
    (32 < nonce.length → Claims.Turned (.attestNonceWrite p nonce) s ST.length)) ∧
  (∀ (p : Path) (nonce key : Bytes) (s : State), Calm s → answers s.m p = true → unknownSession s.m p = false →
    (authed s.m p = true ∨ ∃ n, p = .slot n) →
    (nonceOf s.m (clientOf p) = some nonce → nonce.length = 32 → s.m.sec.identity = some key → rd s.m OD.tamperState < 4 →
      Completes (.attestReportRead p 0 0) s (fun d => d.hv.replyStatus = ST.ok ∧ d.hv.reply.length = 16 + 5139 ∧ Claims.Untouched s.m d ∧
        Claims.part d 0 8 = leBytes 8 (0x41545354 + 2 ^ 32 + rd s.m OD.tamperState * 2 ^ 40 + s.log.boot % 2 ^ 16 * 2 ^ 48) ∧
        Claims.part d 24 8 = leBytes 8 s.log.nextSeq ∧ Claims.part d 32 32 = nonce ∧
        Claims.part d 64 64 = zeroPad 64 (Config.sha3_512 (Config.mldsaPublic key)) ∧ Claims.part d 192 64 = zeroPad 64 s.m.sec.seqDigest ∧
        Claims.part d 320 64 = zeroPad 64 (if s.m.sec.ownerOk = true then s.m.sec.ownerDigest else []) ∧
        Claims.part d 448 8 = leBytes 8 (rd s.m OD.activeRelease + rd s.m OD.minSecurityVersion * 2 ^ 32) ∧
        Claims.part d 456 56 = List.replicate 56 0 ∧
        Claims.part d 512 4627 = zeroPad 4627 (Config.mldsaSign key (ascii "P3 attest") (Claims.part d 0 512)))) ∧
    ((nonceOf s.m (clientOf p) = none ∨ s.m.sec.identity = none) → Claims.OutOfState (.attestReportRead p 0 0) s OD.attestReport)) ∧
  (∀ (serial sig response certificate : Bytes) (trips : Nat) (s : State), Calm s →
    (let cmd := Instr.reprovision serial trips sig response certificate
     let on := Claims.Rooted s.m ∧ s.m.pow.svcEn = true
     let ticket := serial = Config.serialNumber ∧ trips = rd s.m OD.tamperTrips ∧
       Config.mldsaVerify (Config.factoryKey 1) (ascii "P3 reprovision") (serial ++ leBytes 4 trips) sig = true
     let secret := Config.sha3_512 response
     (¬on → Becomes cmd s s.m) ∧ (on → rd s.m OD.tamperState ≠ 3 → Claims.Turned cmd s ST.state) ∧
     (on → rd s.m OD.tamperState = 3 → ¬ticket → Claims.Turned cmd s ST.access) ∧
     (on → rd s.m OD.tamperState = 3 → ticket → Completes cmd s (fun d => d.hv.replyStatus = ST.ok ∧ Claims.Cleared s.m d ∧
       d.sec.identity = some (Config.kmac256 secret [] 256 (ascii "P3 identity")) ∧ d.sec.helper = true ∧ d.sec.enrolled = response ∧
       d.sec.sealKey = some (Config.kmac256 secret [] 256 (ascii "P3 seal")) ∧ rdBytes d OD.deviceCertificate = some certificate ∧
       d.sec.ownerValues = s.m.sec.ownerValues ∧ d.sec.ownerBytes = s.m.sec.ownerBytes))))

/-- The block takes the command at the front of its queue and runs it with the queue's rest; with an empty queue it idles, which is the
model's choice (log entry 8). -/
def Obligations.QueueStep : Prop :=
  (∀ (c : Instr) (rest : List Instr) (m : Dev) (l : LogStore), step ⟨m, l, c :: rest⟩ = exec c ⟨m, l, rest⟩) ∧
  (∀ (m : Dev) (l : LogStore), step ⟨m, l, []⟩ = .next ⟨m, l, []⟩)

/-- Every command answers a next state and leaves the queue as it is; only an entry made and a start of Hivan change the log. Which of
the manual's refusals are effects and which would be stops is the model's reading (log entry 4). -/
def Sys2Proof.Claims.EveryCommandAnswersPart : Prop :=
  ∀ (c : Instr) (s : State), ∃ m l, exec c s = .next ⟨m, l, s.pending⟩ ∧
    (l ≠ s.log → (∃ n, c = .logEntry n) ∨ ∃ response slot mc, c = .hivanStart response slot mc)

/-- R482: while the job seal notice is awaited no command makes the open step's first write of a line whose flip-log bit is set; a
command that would has had no effect yet but the start of the wait (log entry 20). -/
def Sys2Proof.Claims.HeldWritesWaitPart : Prop :=
  ∀ (c : Instr) (s : State), s.m.ckpt.holds = true → ∃ t, exec c s = .next t ∧
    (∀ l ∈ t.m.seq.written, l ∈ s.m.seq.written ∨ l ∉ s.m.ckpt.flipLog)

/-- R434: no command leaves the mark of an access that is held; the one that made it has had no effect (log entry 128). -/
def Sys2Proof.Claims.NothingStaysHeldPart : Prop :=
  ∀ (c : Instr) (s t : State), s.m.seq.reached = false → exec c s = .next t → t.m.seq.reached = false

namespace Sys2Proof.Claims

/-- Bytes of entries (R537). -/
def entryBytes (l : List LogRec) : Nat := (l.map (fun r => 8 * (4 + r.details.length))).sum

/-- The log fits its ring of 2 MiB and its partition of 8 MiB, an allowance of 1,024 persistent writes, and REPEAT its 16 bits. -/
structure LogBounded (l : LogStore) : Prop where
  ring : entryBytes l.ring ≤ 2097152
  persisted : entryBytes l.persisted ≤ 8388608
  tokens : l.persistTokens ≤ 1024
  reps : ∀ r ∈ l.ring, r.rep ≤ 65535

/-- The entries of the ring carry rising SEQs, all below the next one (R537). -/
def LogOrdered (l : LogStore) : Prop := (l.ring.map (fun r => r.seq)).Pairwise (· < ·) ∧ ∀ r ∈ l.ring, r.seq < l.nextSeq

end Sys2Proof.Claims

/-- R537-R540, R556: whatever command runs, the log stays within its ring and its partition. -/
def Sys2Proof.Claims.LogStaysBoundedPart : Prop :=
  ∀ (s t : State), Claims.LogBounded s.log → step s = .next t → Claims.LogBounded t.log

/-- R537, R538: whatever command runs, the SEQs of the ring stay rising and below the next SEQ, short of the 64-bit counter's end. -/
def Sys2Proof.Claims.LogStaysOrderedPart : Prop :=
  ∀ (s t : State), Claims.LogOrdered s.log → s.log.nextSeq + 1 < 2 ^ 64 → step s = .next t → Claims.LogOrdered t.log

/-- R290, R550, R570, R573: the values the manual gives at reset: every object at its default, contexts FREE, nothing in the FTT, no session,
no group, no step, no port up; the log within its bounds; and the queue of commands empty. -/
def Obligations.ResetState : Prop :=
  (let s := State.reset
   s.pending = [] ∧ Claims.LogBounded s.log ∧ Claims.LogOrdered s.log ∧ (∀ key, rd s.m key = objDefault key) ∧
   (∀ x ∈ [(OD.supplySetpoint, 750), (OD.setpointInForce, 750), (OD.sessionIdle, 300), (OD.sessionLimit, 8), (OD.persistThreshold, 2),
           (OD.persistRate, 64), (OD.trialWindow, 600), (OD.updateState, 0), (OD.managementMode, 0), (OD.tamperState, 0), (OD.tamperPolicy, 1),
           (OD.lastTripSensor, 255), (OD.tamperSensorEnable, 15), (OD.recoverySlots, 1), (OD.plcaBurst, 15), (OD.plcaTransmitTimer, 32)],
     objDefault x.1 = x.2) ∧
   (∀ c, (ctxOf s.m c).st = .free ∧ (ctxOf s.m c).epoch = 0) ∧ s.m.tw.ftt0 = [] ∧ s.m.tw.ftt1 = [] ∧ (∀ n, counterAt s.m n = 0) ∧
   s.m.hv.sessions = [] ∧ s.m.hv.handshakes = [] ∧ s.m.seq.groups = [] ∧ s.m.seq.st = .idle ∧ s.m.blocks = [] ∧ s.m.grids = [] ∧
   (∀ p < 32, portUp s.m p = false) ∧ (∀ f ∈ computeFns ++ linkDies ++ (List.range 32).map fabricPortFn, readyState s.m f = RS.absent) ∧
   s.m.mem.cells = [] ∧ s.m.mem.poison = [] ∧ s.m.mem.settled = true ∧ Calm s ∧ s.m.tick = 0)

/-- R434, R482 and the model's reading of refusals (log entry 4): every command answers, no command writes past the job seal notice, and
none leaves an access held. -/
def Obligations.EveryCommandAnswers : Prop := Claims.EveryCommandAnswersPart ∧ Claims.HeldWritesWaitPart ∧ Claims.NothingStaysHeldPart

/-- R537-R540, R556: whatever command runs, the log stays within its ring and its partition, its SEQs rising. -/
def Obligations.LogStaysBounded : Prop := Claims.LogStaysBoundedPart ∧ Claims.LogStaysOrderedPart
end

