-- ==== Sys2Proof/Laws/Flits.lean ====
section
/-!
SUPPORT. Flits: the CRC of a sealed flit is good, and its header's fields read as they were given (R371).
-/

namespace Sys2Proof.Machine

theorem crcBit_lt (c : Nat) (b : Bool) : crcBit c b < 2 ^ 16 := by
  unfold crcBit
  have h : c * 2 % 2 ^ 16 < 2 ^ 16 := Nat.mod_lt _ (by decide)
  dsimp only
  split
  · exact Nat.xor_lt_two_pow h (by decide)
  · exact h

theorem crcByte_lt (c : Nat) (b : Byte) : crcByte c b < 2 ^ 16 := crcBit_lt _ _

theorem crc16_lt (bs : Bytes) : crc16 bs < 2 ^ 16 := by
  unfold crc16
  suffices h : ∀ c < 2 ^ 16, bs.foldl crcByte c < 2 ^ 16 from h _ (by decide)
  induction bs with
  | nil => exact fun c h => h
  | cons b l ih => exact fun c _ => ih _ (crcByte_lt c b)

theorem leBytes_length (n v : Nat) : (leBytes n v).length = n := by
  induction n generalizing v with
  | zero => rfl
  | succ n ih => simp [leBytes, ih]

theorem leNat_leBytes (n v : Nat) : leNat (leBytes n v) = v % 256 ^ n := by
  induction n generalizing v with
  | zero => simp [leBytes, leNat, Nat.mod_one]
  | succ n ih =>
    simp only [leBytes, leNat, ih, BitVec.toNat_ofNat]
    rw [show 256 ^ (n + 1) = 256 * 256 ^ n from by ring, Nat.mod_mul]

/-- What a receiver reads as the header of a sealed flit. -/
theorem sealFlit_header {head : Nat} {body : Bytes} (h : head + 2 ^ 16 ≤ 2 ^ 64) :
    leNat ((leBytes 8 (sealFlit head body).toNat ++ body).take 8) = head + crc16 (leBytes 8 head ++ body) := by
  have c := crc16_lt (leBytes 8 head ++ body)
  rw [List.take_left' (leBytes_length _ _), leNat_leBytes, sealFlit, BitVec.toNat_ofNat]
  omega

theorem flitGood_sealFlit {head : Nat} {body : Bytes} (h : head + 2 ^ 16 ≤ 2 ^ 64) (hm : head % 2 ^ 16 = 0) (hb : body.length = bodySize) :
    flitGood (leBytes 8 (sealFlit head body).toNat ++ body) = true := by
  have c := crc16_lt (leBytes 8 head ++ body)
  unfold flitGood
  simp only [sealFlit_header h, List.length_append, leBytes_length, hb, List.drop_left' (leBytes_length _ _)]
  rw [show (head + crc16 (leBytes 8 head ++ body)) / 2 ^ 16 * 2 ^ 16 = head by omega]
  simp
  omega

/-- A field above the CRC reads as the header had it. -/
theorem nfld_sealFlit {head hi lo : Nat} {body : Bytes} (h : head + 2 ^ 16 ≤ 2 ^ 64) (hm : head % 2 ^ 16 = 0) (hl : 16 ≤ lo) :
    nfld (leNat ((leBytes 8 (sealFlit head body).toNat ++ body).take 8)) hi lo = nfld head hi lo := by
  have c := crc16_lt (leBytes 8 head ++ body)
  rw [sealFlit_header h]
  generalize crc16 (leBytes 8 head ++ body) = k at *
  unfold nfld
  obtain ⟨m, rfl⟩ := Nat.exists_eq_add_of_le hl
  rw [Nat.shiftRight_add, Nat.shiftRight_add, Nat.shiftRight_eq_div_pow _ 16, Nat.shiftRight_eq_div_pow _ 16,
    show (head + k) / 2 ^ 16 = head / 2 ^ 16 by omega]

end Sys2Proof.Machine
end

