-- ==== Sys2Proof/Laws/State.lean ====
section
/-!
SUPPORT. What each shared update of the device leaves: one lemma per field, true by rfl, so that no proof unfolds a record
update.
-/

namespace Sys2Proof.Machine

section
variable (d : Dev)

@[simp] theorem wr_od (key v : Nat) : (wr key v d).od = mput (objDefault key) d.od key v := rfl
@[simp] theorem wr_odBytes (key v : Nat) : (wr key v d).odBytes = d.odBytes := rfl
@[simp] theorem wr_installed (key v : Nat) : (wr key v d).installed = d.installed := rfl
@[simp] theorem wr_installedBytes (key v : Nat) : (wr key v d).installedBytes = d.installedBytes := rfl
@[simp] theorem wr_tick (key v : Nat) : (wr key v d).tick = d.tick := rfl
@[simp] theorem wr_ev (key v : Nat) : (wr key v d).ev = d.ev := rfl
@[simp] theorem wr_mem (key v : Nat) : (wr key v d).mem = d.mem := rfl
@[simp] theorem wr_grids (key v : Nat) : (wr key v d).grids = d.grids := rfl
@[simp] theorem wr_nextGrid (key v : Nat) : (wr key v d).nextGrid = d.nextGrid := rfl
@[simp] theorem wr_blocks (key v : Nat) : (wr key v d).blocks = d.blocks := rfl
@[simp] theorem wr_units (key v : Nat) : (wr key v d).units = d.units := rfl
@[simp] theorem wr_piste (key v : Nat) : (wr key v d).piste = d.piste := rfl
@[simp] theorem wr_tw (key v : Nat) : (wr key v d).tw = d.tw := rfl
@[simp] theorem wr_ports (key v : Nat) : (wr key v d).ports = d.ports := rfl
@[simp] theorem wr_sentFlits (key v : Nat) : (wr key v d).sentFlits = d.sentFlits := rfl
@[simp] theorem wr_runs (key v : Nat) : (wr key v d).runs = d.runs := rfl
@[simp] theorem wr_seq (key v : Nat) : (wr key v d).seq = d.seq := rfl
@[simp] theorem wr_ckpt (key v : Nat) : (wr key v d).ckpt = d.ckpt := rfl
@[simp] theorem wr_faults (key v : Nat) : (wr key v d).faults = d.faults := rfl
@[simp] theorem wr_hv (key v : Nat) : (wr key v d).hv = d.hv := rfl
@[simp] theorem wr_sec (key v : Nat) : (wr key v d).sec = d.sec := rfl
@[simp] theorem wr_pow (key v : Nat) : (wr key v d).pow = d.pow := rfl
@[simp] theorem wr_sent (key v : Nat) : (wr key v d).sent = d.sent := rfl
@[simp] theorem wr_free (key v : Nat) : (wr key v d).free = d.free := rfl

@[simp] theorem addTo_odBytes (key n : Nat) : (addTo key n d).odBytes = d.odBytes := rfl
@[simp] theorem addTo_installed (key n : Nat) : (addTo key n d).installed = d.installed := rfl
@[simp] theorem addTo_installedBytes (key n : Nat) : (addTo key n d).installedBytes = d.installedBytes := rfl
@[simp] theorem addTo_tick (key n : Nat) : (addTo key n d).tick = d.tick := rfl
@[simp] theorem addTo_ev (key n : Nat) : (addTo key n d).ev = d.ev := rfl
@[simp] theorem addTo_mem (key n : Nat) : (addTo key n d).mem = d.mem := rfl
@[simp] theorem addTo_grids (key n : Nat) : (addTo key n d).grids = d.grids := rfl
@[simp] theorem addTo_nextGrid (key n : Nat) : (addTo key n d).nextGrid = d.nextGrid := rfl
@[simp] theorem addTo_blocks (key n : Nat) : (addTo key n d).blocks = d.blocks := rfl
@[simp] theorem addTo_units (key n : Nat) : (addTo key n d).units = d.units := rfl
@[simp] theorem addTo_piste (key n : Nat) : (addTo key n d).piste = d.piste := rfl
@[simp] theorem addTo_tw (key n : Nat) : (addTo key n d).tw = d.tw := rfl
@[simp] theorem addTo_ports (key n : Nat) : (addTo key n d).ports = d.ports := rfl
@[simp] theorem addTo_sentFlits (key n : Nat) : (addTo key n d).sentFlits = d.sentFlits := rfl
@[simp] theorem addTo_runs (key n : Nat) : (addTo key n d).runs = d.runs := rfl
@[simp] theorem addTo_seq (key n : Nat) : (addTo key n d).seq = d.seq := rfl
@[simp] theorem addTo_ckpt (key n : Nat) : (addTo key n d).ckpt = d.ckpt := rfl
@[simp] theorem addTo_faults (key n : Nat) : (addTo key n d).faults = d.faults := rfl
@[simp] theorem addTo_hv (key n : Nat) : (addTo key n d).hv = d.hv := rfl
@[simp] theorem addTo_sec (key n : Nat) : (addTo key n d).sec = d.sec := rfl
@[simp] theorem addTo_pow (key n : Nat) : (addTo key n d).pow = d.pow := rfl
@[simp] theorem addTo_sent (key n : Nat) : (addTo key n d).sent = d.sent := rfl
@[simp] theorem addTo_free (key n : Nat) : (addTo key n d).free = d.free := rfl

@[simp] theorem inc_odBytes (key : Nat) : (inc key d).odBytes = d.odBytes := rfl
@[simp] theorem inc_installed (key : Nat) : (inc key d).installed = d.installed := rfl
@[simp] theorem inc_installedBytes (key : Nat) : (inc key d).installedBytes = d.installedBytes := rfl
@[simp] theorem inc_tick (key : Nat) : (inc key d).tick = d.tick := rfl
@[simp] theorem inc_ev (key : Nat) : (inc key d).ev = d.ev := rfl
@[simp] theorem inc_mem (key : Nat) : (inc key d).mem = d.mem := rfl
@[simp] theorem inc_grids (key : Nat) : (inc key d).grids = d.grids := rfl
@[simp] theorem inc_nextGrid (key : Nat) : (inc key d).nextGrid = d.nextGrid := rfl
@[simp] theorem inc_blocks (key : Nat) : (inc key d).blocks = d.blocks := rfl
@[simp] theorem inc_units (key : Nat) : (inc key d).units = d.units := rfl
@[simp] theorem inc_piste (key : Nat) : (inc key d).piste = d.piste := rfl
@[simp] theorem inc_tw (key : Nat) : (inc key d).tw = d.tw := rfl
@[simp] theorem inc_ports (key : Nat) : (inc key d).ports = d.ports := rfl
@[simp] theorem inc_sentFlits (key : Nat) : (inc key d).sentFlits = d.sentFlits := rfl
@[simp] theorem inc_runs (key : Nat) : (inc key d).runs = d.runs := rfl
@[simp] theorem inc_seq (key : Nat) : (inc key d).seq = d.seq := rfl
@[simp] theorem inc_ckpt (key : Nat) : (inc key d).ckpt = d.ckpt := rfl
@[simp] theorem inc_faults (key : Nat) : (inc key d).faults = d.faults := rfl
@[simp] theorem inc_hv (key : Nat) : (inc key d).hv = d.hv := rfl
@[simp] theorem inc_sec (key : Nat) : (inc key d).sec = d.sec := rfl
@[simp] theorem inc_pow (key : Nat) : (inc key d).pow = d.pow := rfl
@[simp] theorem inc_sent (key : Nat) : (inc key d).sent = d.sent := rfl
@[simp] theorem inc_free (key : Nat) : (inc key d).free = d.free := rfl

@[simp] theorem wrBytes_od (key : Nat) (b : Bytes) : (wrBytes key b d).od = d.od := rfl
@[simp] theorem wrBytes_odBytes (key : Nat) (b : Bytes) : (wrBytes key b d).odBytes = mset d.odBytes key b := rfl
@[simp] theorem wrBytes_installed (key : Nat) (b : Bytes) : (wrBytes key b d).installed = d.installed := rfl
@[simp] theorem wrBytes_installedBytes (key : Nat) (b : Bytes) : (wrBytes key b d).installedBytes = d.installedBytes := rfl
@[simp] theorem wrBytes_tick (key : Nat) (b : Bytes) : (wrBytes key b d).tick = d.tick := rfl
@[simp] theorem wrBytes_ev (key : Nat) (b : Bytes) : (wrBytes key b d).ev = d.ev := rfl
@[simp] theorem wrBytes_mem (key : Nat) (b : Bytes) : (wrBytes key b d).mem = d.mem := rfl
@[simp] theorem wrBytes_grids (key : Nat) (b : Bytes) : (wrBytes key b d).grids = d.grids := rfl
@[simp] theorem wrBytes_nextGrid (key : Nat) (b : Bytes) : (wrBytes key b d).nextGrid = d.nextGrid := rfl
@[simp] theorem wrBytes_blocks (key : Nat) (b : Bytes) : (wrBytes key b d).blocks = d.blocks := rfl
@[simp] theorem wrBytes_units (key : Nat) (b : Bytes) : (wrBytes key b d).units = d.units := rfl
@[simp] theorem wrBytes_piste (key : Nat) (b : Bytes) : (wrBytes key b d).piste = d.piste := rfl
@[simp] theorem wrBytes_tw (key : Nat) (b : Bytes) : (wrBytes key b d).tw = d.tw := rfl
@[simp] theorem wrBytes_ports (key : Nat) (b : Bytes) : (wrBytes key b d).ports = d.ports := rfl
@[simp] theorem wrBytes_sentFlits (key : Nat) (b : Bytes) : (wrBytes key b d).sentFlits = d.sentFlits := rfl
@[simp] theorem wrBytes_runs (key : Nat) (b : Bytes) : (wrBytes key b d).runs = d.runs := rfl
@[simp] theorem wrBytes_seq (key : Nat) (b : Bytes) : (wrBytes key b d).seq = d.seq := rfl
@[simp] theorem wrBytes_ckpt (key : Nat) (b : Bytes) : (wrBytes key b d).ckpt = d.ckpt := rfl
@[simp] theorem wrBytes_faults (key : Nat) (b : Bytes) : (wrBytes key b d).faults = d.faults := rfl
@[simp] theorem wrBytes_hv (key : Nat) (b : Bytes) : (wrBytes key b d).hv = d.hv := rfl
@[simp] theorem wrBytes_sec (key : Nat) (b : Bytes) : (wrBytes key b d).sec = d.sec := rfl
@[simp] theorem wrBytes_pow (key : Nat) (b : Bytes) : (wrBytes key b d).pow = d.pow := rfl
@[simp] theorem wrBytes_sent (key : Nat) (b : Bytes) : (wrBytes key b d).sent = d.sent := rfl
@[simp] theorem wrBytes_free (key : Nat) (b : Bytes) : (wrBytes key b d).free = d.free := rfl

@[simp] theorem delBytes_od (key : Nat) : (delBytes key d).od = d.od := rfl
@[simp] theorem delBytes_odBytes (key : Nat) : (delBytes key d).odBytes = mdel d.odBytes key := rfl
@[simp] theorem delBytes_installed (key : Nat) : (delBytes key d).installed = d.installed := rfl
@[simp] theorem delBytes_installedBytes (key : Nat) : (delBytes key d).installedBytes = d.installedBytes := rfl
@[simp] theorem delBytes_tick (key : Nat) : (delBytes key d).tick = d.tick := rfl
@[simp] theorem delBytes_ev (key : Nat) : (delBytes key d).ev = d.ev := rfl
@[simp] theorem delBytes_mem (key : Nat) : (delBytes key d).mem = d.mem := rfl
@[simp] theorem delBytes_grids (key : Nat) : (delBytes key d).grids = d.grids := rfl
@[simp] theorem delBytes_nextGrid (key : Nat) : (delBytes key d).nextGrid = d.nextGrid := rfl
@[simp] theorem delBytes_blocks (key : Nat) : (delBytes key d).blocks = d.blocks := rfl
@[simp] theorem delBytes_units (key : Nat) : (delBytes key d).units = d.units := rfl
@[simp] theorem delBytes_piste (key : Nat) : (delBytes key d).piste = d.piste := rfl
@[simp] theorem delBytes_tw (key : Nat) : (delBytes key d).tw = d.tw := rfl
@[simp] theorem delBytes_ports (key : Nat) : (delBytes key d).ports = d.ports := rfl
@[simp] theorem delBytes_sentFlits (key : Nat) : (delBytes key d).sentFlits = d.sentFlits := rfl
@[simp] theorem delBytes_runs (key : Nat) : (delBytes key d).runs = d.runs := rfl
@[simp] theorem delBytes_seq (key : Nat) : (delBytes key d).seq = d.seq := rfl
@[simp] theorem delBytes_ckpt (key : Nat) : (delBytes key d).ckpt = d.ckpt := rfl
@[simp] theorem delBytes_faults (key : Nat) : (delBytes key d).faults = d.faults := rfl
@[simp] theorem delBytes_hv (key : Nat) : (delBytes key d).hv = d.hv := rfl
@[simp] theorem delBytes_sec (key : Nat) : (delBytes key d).sec = d.sec := rfl
@[simp] theorem delBytes_pow (key : Nat) : (delBytes key d).pow = d.pow := rfl
@[simp] theorem delBytes_sent (key : Nat) : (delBytes key d).sent = d.sent := rfl
@[simp] theorem delBytes_free (key : Nat) : (delBytes key d).free = d.free := rfl

@[simp] theorem drew_od  : (drew d).od = d.od := rfl
@[simp] theorem drew_odBytes  : (drew d).odBytes = d.odBytes := rfl
@[simp] theorem drew_installed  : (drew d).installed = d.installed := rfl
@[simp] theorem drew_installedBytes  : (drew d).installedBytes = d.installedBytes := rfl
@[simp] theorem drew_tick  : (drew d).tick = d.tick := rfl
@[simp] theorem drew_ev  : (drew d).ev = d.ev := rfl
@[simp] theorem drew_mem  : (drew d).mem = d.mem := rfl
@[simp] theorem drew_grids  : (drew d).grids = d.grids := rfl
@[simp] theorem drew_nextGrid  : (drew d).nextGrid = d.nextGrid := rfl
@[simp] theorem drew_blocks  : (drew d).blocks = d.blocks := rfl
@[simp] theorem drew_units  : (drew d).units = d.units := rfl
@[simp] theorem drew_piste  : (drew d).piste = d.piste := rfl
@[simp] theorem drew_tw  : (drew d).tw = d.tw := rfl
@[simp] theorem drew_ports  : (drew d).ports = d.ports := rfl
@[simp] theorem drew_sentFlits  : (drew d).sentFlits = d.sentFlits := rfl
@[simp] theorem drew_runs  : (drew d).runs = d.runs := rfl
@[simp] theorem drew_seq  : (drew d).seq = d.seq := rfl
@[simp] theorem drew_ckpt  : (drew d).ckpt = d.ckpt := rfl
@[simp] theorem drew_faults  : (drew d).faults = d.faults := rfl
@[simp] theorem drew_hv  : (drew d).hv = d.hv := rfl
@[simp] theorem drew_sec  : (drew d).sec = d.sec := rfl
@[simp] theorem drew_pow  : (drew d).pow = d.pow := rfl
@[simp] theorem drew_sent  : (drew d).sent = d.sent := rfl
@[simp] theorem drew_free  : (drew d).free = d.free + 1 := rfl

@[simp] theorem raise_od (port id inst det : Nat) (ds : List Nat) : (raise port id inst det ds d).od = d.od := rfl
@[simp] theorem raise_odBytes (port id inst det : Nat) (ds : List Nat) : (raise port id inst det ds d).odBytes = d.odBytes := rfl
@[simp] theorem raise_installed (port id inst det : Nat) (ds : List Nat) : (raise port id inst det ds d).installed = d.installed := rfl
@[simp] theorem raise_installedBytes (port id inst det : Nat) (ds : List Nat) : (raise port id inst det ds d).installedBytes = d.installedBytes := rfl
@[simp] theorem raise_tick (port id inst det : Nat) (ds : List Nat) : (raise port id inst det ds d).tick = d.tick := rfl
@[simp] theorem raise_mem (port id inst det : Nat) (ds : List Nat) : (raise port id inst det ds d).mem = d.mem := rfl
@[simp] theorem raise_grids (port id inst det : Nat) (ds : List Nat) : (raise port id inst det ds d).grids = d.grids := rfl
@[simp] theorem raise_nextGrid (port id inst det : Nat) (ds : List Nat) : (raise port id inst det ds d).nextGrid = d.nextGrid := rfl
@[simp] theorem raise_blocks (port id inst det : Nat) (ds : List Nat) : (raise port id inst det ds d).blocks = d.blocks := rfl
@[simp] theorem raise_units (port id inst det : Nat) (ds : List Nat) : (raise port id inst det ds d).units = d.units := rfl
@[simp] theorem raise_piste (port id inst det : Nat) (ds : List Nat) : (raise port id inst det ds d).piste = d.piste := rfl
@[simp] theorem raise_tw (port id inst det : Nat) (ds : List Nat) : (raise port id inst det ds d).tw = d.tw := rfl
@[simp] theorem raise_ports (port id inst det : Nat) (ds : List Nat) : (raise port id inst det ds d).ports = d.ports := rfl
@[simp] theorem raise_sentFlits (port id inst det : Nat) (ds : List Nat) : (raise port id inst det ds d).sentFlits = d.sentFlits := rfl
@[simp] theorem raise_runs (port id inst det : Nat) (ds : List Nat) : (raise port id inst det ds d).runs = d.runs := rfl
@[simp] theorem raise_seq (port id inst det : Nat) (ds : List Nat) : (raise port id inst det ds d).seq = d.seq := rfl
@[simp] theorem raise_ckpt (port id inst det : Nat) (ds : List Nat) : (raise port id inst det ds d).ckpt = d.ckpt := rfl
@[simp] theorem raise_faults (port id inst det : Nat) (ds : List Nat) : (raise port id inst det ds d).faults = d.faults := rfl
@[simp] theorem raise_hv (port id inst det : Nat) (ds : List Nat) : (raise port id inst det ds d).hv = d.hv := rfl
@[simp] theorem raise_sec (port id inst det : Nat) (ds : List Nat) : (raise port id inst det ds d).sec = d.sec := rfl
@[simp] theorem raise_pow (port id inst det : Nat) (ds : List Nat) : (raise port id inst det ds d).pow = d.pow := rfl
@[simp] theorem raise_sent (port id inst det : Nat) (ds : List Nat) : (raise port id inst det ds d).sent = d.sent := rfl
@[simp] theorem raise_free (port id inst det : Nat) (ds : List Nat) : (raise port id inst det ds d).free = d.free := rfl

@[simp] theorem send_od (m : Msg) : (send m d).od = d.od := rfl
@[simp] theorem send_odBytes (m : Msg) : (send m d).odBytes = d.odBytes := rfl
@[simp] theorem send_installed (m : Msg) : (send m d).installed = d.installed := rfl
@[simp] theorem send_installedBytes (m : Msg) : (send m d).installedBytes = d.installedBytes := rfl
@[simp] theorem send_tick (m : Msg) : (send m d).tick = d.tick := rfl
@[simp] theorem send_ev (m : Msg) : (send m d).ev = d.ev := rfl
@[simp] theorem send_mem (m : Msg) : (send m d).mem = d.mem := rfl
@[simp] theorem send_grids (m : Msg) : (send m d).grids = d.grids := rfl
@[simp] theorem send_nextGrid (m : Msg) : (send m d).nextGrid = d.nextGrid := rfl
@[simp] theorem send_blocks (m : Msg) : (send m d).blocks = d.blocks := rfl
@[simp] theorem send_units (m : Msg) : (send m d).units = d.units := rfl
@[simp] theorem send_piste (m : Msg) : (send m d).piste = d.piste := rfl
@[simp] theorem send_tw (m : Msg) : (send m d).tw = d.tw := rfl
@[simp] theorem send_ports (m : Msg) : (send m d).ports = d.ports := rfl
@[simp] theorem send_sentFlits (m : Msg) : (send m d).sentFlits = d.sentFlits := rfl
@[simp] theorem send_runs (m : Msg) : (send m d).runs = d.runs := rfl
@[simp] theorem send_seq (m : Msg) : (send m d).seq = d.seq := rfl
@[simp] theorem send_ckpt (m : Msg) : (send m d).ckpt = d.ckpt := rfl
@[simp] theorem send_faults (m : Msg) : (send m d).faults = d.faults := rfl
@[simp] theorem send_hv (m : Msg) : (send m d).hv = d.hv := rfl
@[simp] theorem send_sec (m : Msg) : (send m d).sec = d.sec := rfl
@[simp] theorem send_pow (m : Msg) : (send m d).pow = d.pow := rfl
@[simp] theorem send_sent (m : Msg) : (send m d).sent = d.sent ++ [m] := rfl
@[simp] theorem send_free (m : Msg) : (send m d).free = d.free := rfl

@[simp] theorem noteWait_od  : (noteWait d).od = d.od := rfl
@[simp] theorem noteWait_odBytes  : (noteWait d).odBytes = d.odBytes := rfl
@[simp] theorem noteWait_installed  : (noteWait d).installed = d.installed := rfl
@[simp] theorem noteWait_installedBytes  : (noteWait d).installedBytes = d.installedBytes := rfl
@[simp] theorem noteWait_tick  : (noteWait d).tick = d.tick := rfl
@[simp] theorem noteWait_ev  : (noteWait d).ev = d.ev := rfl
@[simp] theorem noteWait_mem  : (noteWait d).mem = d.mem := rfl
@[simp] theorem noteWait_grids  : (noteWait d).grids = d.grids := rfl
@[simp] theorem noteWait_nextGrid  : (noteWait d).nextGrid = d.nextGrid := rfl
@[simp] theorem noteWait_blocks  : (noteWait d).blocks = d.blocks := rfl
@[simp] theorem noteWait_units  : (noteWait d).units = d.units := rfl
@[simp] theorem noteWait_piste  : (noteWait d).piste = d.piste := rfl
@[simp] theorem noteWait_tw  : (noteWait d).tw = d.tw := rfl
@[simp] theorem noteWait_ports  : (noteWait d).ports = d.ports := rfl
@[simp] theorem noteWait_sentFlits  : (noteWait d).sentFlits = d.sentFlits := rfl
@[simp] theorem noteWait_runs  : (noteWait d).runs = d.runs := rfl
@[simp] theorem noteWait_seq  : (noteWait d).seq = d.seq := rfl
@[simp] theorem noteWait_faults  : (noteWait d).faults = d.faults := rfl
@[simp] theorem noteWait_hv  : (noteWait d).hv = d.hv := rfl
@[simp] theorem noteWait_sec  : (noteWait d).sec = d.sec := rfl
@[simp] theorem noteWait_pow  : (noteWait d).pow = d.pow := rfl
@[simp] theorem noteWait_sent  : (noteWait d).sent = d.sent := rfl
@[simp] theorem noteWait_free  : (noteWait d).free = d.free := rfl

@[simp] theorem modBlock_od (g n : Nat) (f : Block → Block) : (modBlock g n f d).od = d.od := rfl
@[simp] theorem modBlock_odBytes (g n : Nat) (f : Block → Block) : (modBlock g n f d).odBytes = d.odBytes := rfl
@[simp] theorem modBlock_installed (g n : Nat) (f : Block → Block) : (modBlock g n f d).installed = d.installed := rfl
@[simp] theorem modBlock_installedBytes (g n : Nat) (f : Block → Block) : (modBlock g n f d).installedBytes = d.installedBytes := rfl
@[simp] theorem modBlock_tick (g n : Nat) (f : Block → Block) : (modBlock g n f d).tick = d.tick := rfl
@[simp] theorem modBlock_ev (g n : Nat) (f : Block → Block) : (modBlock g n f d).ev = d.ev := rfl
@[simp] theorem modBlock_mem (g n : Nat) (f : Block → Block) : (modBlock g n f d).mem = d.mem := rfl
@[simp] theorem modBlock_grids (g n : Nat) (f : Block → Block) : (modBlock g n f d).grids = d.grids := rfl
@[simp] theorem modBlock_nextGrid (g n : Nat) (f : Block → Block) : (modBlock g n f d).nextGrid = d.nextGrid := rfl
@[simp] theorem modBlock_units (g n : Nat) (f : Block → Block) : (modBlock g n f d).units = d.units := rfl
@[simp] theorem modBlock_piste (g n : Nat) (f : Block → Block) : (modBlock g n f d).piste = d.piste := rfl
@[simp] theorem modBlock_tw (g n : Nat) (f : Block → Block) : (modBlock g n f d).tw = d.tw := rfl
@[simp] theorem modBlock_ports (g n : Nat) (f : Block → Block) : (modBlock g n f d).ports = d.ports := rfl
@[simp] theorem modBlock_sentFlits (g n : Nat) (f : Block → Block) : (modBlock g n f d).sentFlits = d.sentFlits := rfl
@[simp] theorem modBlock_runs (g n : Nat) (f : Block → Block) : (modBlock g n f d).runs = d.runs := rfl
@[simp] theorem modBlock_seq (g n : Nat) (f : Block → Block) : (modBlock g n f d).seq = d.seq := rfl
@[simp] theorem modBlock_ckpt (g n : Nat) (f : Block → Block) : (modBlock g n f d).ckpt = d.ckpt := rfl
@[simp] theorem modBlock_faults (g n : Nat) (f : Block → Block) : (modBlock g n f d).faults = d.faults := rfl
@[simp] theorem modBlock_hv (g n : Nat) (f : Block → Block) : (modBlock g n f d).hv = d.hv := rfl
@[simp] theorem modBlock_sec (g n : Nat) (f : Block → Block) : (modBlock g n f d).sec = d.sec := rfl
@[simp] theorem modBlock_pow (g n : Nat) (f : Block → Block) : (modBlock g n f d).pow = d.pow := rfl
@[simp] theorem modBlock_sent (g n : Nat) (f : Block → Block) : (modBlock g n f d).sent = d.sent := rfl
@[simp] theorem modBlock_free (g n : Nat) (f : Block → Block) : (modBlock g n f d).free = d.free := rfl

@[simp] theorem modGroup_od (w : Where) (f : Group → Group) : (modGroup w f d).od = d.od := rfl
@[simp] theorem modGroup_odBytes (w : Where) (f : Group → Group) : (modGroup w f d).odBytes = d.odBytes := rfl
@[simp] theorem modGroup_installed (w : Where) (f : Group → Group) : (modGroup w f d).installed = d.installed := rfl
@[simp] theorem modGroup_installedBytes (w : Where) (f : Group → Group) : (modGroup w f d).installedBytes = d.installedBytes := rfl
@[simp] theorem modGroup_tick (w : Where) (f : Group → Group) : (modGroup w f d).tick = d.tick := rfl
@[simp] theorem modGroup_ev (w : Where) (f : Group → Group) : (modGroup w f d).ev = d.ev := rfl
@[simp] theorem modGroup_mem (w : Where) (f : Group → Group) : (modGroup w f d).mem = d.mem := rfl
@[simp] theorem modGroup_grids (w : Where) (f : Group → Group) : (modGroup w f d).grids = d.grids := rfl
@[simp] theorem modGroup_nextGrid (w : Where) (f : Group → Group) : (modGroup w f d).nextGrid = d.nextGrid := rfl
@[simp] theorem modGroup_units (w : Where) (f : Group → Group) : (modGroup w f d).units = d.units := rfl
@[simp] theorem modGroup_piste (w : Where) (f : Group → Group) : (modGroup w f d).piste = d.piste := rfl
@[simp] theorem modGroup_tw (w : Where) (f : Group → Group) : (modGroup w f d).tw = d.tw := rfl
@[simp] theorem modGroup_ports (w : Where) (f : Group → Group) : (modGroup w f d).ports = d.ports := rfl
@[simp] theorem modGroup_sentFlits (w : Where) (f : Group → Group) : (modGroup w f d).sentFlits = d.sentFlits := rfl
@[simp] theorem modGroup_runs (w : Where) (f : Group → Group) : (modGroup w f d).runs = d.runs := rfl
@[simp] theorem modGroup_seq (w : Where) (f : Group → Group) : (modGroup w f d).seq = d.seq := rfl
@[simp] theorem modGroup_ckpt (w : Where) (f : Group → Group) : (modGroup w f d).ckpt = d.ckpt := rfl
@[simp] theorem modGroup_faults (w : Where) (f : Group → Group) : (modGroup w f d).faults = d.faults := rfl
@[simp] theorem modGroup_hv (w : Where) (f : Group → Group) : (modGroup w f d).hv = d.hv := rfl
@[simp] theorem modGroup_sec (w : Where) (f : Group → Group) : (modGroup w f d).sec = d.sec := rfl
@[simp] theorem modGroup_pow (w : Where) (f : Group → Group) : (modGroup w f d).pow = d.pow := rfl
@[simp] theorem modGroup_sent (w : Where) (f : Group → Group) : (modGroup w f d).sent = d.sent := rfl
@[simp] theorem modGroup_free (w : Where) (f : Group → Group) : (modGroup w f d).free = d.free := rfl

@[simp] theorem modLanes_od (w : Where) (ls : List Nat) (f : Nat → Lane → Lane) : (modLanes w ls f d).od = d.od := rfl
@[simp] theorem modLanes_odBytes (w : Where) (ls : List Nat) (f : Nat → Lane → Lane) : (modLanes w ls f d).odBytes = d.odBytes := rfl
@[simp] theorem modLanes_installed (w : Where) (ls : List Nat) (f : Nat → Lane → Lane) : (modLanes w ls f d).installed = d.installed := rfl
@[simp] theorem modLanes_installedBytes (w : Where) (ls : List Nat) (f : Nat → Lane → Lane) : (modLanes w ls f d).installedBytes = d.installedBytes := rfl
@[simp] theorem modLanes_tick (w : Where) (ls : List Nat) (f : Nat → Lane → Lane) : (modLanes w ls f d).tick = d.tick := rfl
@[simp] theorem modLanes_ev (w : Where) (ls : List Nat) (f : Nat → Lane → Lane) : (modLanes w ls f d).ev = d.ev := rfl
@[simp] theorem modLanes_mem (w : Where) (ls : List Nat) (f : Nat → Lane → Lane) : (modLanes w ls f d).mem = d.mem := rfl
@[simp] theorem modLanes_grids (w : Where) (ls : List Nat) (f : Nat → Lane → Lane) : (modLanes w ls f d).grids = d.grids := rfl
@[simp] theorem modLanes_nextGrid (w : Where) (ls : List Nat) (f : Nat → Lane → Lane) : (modLanes w ls f d).nextGrid = d.nextGrid := rfl
@[simp] theorem modLanes_units (w : Where) (ls : List Nat) (f : Nat → Lane → Lane) : (modLanes w ls f d).units = d.units := rfl
@[simp] theorem modLanes_piste (w : Where) (ls : List Nat) (f : Nat → Lane → Lane) : (modLanes w ls f d).piste = d.piste := rfl
@[simp] theorem modLanes_tw (w : Where) (ls : List Nat) (f : Nat → Lane → Lane) : (modLanes w ls f d).tw = d.tw := rfl
@[simp] theorem modLanes_ports (w : Where) (ls : List Nat) (f : Nat → Lane → Lane) : (modLanes w ls f d).ports = d.ports := rfl
@[simp] theorem modLanes_sentFlits (w : Where) (ls : List Nat) (f : Nat → Lane → Lane) : (modLanes w ls f d).sentFlits = d.sentFlits := rfl
@[simp] theorem modLanes_runs (w : Where) (ls : List Nat) (f : Nat → Lane → Lane) : (modLanes w ls f d).runs = d.runs := rfl
@[simp] theorem modLanes_seq (w : Where) (ls : List Nat) (f : Nat → Lane → Lane) : (modLanes w ls f d).seq = d.seq := rfl
@[simp] theorem modLanes_ckpt (w : Where) (ls : List Nat) (f : Nat → Lane → Lane) : (modLanes w ls f d).ckpt = d.ckpt := rfl
@[simp] theorem modLanes_faults (w : Where) (ls : List Nat) (f : Nat → Lane → Lane) : (modLanes w ls f d).faults = d.faults := rfl
@[simp] theorem modLanes_hv (w : Where) (ls : List Nat) (f : Nat → Lane → Lane) : (modLanes w ls f d).hv = d.hv := rfl
@[simp] theorem modLanes_sec (w : Where) (ls : List Nat) (f : Nat → Lane → Lane) : (modLanes w ls f d).sec = d.sec := rfl
@[simp] theorem modLanes_pow (w : Where) (ls : List Nat) (f : Nat → Lane → Lane) : (modLanes w ls f d).pow = d.pow := rfl
@[simp] theorem modLanes_sent (w : Where) (ls : List Nat) (f : Nat → Lane → Lane) : (modLanes w ls f d).sent = d.sent := rfl
@[simp] theorem modLanes_free (w : Where) (ls : List Nat) (f : Nat → Lane → Lane) : (modLanes w ls f d).free = d.free := rfl

@[simp] theorem markIssued_od (x : Issue) : (markIssued x d).od = d.od := rfl
@[simp] theorem markIssued_odBytes (x : Issue) : (markIssued x d).odBytes = d.odBytes := rfl
@[simp] theorem markIssued_installed (x : Issue) : (markIssued x d).installed = d.installed := rfl
@[simp] theorem markIssued_installedBytes (x : Issue) : (markIssued x d).installedBytes = d.installedBytes := rfl
@[simp] theorem markIssued_tick (x : Issue) : (markIssued x d).tick = d.tick := rfl
@[simp] theorem markIssued_ev (x : Issue) : (markIssued x d).ev = d.ev := rfl
@[simp] theorem markIssued_mem (x : Issue) : (markIssued x d).mem = d.mem := rfl
@[simp] theorem markIssued_grids (x : Issue) : (markIssued x d).grids = d.grids := rfl
@[simp] theorem markIssued_nextGrid (x : Issue) : (markIssued x d).nextGrid = d.nextGrid := rfl
@[simp] theorem markIssued_units (x : Issue) : (markIssued x d).units = d.units := rfl
@[simp] theorem markIssued_piste (x : Issue) : (markIssued x d).piste = d.piste := rfl
@[simp] theorem markIssued_tw (x : Issue) : (markIssued x d).tw = d.tw := rfl
@[simp] theorem markIssued_ports (x : Issue) : (markIssued x d).ports = d.ports := rfl
@[simp] theorem markIssued_sentFlits (x : Issue) : (markIssued x d).sentFlits = d.sentFlits := rfl
@[simp] theorem markIssued_runs (x : Issue) : (markIssued x d).runs = d.runs := rfl
@[simp] theorem markIssued_seq (x : Issue) : (markIssued x d).seq = d.seq := rfl
@[simp] theorem markIssued_ckpt (x : Issue) : (markIssued x d).ckpt = d.ckpt := rfl
@[simp] theorem markIssued_faults (x : Issue) : (markIssued x d).faults = d.faults := rfl
@[simp] theorem markIssued_hv (x : Issue) : (markIssued x d).hv = d.hv := rfl
@[simp] theorem markIssued_sec (x : Issue) : (markIssued x d).sec = d.sec := rfl
@[simp] theorem markIssued_pow (x : Issue) : (markIssued x d).pow = d.pow := rfl
@[simp] theorem markIssued_sent (x : Issue) : (markIssued x d).sent = d.sent := rfl
@[simp] theorem markIssued_free (x : Issue) : (markIssued x d).free = d.free := rfl

@[simp] theorem setCtx_od (c : Nat) (x : Ctx) : (setCtx c x d).od = d.od := rfl
@[simp] theorem setCtx_odBytes (c : Nat) (x : Ctx) : (setCtx c x d).odBytes = d.odBytes := rfl
@[simp] theorem setCtx_installed (c : Nat) (x : Ctx) : (setCtx c x d).installed = d.installed := rfl
@[simp] theorem setCtx_installedBytes (c : Nat) (x : Ctx) : (setCtx c x d).installedBytes = d.installedBytes := rfl
@[simp] theorem setCtx_tick (c : Nat) (x : Ctx) : (setCtx c x d).tick = d.tick := rfl
@[simp] theorem setCtx_ev (c : Nat) (x : Ctx) : (setCtx c x d).ev = d.ev := rfl
@[simp] theorem setCtx_mem (c : Nat) (x : Ctx) : (setCtx c x d).mem = d.mem := rfl
@[simp] theorem setCtx_grids (c : Nat) (x : Ctx) : (setCtx c x d).grids = d.grids := rfl
@[simp] theorem setCtx_nextGrid (c : Nat) (x : Ctx) : (setCtx c x d).nextGrid = d.nextGrid := rfl
@[simp] theorem setCtx_blocks (c : Nat) (x : Ctx) : (setCtx c x d).blocks = d.blocks := rfl
@[simp] theorem setCtx_units (c : Nat) (x : Ctx) : (setCtx c x d).units = d.units := rfl
@[simp] theorem setCtx_piste (c : Nat) (x : Ctx) : (setCtx c x d).piste = d.piste := rfl
@[simp] theorem setCtx_ports (c : Nat) (x : Ctx) : (setCtx c x d).ports = d.ports := rfl
@[simp] theorem setCtx_sentFlits (c : Nat) (x : Ctx) : (setCtx c x d).sentFlits = d.sentFlits := rfl
@[simp] theorem setCtx_runs (c : Nat) (x : Ctx) : (setCtx c x d).runs = d.runs := rfl
@[simp] theorem setCtx_seq (c : Nat) (x : Ctx) : (setCtx c x d).seq = d.seq := rfl
@[simp] theorem setCtx_ckpt (c : Nat) (x : Ctx) : (setCtx c x d).ckpt = d.ckpt := rfl
@[simp] theorem setCtx_faults (c : Nat) (x : Ctx) : (setCtx c x d).faults = d.faults := rfl
@[simp] theorem setCtx_hv (c : Nat) (x : Ctx) : (setCtx c x d).hv = d.hv := rfl
@[simp] theorem setCtx_sec (c : Nat) (x : Ctx) : (setCtx c x d).sec = d.sec := rfl
@[simp] theorem setCtx_pow (c : Nat) (x : Ctx) : (setCtx c x d).pow = d.pow := rfl
@[simp] theorem setCtx_sent (c : Nat) (x : Ctx) : (setCtx c x d).sent = d.sent := rfl
@[simp] theorem setCtx_free (c : Nat) (x : Ctx) : (setCtx c x d).free = d.free := rfl

@[simp] theorem setOp_od (id : Nat) (op : FabOp) : (setOp id op d).od = d.od := rfl
@[simp] theorem setOp_odBytes (id : Nat) (op : FabOp) : (setOp id op d).odBytes = d.odBytes := rfl
@[simp] theorem setOp_installed (id : Nat) (op : FabOp) : (setOp id op d).installed = d.installed := rfl
@[simp] theorem setOp_installedBytes (id : Nat) (op : FabOp) : (setOp id op d).installedBytes = d.installedBytes := rfl
@[simp] theorem setOp_tick (id : Nat) (op : FabOp) : (setOp id op d).tick = d.tick := rfl
@[simp] theorem setOp_ev (id : Nat) (op : FabOp) : (setOp id op d).ev = d.ev := rfl
@[simp] theorem setOp_mem (id : Nat) (op : FabOp) : (setOp id op d).mem = d.mem := rfl
@[simp] theorem setOp_grids (id : Nat) (op : FabOp) : (setOp id op d).grids = d.grids := rfl
@[simp] theorem setOp_nextGrid (id : Nat) (op : FabOp) : (setOp id op d).nextGrid = d.nextGrid := rfl
@[simp] theorem setOp_blocks (id : Nat) (op : FabOp) : (setOp id op d).blocks = d.blocks := rfl
@[simp] theorem setOp_units (id : Nat) (op : FabOp) : (setOp id op d).units = d.units := rfl
@[simp] theorem setOp_piste (id : Nat) (op : FabOp) : (setOp id op d).piste = d.piste := rfl
@[simp] theorem setOp_ports (id : Nat) (op : FabOp) : (setOp id op d).ports = d.ports := rfl
@[simp] theorem setOp_sentFlits (id : Nat) (op : FabOp) : (setOp id op d).sentFlits = d.sentFlits := rfl
@[simp] theorem setOp_runs (id : Nat) (op : FabOp) : (setOp id op d).runs = d.runs := rfl
@[simp] theorem setOp_seq (id : Nat) (op : FabOp) : (setOp id op d).seq = d.seq := rfl
@[simp] theorem setOp_ckpt (id : Nat) (op : FabOp) : (setOp id op d).ckpt = d.ckpt := rfl
@[simp] theorem setOp_faults (id : Nat) (op : FabOp) : (setOp id op d).faults = d.faults := rfl
@[simp] theorem setOp_hv (id : Nat) (op : FabOp) : (setOp id op d).hv = d.hv := rfl
@[simp] theorem setOp_sec (id : Nat) (op : FabOp) : (setOp id op d).sec = d.sec := rfl
@[simp] theorem setOp_pow (id : Nat) (op : FabOp) : (setOp id op d).pow = d.pow := rfl
@[simp] theorem setOp_sent (id : Nat) (op : FabOp) : (setOp id op d).sent = d.sent := rfl
@[simp] theorem setOp_free (id : Nat) (op : FabOp) : (setOp id op d).free = d.free := rfl

@[simp] theorem setQueue_od (q : Nat) (x : FabQueue) : (setQueue q x d).od = d.od := rfl
@[simp] theorem setQueue_odBytes (q : Nat) (x : FabQueue) : (setQueue q x d).odBytes = d.odBytes := rfl
@[simp] theorem setQueue_installed (q : Nat) (x : FabQueue) : (setQueue q x d).installed = d.installed := rfl
@[simp] theorem setQueue_installedBytes (q : Nat) (x : FabQueue) : (setQueue q x d).installedBytes = d.installedBytes := rfl
@[simp] theorem setQueue_tick (q : Nat) (x : FabQueue) : (setQueue q x d).tick = d.tick := rfl
@[simp] theorem setQueue_ev (q : Nat) (x : FabQueue) : (setQueue q x d).ev = d.ev := rfl
@[simp] theorem setQueue_mem (q : Nat) (x : FabQueue) : (setQueue q x d).mem = d.mem := rfl
@[simp] theorem setQueue_grids (q : Nat) (x : FabQueue) : (setQueue q x d).grids = d.grids := rfl
@[simp] theorem setQueue_nextGrid (q : Nat) (x : FabQueue) : (setQueue q x d).nextGrid = d.nextGrid := rfl
@[simp] theorem setQueue_blocks (q : Nat) (x : FabQueue) : (setQueue q x d).blocks = d.blocks := rfl
@[simp] theorem setQueue_units (q : Nat) (x : FabQueue) : (setQueue q x d).units = d.units := rfl
@[simp] theorem setQueue_piste (q : Nat) (x : FabQueue) : (setQueue q x d).piste = d.piste := rfl
@[simp] theorem setQueue_ports (q : Nat) (x : FabQueue) : (setQueue q x d).ports = d.ports := rfl
@[simp] theorem setQueue_sentFlits (q : Nat) (x : FabQueue) : (setQueue q x d).sentFlits = d.sentFlits := rfl
@[simp] theorem setQueue_runs (q : Nat) (x : FabQueue) : (setQueue q x d).runs = d.runs := rfl
@[simp] theorem setQueue_seq (q : Nat) (x : FabQueue) : (setQueue q x d).seq = d.seq := rfl
@[simp] theorem setQueue_ckpt (q : Nat) (x : FabQueue) : (setQueue q x d).ckpt = d.ckpt := rfl
@[simp] theorem setQueue_faults (q : Nat) (x : FabQueue) : (setQueue q x d).faults = d.faults := rfl
@[simp] theorem setQueue_hv (q : Nat) (x : FabQueue) : (setQueue q x d).hv = d.hv := rfl
@[simp] theorem setQueue_sec (q : Nat) (x : FabQueue) : (setQueue q x d).sec = d.sec := rfl
@[simp] theorem setQueue_pow (q : Nat) (x : FabQueue) : (setQueue q x d).pow = d.pow := rfl
@[simp] theorem setQueue_sent (q : Nat) (x : FabQueue) : (setQueue q x d).sent = d.sent := rfl
@[simp] theorem setQueue_free (q : Nat) (x : FabQueue) : (setQueue q x d).free = d.free := rfl

@[simp] theorem setPort_od (p : Nat) (x : Port) : (setPort p x d).od = d.od := rfl
@[simp] theorem setPort_odBytes (p : Nat) (x : Port) : (setPort p x d).odBytes = d.odBytes := rfl
@[simp] theorem setPort_installed (p : Nat) (x : Port) : (setPort p x d).installed = d.installed := rfl
@[simp] theorem setPort_installedBytes (p : Nat) (x : Port) : (setPort p x d).installedBytes = d.installedBytes := rfl
@[simp] theorem setPort_tick (p : Nat) (x : Port) : (setPort p x d).tick = d.tick := rfl
@[simp] theorem setPort_ev (p : Nat) (x : Port) : (setPort p x d).ev = d.ev := rfl
@[simp] theorem setPort_mem (p : Nat) (x : Port) : (setPort p x d).mem = d.mem := rfl
@[simp] theorem setPort_grids (p : Nat) (x : Port) : (setPort p x d).grids = d.grids := rfl
@[simp] theorem setPort_nextGrid (p : Nat) (x : Port) : (setPort p x d).nextGrid = d.nextGrid := rfl
@[simp] theorem setPort_blocks (p : Nat) (x : Port) : (setPort p x d).blocks = d.blocks := rfl
@[simp] theorem setPort_units (p : Nat) (x : Port) : (setPort p x d).units = d.units := rfl
@[simp] theorem setPort_piste (p : Nat) (x : Port) : (setPort p x d).piste = d.piste := rfl
@[simp] theorem setPort_tw (p : Nat) (x : Port) : (setPort p x d).tw = d.tw := rfl
@[simp] theorem setPort_ports (p : Nat) (x : Port) : (setPort p x d).ports = mput Port.new d.ports p x := rfl
@[simp] theorem setPort_sentFlits (p : Nat) (x : Port) : (setPort p x d).sentFlits = d.sentFlits := rfl
@[simp] theorem setPort_runs (p : Nat) (x : Port) : (setPort p x d).runs = d.runs := rfl
@[simp] theorem setPort_seq (p : Nat) (x : Port) : (setPort p x d).seq = d.seq := rfl
@[simp] theorem setPort_ckpt (p : Nat) (x : Port) : (setPort p x d).ckpt = d.ckpt := rfl
@[simp] theorem setPort_faults (p : Nat) (x : Port) : (setPort p x d).faults = d.faults := rfl
@[simp] theorem setPort_hv (p : Nat) (x : Port) : (setPort p x d).hv = d.hv := rfl
@[simp] theorem setPort_sec (p : Nat) (x : Port) : (setPort p x d).sec = d.sec := rfl
@[simp] theorem setPort_pow (p : Nat) (x : Port) : (setPort p x d).pow = d.pow := rfl
@[simp] theorem setPort_sent (p : Nat) (x : Port) : (setPort p x d).sent = d.sent := rfl
@[simp] theorem setPort_free (p : Nat) (x : Port) : (setPort p x d).free = d.free := rfl

@[simp] theorem setUnit_od (k : Nat) (u : ExecUnit) : (setUnit k u d).od = d.od := rfl
@[simp] theorem setUnit_odBytes (k : Nat) (u : ExecUnit) : (setUnit k u d).odBytes = d.odBytes := rfl
@[simp] theorem setUnit_installed (k : Nat) (u : ExecUnit) : (setUnit k u d).installed = d.installed := rfl
@[simp] theorem setUnit_installedBytes (k : Nat) (u : ExecUnit) : (setUnit k u d).installedBytes = d.installedBytes := rfl
@[simp] theorem setUnit_tick (k : Nat) (u : ExecUnit) : (setUnit k u d).tick = d.tick := rfl
@[simp] theorem setUnit_ev (k : Nat) (u : ExecUnit) : (setUnit k u d).ev = d.ev := rfl
@[simp] theorem setUnit_mem (k : Nat) (u : ExecUnit) : (setUnit k u d).mem = d.mem := rfl
@[simp] theorem setUnit_grids (k : Nat) (u : ExecUnit) : (setUnit k u d).grids = d.grids := rfl
@[simp] theorem setUnit_nextGrid (k : Nat) (u : ExecUnit) : (setUnit k u d).nextGrid = d.nextGrid := rfl
@[simp] theorem setUnit_blocks (k : Nat) (u : ExecUnit) : (setUnit k u d).blocks = d.blocks := rfl
@[simp] theorem setUnit_units (k : Nat) (u : ExecUnit) : (setUnit k u d).units = mput ExecUnit.empty d.units k u := rfl
@[simp] theorem setUnit_piste (k : Nat) (u : ExecUnit) : (setUnit k u d).piste = d.piste := rfl
@[simp] theorem setUnit_tw (k : Nat) (u : ExecUnit) : (setUnit k u d).tw = d.tw := rfl
@[simp] theorem setUnit_ports (k : Nat) (u : ExecUnit) : (setUnit k u d).ports = d.ports := rfl
@[simp] theorem setUnit_sentFlits (k : Nat) (u : ExecUnit) : (setUnit k u d).sentFlits = d.sentFlits := rfl
@[simp] theorem setUnit_runs (k : Nat) (u : ExecUnit) : (setUnit k u d).runs = d.runs := rfl
@[simp] theorem setUnit_seq (k : Nat) (u : ExecUnit) : (setUnit k u d).seq = d.seq := rfl
@[simp] theorem setUnit_ckpt (k : Nat) (u : ExecUnit) : (setUnit k u d).ckpt = d.ckpt := rfl
@[simp] theorem setUnit_faults (k : Nat) (u : ExecUnit) : (setUnit k u d).faults = d.faults := rfl
@[simp] theorem setUnit_hv (k : Nat) (u : ExecUnit) : (setUnit k u d).hv = d.hv := rfl
@[simp] theorem setUnit_sec (k : Nat) (u : ExecUnit) : (setUnit k u d).sec = d.sec := rfl
@[simp] theorem setUnit_pow (k : Nat) (u : ExecUnit) : (setUnit k u d).pow = d.pow := rfl
@[simp] theorem setUnit_sent (k : Nat) (u : ExecUnit) : (setUnit k u d).sent = d.sent := rfl
@[simp] theorem setUnit_free (k : Nat) (u : ExecUnit) : (setUnit k u d).free = d.free := rfl

@[simp] theorem setPiste_od (core : Nat) (u : ExecUnit) : (setPiste core u d).od = d.od := rfl
@[simp] theorem setPiste_odBytes (core : Nat) (u : ExecUnit) : (setPiste core u d).odBytes = d.odBytes := rfl
@[simp] theorem setPiste_installed (core : Nat) (u : ExecUnit) : (setPiste core u d).installed = d.installed := rfl
@[simp] theorem setPiste_installedBytes (core : Nat) (u : ExecUnit) : (setPiste core u d).installedBytes = d.installedBytes := rfl
@[simp] theorem setPiste_tick (core : Nat) (u : ExecUnit) : (setPiste core u d).tick = d.tick := rfl
@[simp] theorem setPiste_ev (core : Nat) (u : ExecUnit) : (setPiste core u d).ev = d.ev := rfl
@[simp] theorem setPiste_mem (core : Nat) (u : ExecUnit) : (setPiste core u d).mem = d.mem := rfl
@[simp] theorem setPiste_grids (core : Nat) (u : ExecUnit) : (setPiste core u d).grids = d.grids := rfl
@[simp] theorem setPiste_nextGrid (core : Nat) (u : ExecUnit) : (setPiste core u d).nextGrid = d.nextGrid := rfl
@[simp] theorem setPiste_blocks (core : Nat) (u : ExecUnit) : (setPiste core u d).blocks = d.blocks := rfl
@[simp] theorem setPiste_units (core : Nat) (u : ExecUnit) : (setPiste core u d).units = d.units := rfl
@[simp] theorem setPiste_piste (core : Nat) (u : ExecUnit) : (setPiste core u d).piste = mput ExecUnit.empty d.piste core u := rfl
@[simp] theorem setPiste_tw (core : Nat) (u : ExecUnit) : (setPiste core u d).tw = d.tw := rfl
@[simp] theorem setPiste_ports (core : Nat) (u : ExecUnit) : (setPiste core u d).ports = d.ports := rfl
@[simp] theorem setPiste_sentFlits (core : Nat) (u : ExecUnit) : (setPiste core u d).sentFlits = d.sentFlits := rfl
@[simp] theorem setPiste_runs (core : Nat) (u : ExecUnit) : (setPiste core u d).runs = d.runs := rfl
@[simp] theorem setPiste_seq (core : Nat) (u : ExecUnit) : (setPiste core u d).seq = d.seq := rfl
@[simp] theorem setPiste_ckpt (core : Nat) (u : ExecUnit) : (setPiste core u d).ckpt = d.ckpt := rfl
@[simp] theorem setPiste_faults (core : Nat) (u : ExecUnit) : (setPiste core u d).faults = d.faults := rfl
@[simp] theorem setPiste_hv (core : Nat) (u : ExecUnit) : (setPiste core u d).hv = d.hv := rfl
@[simp] theorem setPiste_sec (core : Nat) (u : ExecUnit) : (setPiste core u d).sec = d.sec := rfl
@[simp] theorem setPiste_pow (core : Nat) (u : ExecUnit) : (setPiste core u d).pow = d.pow := rfl
@[simp] theorem setPiste_sent (core : Nat) (u : ExecUnit) : (setPiste core u d).sent = d.sent := rfl
@[simp] theorem setPiste_free (core : Nat) (u : ExecUnit) : (setPiste core u d).free = d.free := rfl

@[simp] theorem setCxl_od (e : Nat) (x : CxlPort) : (setCxl e x d).od = d.od := rfl
@[simp] theorem setCxl_odBytes (e : Nat) (x : CxlPort) : (setCxl e x d).odBytes = d.odBytes := rfl
@[simp] theorem setCxl_installed (e : Nat) (x : CxlPort) : (setCxl e x d).installed = d.installed := rfl
@[simp] theorem setCxl_installedBytes (e : Nat) (x : CxlPort) : (setCxl e x d).installedBytes = d.installedBytes := rfl
@[simp] theorem setCxl_tick (e : Nat) (x : CxlPort) : (setCxl e x d).tick = d.tick := rfl
@[simp] theorem setCxl_ev (e : Nat) (x : CxlPort) : (setCxl e x d).ev = d.ev := rfl
@[simp] theorem setCxl_grids (e : Nat) (x : CxlPort) : (setCxl e x d).grids = d.grids := rfl
@[simp] theorem setCxl_nextGrid (e : Nat) (x : CxlPort) : (setCxl e x d).nextGrid = d.nextGrid := rfl
@[simp] theorem setCxl_blocks (e : Nat) (x : CxlPort) : (setCxl e x d).blocks = d.blocks := rfl
@[simp] theorem setCxl_units (e : Nat) (x : CxlPort) : (setCxl e x d).units = d.units := rfl
@[simp] theorem setCxl_piste (e : Nat) (x : CxlPort) : (setCxl e x d).piste = d.piste := rfl
@[simp] theorem setCxl_tw (e : Nat) (x : CxlPort) : (setCxl e x d).tw = d.tw := rfl
@[simp] theorem setCxl_ports (e : Nat) (x : CxlPort) : (setCxl e x d).ports = d.ports := rfl
@[simp] theorem setCxl_sentFlits (e : Nat) (x : CxlPort) : (setCxl e x d).sentFlits = d.sentFlits := rfl
@[simp] theorem setCxl_runs (e : Nat) (x : CxlPort) : (setCxl e x d).runs = d.runs := rfl
@[simp] theorem setCxl_seq (e : Nat) (x : CxlPort) : (setCxl e x d).seq = d.seq := rfl
@[simp] theorem setCxl_ckpt (e : Nat) (x : CxlPort) : (setCxl e x d).ckpt = d.ckpt := rfl
@[simp] theorem setCxl_faults (e : Nat) (x : CxlPort) : (setCxl e x d).faults = d.faults := rfl
@[simp] theorem setCxl_hv (e : Nat) (x : CxlPort) : (setCxl e x d).hv = d.hv := rfl
@[simp] theorem setCxl_sec (e : Nat) (x : CxlPort) : (setCxl e x d).sec = d.sec := rfl
@[simp] theorem setCxl_pow (e : Nat) (x : CxlPort) : (setCxl e x d).pow = d.pow := rfl
@[simp] theorem setCxl_sent (e : Nat) (x : CxlPort) : (setCxl e x d).sent = d.sent := rfl
@[simp] theorem setCxl_free (e : Nat) (x : CxlPort) : (setCxl e x d).free = d.free := rfl

@[simp] theorem setSlot_od (n : Nat) (x : InSlot) : (setSlot n x d).od = d.od := rfl
@[simp] theorem setSlot_odBytes (n : Nat) (x : InSlot) : (setSlot n x d).odBytes = d.odBytes := rfl
@[simp] theorem setSlot_installed (n : Nat) (x : InSlot) : (setSlot n x d).installed = d.installed := rfl
@[simp] theorem setSlot_installedBytes (n : Nat) (x : InSlot) : (setSlot n x d).installedBytes = d.installedBytes := rfl
@[simp] theorem setSlot_tick (n : Nat) (x : InSlot) : (setSlot n x d).tick = d.tick := rfl
@[simp] theorem setSlot_ev (n : Nat) (x : InSlot) : (setSlot n x d).ev = d.ev := rfl
@[simp] theorem setSlot_mem (n : Nat) (x : InSlot) : (setSlot n x d).mem = d.mem := rfl
@[simp] theorem setSlot_grids (n : Nat) (x : InSlot) : (setSlot n x d).grids = d.grids := rfl
@[simp] theorem setSlot_nextGrid (n : Nat) (x : InSlot) : (setSlot n x d).nextGrid = d.nextGrid := rfl
@[simp] theorem setSlot_blocks (n : Nat) (x : InSlot) : (setSlot n x d).blocks = d.blocks := rfl
@[simp] theorem setSlot_units (n : Nat) (x : InSlot) : (setSlot n x d).units = d.units := rfl
@[simp] theorem setSlot_piste (n : Nat) (x : InSlot) : (setSlot n x d).piste = d.piste := rfl
@[simp] theorem setSlot_tw (n : Nat) (x : InSlot) : (setSlot n x d).tw = d.tw := rfl
@[simp] theorem setSlot_ports (n : Nat) (x : InSlot) : (setSlot n x d).ports = d.ports := rfl
@[simp] theorem setSlot_sentFlits (n : Nat) (x : InSlot) : (setSlot n x d).sentFlits = d.sentFlits := rfl
@[simp] theorem setSlot_runs (n : Nat) (x : InSlot) : (setSlot n x d).runs = d.runs := rfl
@[simp] theorem setSlot_seq (n : Nat) (x : InSlot) : (setSlot n x d).seq = d.seq := rfl
@[simp] theorem setSlot_ckpt (n : Nat) (x : InSlot) : (setSlot n x d).ckpt = d.ckpt := rfl
@[simp] theorem setSlot_faults (n : Nat) (x : InSlot) : (setSlot n x d).faults = d.faults := rfl
@[simp] theorem setSlot_sec (n : Nat) (x : InSlot) : (setSlot n x d).sec = d.sec := rfl
@[simp] theorem setSlot_pow (n : Nat) (x : InSlot) : (setSlot n x d).pow = d.pow := rfl
@[simp] theorem setSlot_sent (n : Nat) (x : InSlot) : (setSlot n x d).sent = d.sent := rfl
@[simp] theorem setSlot_free (n : Nat) (x : InSlot) : (setSlot n x d).free = d.free := rfl

@[simp] theorem busAnswer_od (st : Status) (v : Nat) : (busAnswer st v d).od = d.od := rfl
@[simp] theorem busAnswer_odBytes (st : Status) (v : Nat) : (busAnswer st v d).odBytes = d.odBytes := rfl
@[simp] theorem busAnswer_installed (st : Status) (v : Nat) : (busAnswer st v d).installed = d.installed := rfl
@[simp] theorem busAnswer_installedBytes (st : Status) (v : Nat) : (busAnswer st v d).installedBytes = d.installedBytes := rfl
@[simp] theorem busAnswer_tick (st : Status) (v : Nat) : (busAnswer st v d).tick = d.tick := rfl
@[simp] theorem busAnswer_ev (st : Status) (v : Nat) : (busAnswer st v d).ev = d.ev := rfl
@[simp] theorem busAnswer_mem (st : Status) (v : Nat) : (busAnswer st v d).mem = d.mem := rfl
@[simp] theorem busAnswer_grids (st : Status) (v : Nat) : (busAnswer st v d).grids = d.grids := rfl
@[simp] theorem busAnswer_nextGrid (st : Status) (v : Nat) : (busAnswer st v d).nextGrid = d.nextGrid := rfl
@[simp] theorem busAnswer_blocks (st : Status) (v : Nat) : (busAnswer st v d).blocks = d.blocks := rfl
@[simp] theorem busAnswer_units (st : Status) (v : Nat) : (busAnswer st v d).units = d.units := rfl
@[simp] theorem busAnswer_piste (st : Status) (v : Nat) : (busAnswer st v d).piste = d.piste := rfl
@[simp] theorem busAnswer_tw (st : Status) (v : Nat) : (busAnswer st v d).tw = d.tw := rfl
@[simp] theorem busAnswer_ports (st : Status) (v : Nat) : (busAnswer st v d).ports = d.ports := rfl
@[simp] theorem busAnswer_sentFlits (st : Status) (v : Nat) : (busAnswer st v d).sentFlits = d.sentFlits := rfl
@[simp] theorem busAnswer_runs (st : Status) (v : Nat) : (busAnswer st v d).runs = d.runs := rfl
@[simp] theorem busAnswer_seq (st : Status) (v : Nat) : (busAnswer st v d).seq = d.seq := rfl
@[simp] theorem busAnswer_ckpt (st : Status) (v : Nat) : (busAnswer st v d).ckpt = d.ckpt := rfl
@[simp] theorem busAnswer_faults (st : Status) (v : Nat) : (busAnswer st v d).faults = d.faults := rfl
@[simp] theorem busAnswer_sec (st : Status) (v : Nat) : (busAnswer st v d).sec = d.sec := rfl
@[simp] theorem busAnswer_pow (st : Status) (v : Nat) : (busAnswer st v d).pow = d.pow := rfl
@[simp] theorem busAnswer_sent (st : Status) (v : Nat) : (busAnswer st v d).sent = d.sent := rfl
@[simp] theorem busAnswer_free (st : Status) (v : Nat) : (busAnswer st v d).free = d.free := rfl

@[simp] theorem setUpdate_od (u : UpdateRun) : (setUpdate u d).od = d.od := rfl
@[simp] theorem setUpdate_odBytes (u : UpdateRun) : (setUpdate u d).odBytes = d.odBytes := rfl
@[simp] theorem setUpdate_installed (u : UpdateRun) : (setUpdate u d).installed = d.installed := rfl
@[simp] theorem setUpdate_installedBytes (u : UpdateRun) : (setUpdate u d).installedBytes = d.installedBytes := rfl
@[simp] theorem setUpdate_tick (u : UpdateRun) : (setUpdate u d).tick = d.tick := rfl
@[simp] theorem setUpdate_ev (u : UpdateRun) : (setUpdate u d).ev = d.ev := rfl
@[simp] theorem setUpdate_mem (u : UpdateRun) : (setUpdate u d).mem = d.mem := rfl
@[simp] theorem setUpdate_grids (u : UpdateRun) : (setUpdate u d).grids = d.grids := rfl
@[simp] theorem setUpdate_nextGrid (u : UpdateRun) : (setUpdate u d).nextGrid = d.nextGrid := rfl
@[simp] theorem setUpdate_blocks (u : UpdateRun) : (setUpdate u d).blocks = d.blocks := rfl
@[simp] theorem setUpdate_units (u : UpdateRun) : (setUpdate u d).units = d.units := rfl
@[simp] theorem setUpdate_piste (u : UpdateRun) : (setUpdate u d).piste = d.piste := rfl
@[simp] theorem setUpdate_tw (u : UpdateRun) : (setUpdate u d).tw = d.tw := rfl
@[simp] theorem setUpdate_ports (u : UpdateRun) : (setUpdate u d).ports = d.ports := rfl
@[simp] theorem setUpdate_sentFlits (u : UpdateRun) : (setUpdate u d).sentFlits = d.sentFlits := rfl
@[simp] theorem setUpdate_runs (u : UpdateRun) : (setUpdate u d).runs = d.runs := rfl
@[simp] theorem setUpdate_seq (u : UpdateRun) : (setUpdate u d).seq = d.seq := rfl
@[simp] theorem setUpdate_ckpt (u : UpdateRun) : (setUpdate u d).ckpt = d.ckpt := rfl
@[simp] theorem setUpdate_faults (u : UpdateRun) : (setUpdate u d).faults = d.faults := rfl
@[simp] theorem setUpdate_sec (u : UpdateRun) : (setUpdate u d).sec = d.sec := rfl
@[simp] theorem setUpdate_pow (u : UpdateRun) : (setUpdate u d).pow = d.pow := rfl
@[simp] theorem setUpdate_sent (u : UpdateRun) : (setUpdate u d).sent = d.sent := rfl
@[simp] theorem setUpdate_free (u : UpdateRun) : (setUpdate u d).free = d.free := rfl

@[simp] theorem setCursor_od (c : Client) (n : Nat) : (setCursor c n d).od = d.od := rfl
@[simp] theorem setCursor_odBytes (c : Client) (n : Nat) : (setCursor c n d).odBytes = d.odBytes := rfl
@[simp] theorem setCursor_installed (c : Client) (n : Nat) : (setCursor c n d).installed = d.installed := rfl
@[simp] theorem setCursor_installedBytes (c : Client) (n : Nat) : (setCursor c n d).installedBytes = d.installedBytes := rfl
@[simp] theorem setCursor_tick (c : Client) (n : Nat) : (setCursor c n d).tick = d.tick := rfl
@[simp] theorem setCursor_ev (c : Client) (n : Nat) : (setCursor c n d).ev = d.ev := rfl
@[simp] theorem setCursor_mem (c : Client) (n : Nat) : (setCursor c n d).mem = d.mem := rfl
@[simp] theorem setCursor_grids (c : Client) (n : Nat) : (setCursor c n d).grids = d.grids := rfl
@[simp] theorem setCursor_nextGrid (c : Client) (n : Nat) : (setCursor c n d).nextGrid = d.nextGrid := rfl
@[simp] theorem setCursor_blocks (c : Client) (n : Nat) : (setCursor c n d).blocks = d.blocks := rfl
@[simp] theorem setCursor_units (c : Client) (n : Nat) : (setCursor c n d).units = d.units := rfl
@[simp] theorem setCursor_piste (c : Client) (n : Nat) : (setCursor c n d).piste = d.piste := rfl
@[simp] theorem setCursor_tw (c : Client) (n : Nat) : (setCursor c n d).tw = d.tw := rfl
@[simp] theorem setCursor_ports (c : Client) (n : Nat) : (setCursor c n d).ports = d.ports := rfl
@[simp] theorem setCursor_sentFlits (c : Client) (n : Nat) : (setCursor c n d).sentFlits = d.sentFlits := rfl
@[simp] theorem setCursor_runs (c : Client) (n : Nat) : (setCursor c n d).runs = d.runs := rfl
@[simp] theorem setCursor_seq (c : Client) (n : Nat) : (setCursor c n d).seq = d.seq := rfl
@[simp] theorem setCursor_ckpt (c : Client) (n : Nat) : (setCursor c n d).ckpt = d.ckpt := rfl
@[simp] theorem setCursor_faults (c : Client) (n : Nat) : (setCursor c n d).faults = d.faults := rfl
@[simp] theorem setCursor_sec (c : Client) (n : Nat) : (setCursor c n d).sec = d.sec := rfl
@[simp] theorem setCursor_pow (c : Client) (n : Nat) : (setCursor c n d).pow = d.pow := rfl
@[simp] theorem setCursor_sent (c : Client) (n : Nat) : (setCursor c n d).sent = d.sent := rfl
@[simp] theorem setCursor_free (c : Client) (n : Nat) : (setCursor c n d).free = d.free := rfl

@[simp] theorem dropHandshake_od (n : Nat) : (dropHandshake n d).od = d.od := rfl
@[simp] theorem dropHandshake_odBytes (n : Nat) : (dropHandshake n d).odBytes = d.odBytes := rfl
@[simp] theorem dropHandshake_installed (n : Nat) : (dropHandshake n d).installed = d.installed := rfl
@[simp] theorem dropHandshake_installedBytes (n : Nat) : (dropHandshake n d).installedBytes = d.installedBytes := rfl
@[simp] theorem dropHandshake_tick (n : Nat) : (dropHandshake n d).tick = d.tick := rfl
@[simp] theorem dropHandshake_ev (n : Nat) : (dropHandshake n d).ev = d.ev := rfl
@[simp] theorem dropHandshake_mem (n : Nat) : (dropHandshake n d).mem = d.mem := rfl
@[simp] theorem dropHandshake_grids (n : Nat) : (dropHandshake n d).grids = d.grids := rfl
@[simp] theorem dropHandshake_nextGrid (n : Nat) : (dropHandshake n d).nextGrid = d.nextGrid := rfl
@[simp] theorem dropHandshake_blocks (n : Nat) : (dropHandshake n d).blocks = d.blocks := rfl
@[simp] theorem dropHandshake_units (n : Nat) : (dropHandshake n d).units = d.units := rfl
@[simp] theorem dropHandshake_piste (n : Nat) : (dropHandshake n d).piste = d.piste := rfl
@[simp] theorem dropHandshake_tw (n : Nat) : (dropHandshake n d).tw = d.tw := rfl
@[simp] theorem dropHandshake_ports (n : Nat) : (dropHandshake n d).ports = d.ports := rfl
@[simp] theorem dropHandshake_sentFlits (n : Nat) : (dropHandshake n d).sentFlits = d.sentFlits := rfl
@[simp] theorem dropHandshake_runs (n : Nat) : (dropHandshake n d).runs = d.runs := rfl
@[simp] theorem dropHandshake_seq (n : Nat) : (dropHandshake n d).seq = d.seq := rfl
@[simp] theorem dropHandshake_ckpt (n : Nat) : (dropHandshake n d).ckpt = d.ckpt := rfl
@[simp] theorem dropHandshake_faults (n : Nat) : (dropHandshake n d).faults = d.faults := rfl
@[simp] theorem dropHandshake_sec (n : Nat) : (dropHandshake n d).sec = d.sec := rfl
@[simp] theorem dropHandshake_pow (n : Nat) : (dropHandshake n d).pow = d.pow := rfl
@[simp] theorem dropHandshake_sent (n : Nat) : (dropHandshake n d).sent = d.sent := rfl
@[simp] theorem dropHandshake_free (n : Nat) : (dropHandshake n d).free = d.free := rfl

@[simp] theorem abandonFor_od (n : Nat) : (abandonFor n d).od = d.od := rfl
@[simp] theorem abandonFor_odBytes (n : Nat) : (abandonFor n d).odBytes = d.odBytes := rfl
@[simp] theorem abandonFor_installed (n : Nat) : (abandonFor n d).installed = d.installed := rfl
@[simp] theorem abandonFor_installedBytes (n : Nat) : (abandonFor n d).installedBytes = d.installedBytes := rfl
@[simp] theorem abandonFor_tick (n : Nat) : (abandonFor n d).tick = d.tick := rfl
@[simp] theorem abandonFor_ev (n : Nat) : (abandonFor n d).ev = d.ev := rfl
@[simp] theorem abandonFor_mem (n : Nat) : (abandonFor n d).mem = d.mem := rfl
@[simp] theorem abandonFor_grids (n : Nat) : (abandonFor n d).grids = d.grids := rfl
@[simp] theorem abandonFor_nextGrid (n : Nat) : (abandonFor n d).nextGrid = d.nextGrid := rfl
@[simp] theorem abandonFor_blocks (n : Nat) : (abandonFor n d).blocks = d.blocks := rfl
@[simp] theorem abandonFor_units (n : Nat) : (abandonFor n d).units = d.units := rfl
@[simp] theorem abandonFor_piste (n : Nat) : (abandonFor n d).piste = d.piste := rfl
@[simp] theorem abandonFor_tw (n : Nat) : (abandonFor n d).tw = d.tw := rfl
@[simp] theorem abandonFor_ports (n : Nat) : (abandonFor n d).ports = d.ports := rfl
@[simp] theorem abandonFor_sentFlits (n : Nat) : (abandonFor n d).sentFlits = d.sentFlits := rfl
@[simp] theorem abandonFor_runs (n : Nat) : (abandonFor n d).runs = d.runs := rfl
@[simp] theorem abandonFor_ckpt (n : Nat) : (abandonFor n d).ckpt = d.ckpt := rfl
@[simp] theorem abandonFor_faults (n : Nat) : (abandonFor n d).faults = d.faults := rfl
@[simp] theorem abandonFor_hv (n : Nat) : (abandonFor n d).hv = d.hv := rfl
@[simp] theorem abandonFor_sec (n : Nat) : (abandonFor n d).sec = d.sec := rfl
@[simp] theorem abandonFor_pow (n : Nat) : (abandonFor n d).pow = d.pow := rfl
@[simp] theorem abandonFor_sent (n : Nat) : (abandonFor n d).sent = d.sent := rfl
@[simp] theorem abandonFor_free (n : Nat) : (abandonFor n d).free = d.free := rfl

@[simp] theorem setIncoming_od (i : Option Incoming) : (setIncoming i d).od = d.od := rfl
@[simp] theorem setIncoming_odBytes (i : Option Incoming) : (setIncoming i d).odBytes = d.odBytes := rfl
@[simp] theorem setIncoming_installed (i : Option Incoming) : (setIncoming i d).installed = d.installed := rfl
@[simp] theorem setIncoming_installedBytes (i : Option Incoming) : (setIncoming i d).installedBytes = d.installedBytes := rfl
@[simp] theorem setIncoming_tick (i : Option Incoming) : (setIncoming i d).tick = d.tick := rfl
@[simp] theorem setIncoming_ev (i : Option Incoming) : (setIncoming i d).ev = d.ev := rfl
@[simp] theorem setIncoming_mem (i : Option Incoming) : (setIncoming i d).mem = d.mem := rfl
@[simp] theorem setIncoming_grids (i : Option Incoming) : (setIncoming i d).grids = d.grids := rfl
@[simp] theorem setIncoming_nextGrid (i : Option Incoming) : (setIncoming i d).nextGrid = d.nextGrid := rfl
@[simp] theorem setIncoming_blocks (i : Option Incoming) : (setIncoming i d).blocks = d.blocks := rfl
@[simp] theorem setIncoming_units (i : Option Incoming) : (setIncoming i d).units = d.units := rfl
@[simp] theorem setIncoming_piste (i : Option Incoming) : (setIncoming i d).piste = d.piste := rfl
@[simp] theorem setIncoming_tw (i : Option Incoming) : (setIncoming i d).tw = d.tw := rfl
@[simp] theorem setIncoming_ports (i : Option Incoming) : (setIncoming i d).ports = d.ports := rfl
@[simp] theorem setIncoming_sentFlits (i : Option Incoming) : (setIncoming i d).sentFlits = d.sentFlits := rfl
@[simp] theorem setIncoming_runs (i : Option Incoming) : (setIncoming i d).runs = d.runs := rfl
@[simp] theorem setIncoming_seq (i : Option Incoming) : (setIncoming i d).seq = d.seq := rfl
@[simp] theorem setIncoming_faults (i : Option Incoming) : (setIncoming i d).faults = d.faults := rfl
@[simp] theorem setIncoming_hv (i : Option Incoming) : (setIncoming i d).hv = d.hv := rfl
@[simp] theorem setIncoming_sec (i : Option Incoming) : (setIncoming i d).sec = d.sec := rfl
@[simp] theorem setIncoming_pow (i : Option Incoming) : (setIncoming i d).pow = d.pow := rfl
@[simp] theorem setIncoming_sent (i : Option Incoming) : (setIncoming i d).sent = d.sent := rfl
@[simp] theorem setIncoming_free (i : Option Incoming) : (setIncoming i d).free = d.free := rfl

@[simp] theorem modCopy_od (f : OwnCopy → OwnCopy) : (modCopy f d).od = d.od := rfl
@[simp] theorem modCopy_odBytes (f : OwnCopy → OwnCopy) : (modCopy f d).odBytes = d.odBytes := rfl
@[simp] theorem modCopy_installed (f : OwnCopy → OwnCopy) : (modCopy f d).installed = d.installed := rfl
@[simp] theorem modCopy_installedBytes (f : OwnCopy → OwnCopy) : (modCopy f d).installedBytes = d.installedBytes := rfl
@[simp] theorem modCopy_tick (f : OwnCopy → OwnCopy) : (modCopy f d).tick = d.tick := rfl
@[simp] theorem modCopy_ev (f : OwnCopy → OwnCopy) : (modCopy f d).ev = d.ev := rfl
@[simp] theorem modCopy_mem (f : OwnCopy → OwnCopy) : (modCopy f d).mem = d.mem := rfl
@[simp] theorem modCopy_grids (f : OwnCopy → OwnCopy) : (modCopy f d).grids = d.grids := rfl
@[simp] theorem modCopy_nextGrid (f : OwnCopy → OwnCopy) : (modCopy f d).nextGrid = d.nextGrid := rfl
@[simp] theorem modCopy_blocks (f : OwnCopy → OwnCopy) : (modCopy f d).blocks = d.blocks := rfl
@[simp] theorem modCopy_units (f : OwnCopy → OwnCopy) : (modCopy f d).units = d.units := rfl
@[simp] theorem modCopy_piste (f : OwnCopy → OwnCopy) : (modCopy f d).piste = d.piste := rfl
@[simp] theorem modCopy_tw (f : OwnCopy → OwnCopy) : (modCopy f d).tw = d.tw := rfl
@[simp] theorem modCopy_ports (f : OwnCopy → OwnCopy) : (modCopy f d).ports = d.ports := rfl
@[simp] theorem modCopy_sentFlits (f : OwnCopy → OwnCopy) : (modCopy f d).sentFlits = d.sentFlits := rfl
@[simp] theorem modCopy_runs (f : OwnCopy → OwnCopy) : (modCopy f d).runs = d.runs := rfl
@[simp] theorem modCopy_seq (f : OwnCopy → OwnCopy) : (modCopy f d).seq = d.seq := rfl
@[simp] theorem modCopy_faults (f : OwnCopy → OwnCopy) : (modCopy f d).faults = d.faults := rfl
@[simp] theorem modCopy_hv (f : OwnCopy → OwnCopy) : (modCopy f d).hv = d.hv := rfl
@[simp] theorem modCopy_sec (f : OwnCopy → OwnCopy) : (modCopy f d).sec = d.sec := rfl
@[simp] theorem modCopy_pow (f : OwnCopy → OwnCopy) : (modCopy f d).pow = d.pow := rfl
@[simp] theorem modCopy_sent (f : OwnCopy → OwnCopy) : (modCopy f d).sent = d.sent := rfl
@[simp] theorem modCopy_free (f : OwnCopy → OwnCopy) : (modCopy f d).free = d.free := rfl

end

/-! ## The whole state -/

/-- A command that no wait of R434 or R482 holds back has its effect. -/
@[simp] theorem onDev_calm {s : State} (h : s.m.ckpt.holds = false) (f : Dev → Dev) (hr : (f s.m).seq.reached = false) :
    onDev f s = .next { s with m := f s.m } := by
  simp [onDev, heldWrite, h, hr]

end Sys2Proof.Machine
end

