-- ==== Sys2Proof/Laws/Tables.lean ====
section
/-!
SUPPORT. Laws of the sparse tables and of the bytes of memory: a read after a write, the canonical form that every memory
operation keeps.
-/

namespace Sys2Proof.Machine

section
variable {α : Type}

/-- Keys strictly rising, as a proposition with the first key above a bound. -/
def Above (b : Nat) (m : Map α) : Prop := ∀ p ∈ m, b < p.1

theorem mkeysRise_cons {k : Nat} {v : α} {m : Map α} :
    mkeysRise ((k, v) :: m) = true ↔ Above k m ∧ mkeysRise m = true := by
  induction m generalizing k v with
  | nil => simp [mkeysRise, Above]
  | cons p m ih =>
    obtain ⟨k', v'⟩ := p
    simp only [mkeysRise, Bool.and_eq_true, decide_eq_true_eq, Above, List.mem_cons, forall_eq_or_imp]
    constructor
    · rintro ⟨h, r⟩
      refine ⟨⟨h, fun p hp => ?_⟩, r⟩
      exact Nat.lt_trans h ((ih.1 r).1 p hp)
    · rintro ⟨⟨h, -⟩, r⟩
      exact ⟨h, r⟩

theorem above_mset {b i : Nat} {x : α} {m : Map α} (hi : b < i) (h : Above b m) : Above b (mset m i x) := by
  induction m with
  | nil => simpa [mset, Above] using hi
  | cons p m ih =>
    obtain ⟨k, v⟩ := p
    simp only [Above, List.mem_cons, forall_eq_or_imp] at h
    simp only [mset]
    split
    · simpa [Above] using ⟨h.1, fun a c hc => ih h.2 _ hc⟩
    · split
      · simpa [Above] using ⟨hi, fun a c hc => h.2 _ hc⟩
      · simpa [Above] using ⟨hi, h.1, fun a c hc => h.2 _ hc⟩

theorem above_mdel {b i : Nat} {m : Map α} (h : Above b m) : Above b (mdel m i) := by
  induction m with
  | nil => exact h
  | cons p m ih =>
    obtain ⟨k, v⟩ := p
    simp only [Above, List.mem_cons, forall_eq_or_imp] at h
    simp only [mdel]
    split
    · exact ih h.2
    · simpa [Above] using ⟨h.1, fun a c hc => ih h.2 _ hc⟩

theorem mkeysRise_mset {i : Nat} {x : α} {m : Map α} (h : mkeysRise m = true) : mkeysRise (mset m i x) = true := by
  induction m with
  | nil => rfl
  | cons p m ih =>
    obtain ⟨k, v⟩ := p
    obtain ⟨ha, hm⟩ := mkeysRise_cons.1 h
    simp only [mset]
    split
    · rename_i hk
      exact mkeysRise_cons.2 ⟨above_mset hk ha, ih hm⟩
    · split
      · rename_i hk hi
        exact mkeysRise_cons.2 ⟨hi ▸ ha, hm⟩
      · rename_i hk hi
        refine mkeysRise_cons.2 ⟨?_, h⟩
        simp only [Above, List.mem_cons, forall_eq_or_imp]
        exact ⟨by omega, fun p hp => by have := ha p hp; omega⟩

theorem mkeysRise_mdel {i : Nat} {m : Map α} (h : mkeysRise m = true) : mkeysRise (mdel m i) = true := by
  induction m with
  | nil => rfl
  | cons p m ih =>
    obtain ⟨k, v⟩ := p
    obtain ⟨ha, hm⟩ := mkeysRise_cons.1 h
    simp only [mdel]
    split
    · exact ih hm
    · exact mkeysRise_cons.2 ⟨above_mdel ha, ih hm⟩

theorem mfind_above {b i : Nat} {m : Map α} (h : Above b m) (hi : i ≤ b) : mfind m i = none := by
  induction m with
  | nil => rfl
  | cons p m ih =>
    obtain ⟨k, v⟩ := p
    simp only [Above, List.mem_cons, forall_eq_or_imp] at h
    have : k ≠ i := by omega
    simp [mfind, this, ih h.2]

/-- A read after a write of a table: the value at the key written, the old one elsewhere. -/
theorem mfind_mset {i j : Nat} {x : α} {m : Map α} : mfind (mset m i x) j = if i = j then some x else mfind m j := by
  induction m with
  | nil => simp [mset, mfind]
  | cons p m ih =>
    obtain ⟨k, v⟩ := p
    simp only [mset]
    by_cases hk : k < i
    · simp only [hk, if_true, mfind, ih]
      by_cases hj : k = j
      · have : i ≠ j := by omega
        simp [hj, this]
      · simp [hj]
    · by_cases hi : k = i
      · subst hi
        simp only [hk, if_false, if_true, mfind]
        split <;> rfl
      · simp only [hk, hi, if_false, mfind]

/-- A key deleted reads as absent; the others are as before. -/
theorem mfind_mdel {i j : Nat} {m : Map α} : mfind (mdel m i) j = if i = j then none else mfind m j := by
  induction m with
  | nil => simp [mdel, mfind]
  | cons p m ih =>
    obtain ⟨k, v⟩ := p
    simp only [mdel]
    by_cases hk : k = i
    · subst hk
      by_cases hj : k = j
      · subst hj
        simp [ih]
      · simp [hj, mfind, ih]
    · simp only [hk, if_false, mfind, ih]
      by_cases hj : k = j
      · have : ¬ i = j := by omega
        simp [hj, this]
      · simp [hj]

theorem mset_mem {i : Nat} {x : α} {m : Map α} {p : Nat × α} (h : p ∈ mset m i x) : p = (i, x) ∨ p ∈ m := by
  induction m with
  | nil => simpa [mset] using h
  | cons q m ih =>
    obtain ⟨k, v⟩ := q
    simp only [mset] at h
    split at h
    · rcases List.mem_cons.1 h with h | h
      · exact .inr (h ▸ List.mem_cons_self)
      · rcases ih h with h | h
        · exact .inl h
        · exact .inr (List.mem_cons_of_mem _ h)
    · split at h
      · rcases List.mem_cons.1 h with h | h
        · exact .inl h
        · exact .inr (List.mem_cons_of_mem _ h)
      · rcases List.mem_cons.1 h with h | h
        · exact .inl h
        · exact .inr h

theorem mdel_mem {i : Nat} {m : Map α} {p : Nat × α} (h : p ∈ mdel m i) : p ∈ m := by
  induction m with
  | nil => exact h
  | cons q m ih =>
    obtain ⟨k, v⟩ := q
    simp only [mdel] at h
    split at h
    · exact List.mem_cons_of_mem _ (ih h)
    · rcases List.mem_cons.1 h with h | h
      · exact h ▸ List.mem_cons_self
      · exact List.mem_cons_of_mem _ (ih h)

variable [DecidableEq α]

theorem mkeysRise_mput {d : α} {i : Nat} {x : α} {m : Map α} (h : mkeysRise m = true) :
    mkeysRise (mput d m i x) = true := by
  unfold mput
  split
  · exact mkeysRise_mdel h
  · exact mkeysRise_mset h

/-- A read after a write of a table with a default. -/
theorem mget_mput {d : α} {i j : Nat} {x : α} {m : Map α} :
    mget d (mput d m i x) j = if i = j then x else mget d m j := by
  unfold mget mput
  split
  · rename_i hx
    rw [mfind_mdel]
    by_cases hj : i = j <;> simp [hj, hx]
  · rw [mfind_mset]
    by_cases hj : i = j <;> simp [hj]

end

/-! ## Object values -/

/-- A read of an object's value after a write of one. -/
theorem rd_wr (k j v : Nat) (d : Dev) : rd (wr k v d) j = if k = j then v else rd d j := by
  unfold rd wr mput
  simp only
  split
  · rename_i hv
    rw [mfind_mdel]
    by_cases hj : k = j
    · subst hj; simp [hv]
    · simp [hj]
  · rw [mfind_mset]
    by_cases hj : k = j <;> simp [hj]

@[simp] theorem rd_wr_same (k v : Nat) (d : Dev) : rd (wr k v d) k = v := by simp [rd_wr]

theorem rd_wr_other {k j : Nat} (v : Nat) (d : Dev) (h : k ≠ j) : rd (wr k v d) j = rd d j := by simp [rd_wr, h]

@[simp] theorem rd_raise (p i n e : Nat) (l : List Nat) (d : Dev) (k : Nat) : rd (raise p i n e l d) k = rd d k := rfl

/-- A read of a counter after counters were raised. -/
theorem rd_inc (k j : Nat) (d : Dev) : rd (inc k d) j = if k = j then (rd d k + 1) % 2 ^ 64 else rd d j := rd_wr _ _ _ _

/-! ## Bytes of memory -/

/-- A byte stored keeps the canonical form of memory. -/
theorem cellPut_wf {m : MemState} (p : Nat) (b : Byte) (h : m.wf = true) : (cellPut p b m).wf = true := by
  simp only [MemState.wf, Bool.and_eq_true, List.all_eq_true, decide_eq_true_eq, cellPut] at *
  refine ⟨mkeysRise_mput h.1, fun c hc => ?_⟩
  unfold mput at hc
  split at hc
  · exact h.2 c (mdel_mem hc)
  · rename_i hb
    rcases mset_mem hc with rfl | hc
    · exact hb
    · exact h.2 c hc

/-- So do bytes stored from an address up. -/
theorem cellsPut_wf {m : MemState} (p : Nat) (bs : Bytes) (h : m.wf = true) : (cellsPut p bs m).wf = true := by
  induction bs generalizing p m with
  | nil => exact h
  | cons b bs ih => exact ih (p + 1) (cellPut_wf p b h)

/-- A read after a store of one byte. -/
theorem cellAt_cellPut {m : MemState} (p q : Nat) (b : Byte) :
    cellAt (cellPut p b m) q = if p = q then b else cellAt m q := mget_mput

/-- A read after a store of bytes: the byte stored there, or the old byte. -/
theorem cellAt_cellsPut {m : MemState} (p q : Nat) (bs : Bytes) :
    cellAt (cellsPut p bs m) q = if p ≤ q ∧ q < p + bs.length then bs.getD (q - p) 0 else cellAt m q := by
  induction bs generalizing p m with
  | nil =>
    have : ¬ (p ≤ q ∧ q < p + ([] : Bytes).length) := by simp
    simp only [this, if_false, cellsPut]
  | cons b bs ih =>
    rw [cellsPut, ih (p + 1), cellAt_cellPut p q b]
    by_cases h1 : p = q
    · subst h1
      simp
    · by_cases h2 : p + 1 ≤ q ∧ q < p + 1 + bs.length
      · have h3 : p ≤ q ∧ q < p + (b :: bs).length := by simp; omega
        have h4 : q - p = q - (p + 1) + 1 := by omega
        simp only [h2, h3, and_self, if_true, h4, List.getD_cons_succ]
      · have h3 : ¬ (p ≤ q ∧ q < p + (b :: bs).length) := by simp; omega
        simp only [h2, h3, h1, if_false]

@[simp] theorem setPoison_cells (l : Nat) (m : MemState) : (setPoison l m).cells = m.cells := rfl
@[simp] theorem clearPoison_cells (l : Nat) (m : MemState) : (clearPoison l m).cells = m.cells := rfl

/-- The canonical form speaks of the bytes alone. -/
theorem wf_of_cells {m m' : MemState} (hc : m'.cells = m.cells) (h : m.wf = true) : m'.wf = true := by
  simpa [MemState.wf, hc] using h

theorem putCopy_wf {m : MemState} (l : Nat) (c : LineCopy) (h : m.wf = true) : (putCopy l c m).wf = true := by
  unfold putCopy
  dsimp only
  split
  · exact wf_of_cells (setPoison_cells _ _) (cellsPut_wf _ _ h)
  · exact wf_of_cells (clearPoison_cells _ _) (cellsPut_wf _ _ h)

theorem evict_wf {m : MemState} (e : LlcLine) (h : m.wf = true) : (evict e m).wf = true := by
  unfold evict
  split
  · exact putCopy_wf _ _ h
  · exact h

theorem makeRoom_wf {m m' : MemState} {k : Nat} (h : m.wf = true) (hm : makeRoom k m = some m') : m'.wf = true := by
  unfold makeRoom at hm
  dsimp only at hm
  split at hm
  · cases hm; exact h
  · cases hv : victim m k with
    | none => simp [hv] at hm
    | some e =>
      simp only [hv, Option.map_some, Option.some.injEq] at hm
      subst hm
      exact wf_of_cells rfl (evict_wf e h)

/-- A line used by a slice keeps the canonical form. -/
theorem touch_wf {m : MemState} (l : Nat) (w : Bool) (h : m.wf = true) : (touch l w m).wf = true := by
  unfold touch
  split
  · exact wf_of_cells rfl h
  · split
    · rename_i m' hm'
      exact wf_of_cells (m := m') rfl (makeRoom_wf h hm')
    · exact h

theorem use_wf {m : MemState} (l : Nat) (w : Bool) (h : m.wf = true) : (use l w m).wf = true := by
  unfold use
  split
  · exact h
  · exact touch_wf l w h

theorem lineWrite_wf {m : MemState} (l : Nat) (c : LineCopy) (h : m.wf = true) : (lineWrite l c m).wf = true :=
  putCopy_wf l c (use_wf l true h)

theorem makeRoom_settled {m m' : MemState} {k : Nat} (h : m.settled = true) (hm : makeRoom k m = some m') :
    m'.settled = true ∧ m'.cells = m.cells := by
  unfold makeRoom at hm
  dsimp only at hm
  split at hm
  · cases hm; exact ⟨h, rfl⟩
  · cases hv : victim m k with
    | none => simp [hv] at hm
    | some e =>
      have he : e ∈ m.llc := by
        have := List.mem_of_find?_eq_some hv
        simpa using this
      have hb : evict e m = m := by
        have := List.all_eq_true.mp h e he
        unfold evict
        cases hd : e.dirty <;> cases hc : e.below <;> simp_all
      simp only [hv, Option.map_some, Option.some.injEq, hb] at hm
      subst hm
      refine ⟨?_, rfl⟩
      simp only [MemState.settled, List.all_eq_true, List.mem_filter] at h ⊢
      exact fun x hx => h x hx.1

/-- A line used by a slice: the bytes stay, and the slices stay settled. -/
theorem touch_settled {m : MemState} (l : Nat) (w : Bool) (h : m.settled = true) :
    (touch l w m).settled = true ∧ (touch l w m).cells = m.cells := by
  unfold touch
  split
  · rename_i e he
    refine ⟨?_, rfl⟩
    have hm : e ∈ m.llc := List.mem_of_find?_eq_some he
    have h1 := List.all_eq_true.mp h e hm
    simp only [MemState.settled, List.all_cons, Bool.and_eq_true, List.all_eq_true, List.mem_filter] at h ⊢
    refine ⟨?_, fun x hx => h x hx.1⟩
    cases w <;> cases hd : e.dirty <;> simp_all
  · split
    · rename_i m' hm'
      have h1 := makeRoom_settled h hm'
      refine ⟨?_, h1.2⟩
      simp only [MemState.settled, List.all_cons, Bool.and_eq_true] at h1 ⊢
      refine ⟨?_, h1.1⟩
      cases w <;> simp
    · exact ⟨h, rfl⟩

theorem use_settled {m : MemState} (l : Nat) (w : Bool) (h : m.settled = true) :
    (use l w m).settled = true ∧ (use l w m).cells = m.cells := by
  unfold use
  split
  · exact ⟨h, rfl⟩
  · exact touch_settled l w h

@[simp] theorem reach_mem (a n : Nat) (d : Dev) : (reach a n d).mem = d.mem := by unfold reach; split <;> rfl

theorem openLine_wf {d : Dev} (r : Shadow) (a : Nat) (w : Bool) (h : d.mem.wf = true) : (openLine d r a w).mem.wf = true := by
  have h1 := fun l c => lineWrite_wf (m := d.mem) l c h
  have h2 := fun k l c => lineWrite_wf (m := use k false d.mem) l c (use_wf k false h)
  generalize hl : lineWrite = g at h1 h2
  unfold openLine
  simp only [hl]
  split_ifs
  · exact h
  · exact h
  · exact h1 _ _
  · exact h2 _ _ _

theorem writePlace_wf {d : Dev} (a : Nat) (w : Bool) (h : d.mem.wf = true) : (writePlace d a w).2.mem.wf = true := by
  unfold writePlace
  split
  · exact h
  · split
    · exact openLine_wf _ _ _ h
    · exact h

theorem writePiece_wf {d : Dev} (a : Nat) (bs : Bytes) (h : d.mem.wf = true) : (writePiece a bs d).2.mem.wf = true := by
  unfold writePiece
  dsimp only
  have h0 : (reach a bs.length d).mem.wf = true := by simpa using h
  have h1 := fun p => use_wf p true (writePlace_wf a (bs.length == 64) h0)
  split_ifs
  · exact h0
  · exact cellsPut_wf _ _ (wf_of_cells (clearPoison_cells _ _) (h1 _))
  · exact h1 _
  · exact cellsPut_wf _ _ (h1 _)

/-- A write of data memory keeps the canonical form. -/
theorem writeMem_wf {d : Dev} (a : Nat) (bs : Bytes) (h : d.mem.wf = true) : (writeMem a bs d).2.mem.wf = true := by
  unfold writeMem
  simp only
  split
  · exact h
  · have : ∀ (l : List (Nat × Nat)) (acc : Status × Dev), acc.2.mem.wf = true →
        (l.foldl (fun (acc : Status × Dev) p =>
          let r := writePiece p.1 ((bs.drop (p.1 - a)).take p.2) acc.2
          (firstBad acc.1 r.1, r.2)) acc).2.mem.wf = true := by
      intro l
      induction l with
      | nil => intro acc h; exact h
      | cons p l ih => intro acc h; exact ih _ (writePiece_wf _ _ h)
    exact this _ _ h

theorem writePoison_wf {d : Dev} (l : Nat) (h : d.mem.wf = true) : (writePoison l d).mem.wf = true := by
  unfold writePoison
  dsimp only
  split
  · simpa using h
  · have h1 := fun k c => lineWrite_wf (m := (writePlace (reach (64 * l) 64 d) (64 * l) true).2.mem) k c
      (writePlace_wf _ _ (by simpa using h))
    generalize lineWrite = g at h1 ⊢
    exact h1 (_ / 64) _

theorem putMem_wf {d : Dev} (a : Nat) (bs : Bytes) (h : d.mem.wf = true) : (putMem a bs d).mem.wf = true := writeMem_wf a bs h
theorem putWord_wf {d : Dev} (a : Nat) (w : W64) (h : d.mem.wf = true) : (putWord a w d).mem.wf = true := writeMem_wf _ _ h

theorem foldl_use_wf (ls : List Nat) (m : MemState) (h : m.wf = true) :
    (ls.foldl (fun m p => use (p / 64) false m) m).wf = true := by
  induction ls generalizing m with
  | nil => exact h
  | cons l ls ih => exact ih _ (use_wf _ _ h)

theorem foldl_use_settled (ls : List Nat) (m : MemState) (h : m.settled = true) :
    (ls.foldl (fun m p => use (p / 64) false m) m).settled = true ∧
    (ls.foldl (fun m p => use (p / 64) false m) m).cells = m.cells := by
  induction ls generalizing m with
  | nil => exact ⟨h, rfl⟩
  | cons l ls ih =>
    have h1 := use_settled (l / 64) false h
    exact ⟨(ih _ h1.1).1, (ih _ h1.1).2.trans h1.2⟩

/-- A read keeps the canonical form. -/
theorem touchRead_wf {d : Dev} (a n : Nat) (h : d.mem.wf = true) : (touchRead a n d).mem.wf = true :=
  foldl_use_wf _ _ (by simpa using h)

/-- Where the slices are settled, a read leaves the bytes of memory. -/
theorem touchRead_cells {d : Dev} (a n : Nat) (h : d.mem.settled = true) : (touchRead a n d).mem.cells = d.mem.cells := by
  have := (foldl_use_settled ((linesOf a n).filterMap (fun l => readPlace (reach a n d) (64 * l))) (reach a n d).mem
    (by simpa using h)).2
  simpa [touchRead] using this

@[simp] theorem dropBuffered_cells (c a n : Nat) (d : Dev) : (dropBuffered c a n d).mem.cells = d.mem.cells := rfl
@[simp] theorem dropAllBuffered_cells (c : Nat) (d : Dev) : (dropAllBuffered c d).mem.cells = d.mem.cells := rfl

/-- Memory after reset is in its canonical form. -/
theorem reset_wf : MemState.reset.wf = true := rfl

end Sys2Proof.Machine
end

