-- ==== Sys2Proof/Laws/Threads.lean ====
section
/-!
SUPPORT. Laws of blocks, groups, lanes and registers: what a change of a group leaves, and what an instruction that acts on
each executing lane does.
-/

namespace Sys2Proof.Machine

/-! ## Lists -/

section
variable {α : Type}

theorem lset_length (l : List α) (i : Nat) (x : α) : (lset l i x).length = l.length := by
  induction l generalizing i with
  | nil => rfl
  | cons a l ih => cases i <;> simp [lset, ih]

theorem lset_get (l : List α) (i j : Nat) (x : α) :
    (lset l i x)[j]? = if i = j ∧ j < l.length then some x else l[j]? := by
  induction l generalizing i j with
  | nil => simp [lset]
  | cons a l ih => cases i <;> cases j <;> simp [lset, ih]

theorem lmod_get (f : α → α) (l : List α) (i j : Nat) :
    (lmod f l i)[j]? = if i = j then (l[j]?).map f else l[j]? := by
  induction l generalizing i j with
  | nil => simp [lmod]
  | cons a l ih => cases i <;> cases j <;> simp [lmod, ih]

theorem lmapiFrom_get (f : Nat → α → α) (k : Nat) (l : List α) (j : Nat) :
    (lmapiFrom f k l)[j]? = (l[j]?).map (f (k + j)) := by
  induction l generalizing k j with
  | nil => simp [lmapiFrom]
  | cons a l ih =>
    cases j with
    | zero => simp [lmapiFrom]
    | succ j => simp [lmapiFrom, ih, Nat.add_comm, Nat.add_left_comm]

theorem lmapi_get (f : Nat → α → α) (l : List α) (j : Nat) : (lmapi f l)[j]? = (l[j]?).map (f j) := by
  simp [lmapi, lmapiFrom_get]

end

/-! ## Blocks and groups -/

theorem findBlock_modBlock (g n : Nat) (f : Block → Block) (hf : ∀ b, (f b).grid = b.grid ∧ (f b).no = b.no) (d : Dev)
    (g' n' : Nat) : findBlock (modBlock g n f d) g' n' =
      (findBlock d g' n').map (fun b => if b.grid = g ∧ b.no = n then f b else b) := by
  unfold findBlock modBlock
  rw [List.find?_map]
  congr 1
  congr 1
  funext b
  simp only [Function.comp]
  split <;> simp [hf]

theorem findBlock_key {d : Dev} {g n : Nat} {b : Block} (h : findBlock d g n = some b) : b.grid = g ∧ b.no = n := by
  have := List.find?_some h
  simpa using this

theorem findGroup_modGroup (w : Where) (f : Group → Group) (d : Dev) (v : Where) :
    (findGroup (modGroup w f d) v).map Prod.snd =
      if v = w then (findGroup d v).map (fun p => f p.2) else (findGroup d v).map Prod.snd := by
  unfold findGroup modGroup
  rw [findBlock_modBlock]
  · cases h : findBlock d v.grid v.block with
    | none => simp
    | some b =>
      obtain ⟨h1, h2⟩ := findBlock_key h
      simp only [Option.map_some]
      by_cases hb : b.grid = w.grid ∧ b.no = w.block
      · simp only [hb, and_self, if_true, lmod_get]
        by_cases hg : w.group = v.group
        · have : v = w := by
            cases v; cases w; simp_all
          subst this
          cases hh : b.groups[v.group]? <;> simp
        · have : v ≠ w := by rintro rfl; exact hg rfl
          simp only [hg, if_false, this]
          cases hh : b.groups[v.group]? <;> simp
      · have : v ≠ w := by rintro rfl; exact hb ⟨h1, h2⟩
        simp only [hb, if_false, this]
  · intro b; exact ⟨rfl, rfl⟩

theorem laneOf_eq (d : Dev) (w : Where) (i : Nat) :
    laneOf d w i = ((findGroup d w).map Prod.snd).bind (fun g => g.lanes[i]?) := by
  unfold laneOf; cases findGroup d w <;> rfl

/-- A change of the lanes of a group changes each lane named, by its number, and no other. -/
theorem laneOf_modLanes (w : Where) (ls : List Nat) (f : Nat → Lane → Lane) (d : Dev) (i : Nat) :
    laneOf (modLanes w ls f d) w i = (laneOf d w i).map (fun l => if i ∈ ls then f i l else l) := by
  rw [laneOf_eq, laneOf_eq, modLanes, findGroup_modGroup]
  cases findGroup d w <;> simp [lmapi_get]

theorem laneOf_markIssued (x : Issue) (d : Dev) (i : Nat) :
    laneOf (markIssued x d) x.w i = ((findGroup d x.w).bind (fun p => (p.2.lanes[i]?).map (fun l =>
      if i ∈ x.lanes then { l with pc := l.pc + 8, lastIssue := p.2.issues + 1 } else l))) := by
  rw [laneOf_eq, markIssued, findGroup_modGroup]
  cases findGroup d x.w <;> simp [lmapi_get]

theorem LanesOnly.refl (w : Where) (d : Dev) : LanesOnly w d d := ⟨rfl, fun _ _ => rfl, fun _ _ => rfl⟩

theorem LanesOnly.trans {w : Where} {a b c : Dev} (h : LanesOnly w a b) (k : LanesOnly w b c) : LanesOnly w a c := by
  refine ⟨?_, fun g n => (k.blocks g n).trans (h.blocks g n), fun v hv => (k.groups v hv).trans (h.groups v hv)⟩
  have e := k.rest
  rw [h.rest] at e
  exact e

theorem LanesOnly.modGroup (w : Where) (f : Group → Group) (d : Dev) : LanesOnly w d (modGroup w f d) := by
  refine ⟨rfl, fun g n => ?_, fun v hv => ?_⟩
  · unfold Machine.modGroup
    rw [findBlock_modBlock]
    · cases findBlock d g n with
      | none => rfl
      | some b =>
        simp only [Option.map_some]
        split <;> rfl
    · intro b; exact ⟨rfl, rfl⟩
  · rw [findGroup_modGroup, if_neg hv]

theorem issueOf_where {d : Dev} {w : Where} {f : Fields} {x : Issue} (h : issueOf d w f = some x) : x.w = w := by
  unfold issueOf at h
  repeat' split at h
  all_goals simp_all
  all_goals (subst h; rfl)

theorem issueOf_group {d : Dev} {w : Where} {f : Fields} {x : Issue} (h : issueOf d w f = some x) :
    findGroup d w = some (x.block, x.group) := by
  unfold issueOf at h
  repeat' split at h
  all_goals simp_all
  all_goals (subst h; simp_all)

/-- An instruction that issues, and reaches no line that a commit holds: the device after it. -/
theorem runInstr_issues {s : State} {w : Where} {f : Fields} {cls op : Nat} {x : Issue} (h : Issues s w f cls op x)
    (effect : Issue → Dev → Dev) (hr : (effect x (markIssued x s.m)).seq.reached = false) :
    onDev (runInstr w f cls op effect) s = .next { s with m := effect x (markIssued x s.m) } := by
  have e : runInstr w f cls op effect s.m = effect x (markIssued x s.m) := by
    simp [runInstr, h.issue, h.fetch, h.open_, h.legal, h.due]
  rw [onDev_calm h.calm.holds _ (by rw [e]; exact hr), e]

/-- The same for one whose whole effect is on its lanes' registers and predicates. -/
theorem runLanes_issues {s : State} {w : Where} {f : Fields} {cls op : Nat} {x : Issue} (h : Issues s w f cls op x)
    (g : Issue → Nat → Lane → Lane) :
    onDev (runLanes w f cls op g) s = .next { s with m := modLanes w x.act (g x) (markIssued x s.m) } :=
  runInstr_issues h (fun s d => modLanes w s.act (g s) d) h.calm.reached

/-! ## Registers -/

@[simp] theorem setReg_pc (l : Lane) (r : BitVec 8) (v : W32) : (l.setReg r v).pc = l.pc := by unfold Lane.setReg; split <;> rfl
@[simp] theorem setReg_preds (l : Lane) (r : BitVec 8) (v : W32) : (l.setReg r v).preds = l.preds := by unfold Lane.setReg; split <;> rfl
@[simp] theorem setReg_stack (l : Lane) (r : BitVec 8) (v : W32) : (l.setReg r v).stack = l.stack := by unfold Lane.setReg; split <;> rfl
@[simp] theorem setReg_st (l : Lane) (r : BitVec 8) (v : W32) : (l.setReg r v).st = l.st := by unfold Lane.setReg; split <;> rfl

theorem setReg_regs (l : Lane) (r : BitVec 8) (v : W32) (n : Nat) :
    (l.setReg r v).regs[n]? = if r ≠ 0xFF ∧ r.toNat = n ∧ n < l.regs.length then some v else l.regs[n]? := by
  unfold Lane.setReg
  by_cases h : r = 0xFF
  · rw [if_pos h, if_neg (fun c => c.1 h)]
  · rw [if_neg h, lset_get]
    by_cases c : r.toNat = n ∧ n < l.regs.length
    · rw [if_pos c, if_pos ⟨h, c⟩]
    · rw [if_neg c, if_neg (fun e => c e.2)]

theorem setReg_length (l : Lane) (r : BitVec 8) (v : W32) : (l.setReg r v).regs.length = l.regs.length := by
  unfold Lane.setReg
  split
  · rfl
  · exact lset_length _ _ _


theorem setWide_frame (k : Nat) (l : Lane) (r : BitVec 8) (v : Nat) :
    (l.setWide r k v).pc = l.pc ∧ (l.setWide r k v).preds = l.preds ∧ (l.setWide r k v).stack = l.stack ∧
      (l.setWide r k v).st = l.st ∧ (l.setWide r k v).regs.length = l.regs.length := by
  induction k generalizing l r v with
  | zero => simp [Lane.setWide]
  | succ k ih =>
    unfold Lane.setWide
    split
    · simp
    · obtain ⟨a, b, c, d, e⟩ := ih (l.setReg r (BitVec.ofNat 32 v)) (r + 1) (v / 2 ^ 32)
      exact ⟨a.trans (setReg_pc _ _ _), b.trans (setReg_preds _ _ _), c.trans (setReg_stack _ _ _),
        d.trans (setReg_st _ _ _), e.trans (setReg_length _ _ _)⟩

/-- Registers outside those written keep their values (R74). -/
theorem setWide_outside (k : Nat) (l : Lane) (r : BitVec 8) (v n : Nat) (h : Outside r k n) :
    (l.setWide r k v).regs[n]? = l.regs[n]? := by
  induction k generalizing l r v with
  | zero => rfl
  | succ k ih =>
    unfold Lane.setWide
    split
    · rfl
    · rename_i hr
      have hr' : r.toNat < 255 := by
        have := r.isLt
        have : r.toNat ≠ 255 := fun e => hr (BitVec.eq_of_toNat_eq (by simpa using e))
        omega
      have h1 : (r + 1).toNat = r.toNat + 1 := by
        rw [BitVec.toNat_add]
        show (r.toNat + 1) % 256 = r.toNat + 1
        omega
      have hn : n < r.toNat ∨ r.toNat + (k + 1) ≤ n := h.resolve_left hr
      rw [ih _ _ _ (by unfold Outside; omega), setReg_regs, if_neg (by omega)]

/-- What was written to k registers reads back (R74). -/
theorem setWide_wide (k : Nat) (l : Lane) (r : BitVec 8) (v : Nat) (h : r.toNat + k ≤ Nat.min l.regs.length 255)
    (hv : v < 2 ^ (32 * k)) : (l.setWide r k v).wide r k = v := by
  induction k generalizing l r v with
  | zero => simp only [Nat.mul_zero, Nat.pow_zero] at hv; simp [Lane.wide]; omega
  | succ k ih =>
    have h255 : r.toNat + (k + 1) ≤ 255 := Nat.le_trans h (Nat.min_le_right _ _)
    have hr' : r.toNat < 255 := by omega
    have hl : r.toNat + (k + 1) ≤ l.regs.length := Nat.le_trans h (Nat.min_le_left _ _)
    have hr : r ≠ 0xFF := by rintro rfl; simp at hr'
    have h1 : (r + 1).toNat = r.toNat + 1 := by
      rw [BitVec.toNat_add]
      show (r.toNat + 1) % 256 = r.toNat + 1
      omega
    have hd : v / 2 ^ 32 < 2 ^ (32 * k) := by
      rw [Nat.div_lt_iff_lt_mul (by decide), ← Nat.pow_add]
      exact hv
    have hk : (Lane.setWide (l.setReg r (BitVec.ofNat 32 v)) (r + 1) k (v / 2 ^ 32)).wide (r + 1) k = v / 2 ^ 32 := by
      apply ih _ _ _ _ hd
      rw [setReg_length, h1]
      have : r.toNat + (k + 1) ≤ Nat.min l.regs.length 255 := h
      omega
    have h0 : (Lane.setWide (l.setReg r (BitVec.ofNat 32 v)) (r + 1) k (v / 2 ^ 32)).reg r = BitVec.ofNat 32 v := by
      have := setWide_outside k (l.setReg r (BitVec.ofNat 32 v)) (r + 1) (v / 2 ^ 32) r.toNat (by unfold Outside; omega)
      rw [setReg_regs, if_pos ⟨hr, rfl, by omega⟩] at this
      unfold Lane.reg
      rw [if_neg hr, List.getD_eq_getElem?_getD, this]
      rfl
    unfold Lane.setWide Lane.wide
    rw [if_neg hr, if_neg hr, hk, h0]
    simp only [BitVec.toNat_ofNat]
    omega

theorem wide_lt (l : Lane) (r : BitVec 8) (k : Nat) : l.wide r k < 2 ^ (32 * k) := by
  induction k generalizing r with
  | zero => simp [Lane.wide]
  | succ k ih =>
    unfold Lane.wide
    have h := (l.reg r).isLt
    have : (if r = 0xFF then 0 else l.wide (r + 1) k) < 2 ^ (32 * k) := by
      split
      · exact Nat.two_pow_pos _
      · exact ih _
    have e : 2 ^ (32 * (k + 1)) = 2 ^ 32 * 2 ^ (32 * k) := by rw [← Nat.pow_add]; congr 1; omega
    rw [e]
    calc _ < 2 ^ 32 + 2 ^ 32 * (if r = 0xFF then 0 else l.wide (r + 1) k) := by omega
      _ = 2 ^ 32 * ((if r = 0xFF then 0 else l.wide (r + 1) k) + 1) := by ring
      _ ≤ _ := Nat.mul_le_mul_left _ this

/-! ## One instruction -/

/-- A lane as its subset has issued. -/
def issued (x : Issue) (i : Nat) (l : Lane) : Lane :=
  if i ∈ x.lanes then { l with pc := l.pc + 8, lastIssue := x.group.issues + 1 } else l

theorem laneOf_issued {d : Dev} {w : Where} {f : Fields} {x : Issue} (h : issueOf d w f = some x) (i : Nat) :
    laneOf (markIssued x d) w i = (laneOf d w i).map (issued x i) := by
  have hw := issueOf_where h
  subst hw
  rw [laneOf_markIssued, laneOf, issueOf_group h]
  rfl

/-- What an instruction that changes each executing lane leaves of a lane. -/
theorem laneOf_step {d : Dev} {w : Where} {f : Fields} {x : Issue} (h : issueOf d w f = some x) (g : Nat → Lane → Lane)
    (i : Nat) : laneOf (modLanes w x.act g (markIssued x d)) w i =
      (laneOf d w i).map (fun l => if i ∈ x.act then g i (issued x i l) else issued x i l) := by
  rw [laneOf_modLanes, laneOf_issued h, Option.map_map]
  rfl

theorem LanesOnly.step {d : Dev} {w : Where} {f : Fields} {x : Issue} (h : issueOf d w f = some x) (g : Nat → Lane → Lane) :
    LanesOnly w d (modLanes w x.act g (markIssued x d)) := by
  have hw := issueOf_where h
  subst hw
  exact (LanesOnly.modGroup _ _ _).trans (LanesOnly.modGroup _ _ _)

@[simp] theorem issued_regs (x : Issue) (i : Nat) (l : Lane) : (issued x i l).regs = l.regs := by unfold issued; split <;> rfl
@[simp] theorem issued_preds (x : Issue) (i : Nat) (l : Lane) : (issued x i l).preds = l.preds := by unfold issued; split <;> rfl
@[simp] theorem issued_stack (x : Issue) (i : Nat) (l : Lane) : (issued x i l).stack = l.stack := by unfold issued; split <;> rfl
@[simp] theorem issued_st (x : Issue) (i : Nat) (l : Lane) : (issued x i l).st = l.st := by unfold issued; split <;> rfl
theorem issued_pc (x : Issue) (i : Nat) (l : Lane) : (issued x i l).pc = if i ∈ x.lanes then l.pc + 8 else l.pc := by
  unfold issued; split <;> rfl
@[simp] theorem issued_reg (x : Issue) (i : Nat) (l : Lane) (r : BitVec 8) : (issued x i l).reg r = l.reg r := by simp [Lane.reg]
@[simp] theorem issued_wide (x : Issue) (i k : Nat) (l : Lane) (r : BitVec 8) : (issued x i l).wide r k = l.wide r k := by
  induction k generalizing r with
  | zero => rfl
  | succ k ih => simp [Lane.wide, ih]
@[simp] theorem issued_predBits (x : Issue) (i : Nat) (l : Lane) : (issued x i l).predBits = l.predBits := by simp [Lane.predBits]

/-- The shape of every result of k registers. -/
theorem writesRegs_setWide (f : Fields) (x : Issue) (k i : Nat) (l : Lane) (v : Nat) (hv : v < 2 ^ (32 * k)) :
    WritesRegs f x k i l (if i ∈ x.act then (issued x i l).setWide f.dst k v else issued x i l) v := by
  obtain ⟨a, b, c, e, -⟩ := setWide_frame k (issued x i l) f.dst v
  by_cases hi : i ∈ x.act
  · simp only [hi, if_true]
    refine ⟨?_, ?_, ?_, ?_, ?_, ?_⟩
    · rw [a, issued_pc]
    · rw [b]; simp
    · rw [c]; simp
    · rw [e]; simp
    · intro n hn
      rw [setWide_outside _ _ _ _ _ (hn.resolve_left (fun h => h hi))]
      simp
    · intro _ h
      exact setWide_wide k _ _ _ (by simpa using h) hv
  · simp only [hi, if_false]
    exact ⟨issued_pc _ _ _, by simp, by simp, by simp, by simp, fun h => absurd h hi⟩

theorem setReg_eq_setWide (l : Lane) (r : BitVec 8) (v : W32) : l.setReg r v = l.setWide r 1 v.toNat := by
  unfold Lane.setWide
  split
  · rename_i h; simp [Lane.setReg, h]
  · simp [Lane.setWide]

theorem writesRegs_setReg (f : Fields) (x : Issue) (i : Nat) (l : Lane) (v : W32) :
    WritesRegs f x 1 i l (if i ∈ x.act then (issued x i l).setReg f.dst v else issued x i l) v.toNat := by
  rw [setReg_eq_setWide]
  exact writesRegs_setWide f x 1 i l v.toNat (by have := v.isLt; simpa using this)

end Sys2Proof.Machine
end

