-- ==== Sys2Proof/Tests/Slice0.lean ====
section
/-!
SUPPORT. Tests: for each obligation with hypotheses a state and operands that meet them, by clause (witness_<Name>); a term
that each check of WellFormed refuses; and single commands whose expected values are computed from the cited rules.
-/

open Sys2Proof Sys2Proof.Machine

namespace Sys2Proof.Tests

/-! ## States of the tests -/

/-- A state around a device. -/
def around (d : Dev) : State := ⟨d, LogStore.reset, []⟩

/-- Every function READY. -/
def ready : List (Nat × Nat) :=
  ([OD.readyManagement, OD.readyMemory, OD.readyHbm, OD.readyPower, OD.readyThermal, OD.readySecurity] ++ computeFns ++ linkDies ++
    [edgeFn 0, edgeFn 1, serviceFn 0, serviceFn 1, serviceFn 2, serviceFn 3, serviceFn 4, sequencerFn 0, sequencerFn 1, sequencerFn 2,
     sequencerFn 3, fabricPortFn 0, fabricPortFn 16, engineFn 0, digestFn 0, digestFn 1]).map (fun f => (f, 2))

def sess : Session := ⟨0, false, [1], [2], 0, [], 0, 0, none, 1⟩

/-- A running module with a session of the field network, 5, and one of the mailbox, 6. -/
def up : Dev :=
  { Dev.reset with
    od := ready ++ [(OD.plcaNodeId, 1)]
    hv := { HivanState.reset with running := true, sessions := [(5, sess), (6, { sess with mailbox := true })] } }

/-- A group of lanes on core 0, in one block of one group of grid 0, with instructions at address 0 and every right below 16 MiB. -/
def grid0 : Grid :=
  ⟨0, 1, 1, 2, 1, 0, 0, 0, 0, 0, 0, 0, 1, 0, none, false, false, false, false, false, none, none⟩
def ctx0 : Ctx := ⟨.live, 0, [(0, ⟨true, true, true, 0, 0xFF, true⟩)], 0⟩
def group0 (lanes : List Lane) : Group := ⟨lanes, 0, 0, [], [], none, []⟩
def block0 (gs : List Group) : Block := ⟨0, 0, 0, gs, List.replicate 16 0, []⟩
def threads (gs : List Group) : Dev :=
  { up with grids := [(0, grid0)], blocks := [block0 gs], tw := { TwizanState.reset with ctxs := [(0, ctx0)] } }
def w0 : Where := ⟨0, 0, 0⟩

/-- A lane with registers, padded with zeros. -/
def lane (regs : List W32) : Lane := { Lane.fresh 0 0 with regs := regs ++ List.replicate (16 - regs.length) 0 }

/-- Whether an instruction issues for a group, with a property of the issue. -/
def issuable (s : State) (w : Where) (f : Fields) (cls op : Nat) (P : Issue → Bool) : Bool :=
  match issueOf s.m w f with
  | some x => (!s.m.ckpt.holds && !s.m.seq.reached) && decide (fetchStatus s.m x.grid.ctx x.pc = ST.ok) &&
      decide (ctxRefusal s.m x.grid.ctx ≠ ST.fenced) && (opLegal cls op f (8 * x.grid.regs) && !operandsDue cls op f x) && P x
  | none => false

theorem issuing {s : State} {w : Where} {f : Fields} {cls op : Nat} {P : Issue → Bool} (h : issuable s w f cls op P = true) :
    ∃ x, Issues s w f cls op x ∧ P x = true := by
  unfold issuable at h
  split at h
  · rename_i x hx
    simp only [Bool.and_eq_true, decide_eq_true_eq, Bool.not_eq_true'] at h
    exact ⟨x, ⟨⟨h.1.1.1.1.1, h.1.1.1.1.2⟩, hx, h.1.1.1.2, h.1.1.2, h.1.2.1, h.1.2.2⟩, h.2⟩
  · cases h

/-- Fields with a destination, three sources and IMM, under the guard p7. -/
def fields (dst a b c : BitVec 8) (imm : BitVec 16) : Fields := ⟨7, false, dst, a, b, c, imm⟩

/-- Two lanes: r0 to r7 hold small numbers. -/
def two : State := around (threads [group0 [lane [1, 2, 3, 4, 5, 6, 0x3F800000, 0x7F800001], lane [0xFFFFFFFF, 7, 3, 4, 0, 6, 0x80000000, 8]]])

/-! ## Threads -/

/-- Every integer operation issues with 32-bit and 64-bit registers, with an immediate, and with DST 0xFF. -/
theorem witness_IntegerResults : ∀ f ∈ [fields 8 0 1 2 0, fields 8 0 2 4 0x2000, fields 8 0 0 4 0x9FFF, fields 0xFF 0 1 2 0x1000],
    ∀ op ∈ List.range 16, ∃ x, Issues two w0 f 0 op x ∧ (x.act == [0, 1]) = true :=
  have h : ∀ f ∈ [fields 8 0 1 2 0, fields 8 0 2 4 0x2000, fields 8 0 0 4 0x9FFF, fields 0xFF 0 1 2 0x1000], ∀ op ∈ List.range 16,
    issuable two w0 f 0 op (fun x => x.act == [0, 1]) = true := by decide
  fun f hf op ho => issuing (h f hf op ho)

/-- Every FP32 operation issues, with a NaN among its operands too. -/
theorem witness_Fp32Results : (∀ f ∈ [fields 8 6 0 2 0, fields 8 7 6 2 0, fields 8 6 0 2 0x8FFF], ∀ op ∈ List.range 8,
    ∃ x, Issues two w0 f 1 op x ∧ (x.act == [0, 1]) = true) ∧ (f32 0x7F800001).isNan = true :=
  have h : ∀ f ∈ [fields 8 6 0 2 0, fields 8 7 6 2 0, fields 8 6 0 2 0x8FFF], ∀ op ∈ List.range 8,
    issuable two w0 f 1 op (fun x => x.act == [0, 1]) = true := by decide
  ⟨fun f hf op ho => issuing (h f hf op ho), by decide⟩

theorem witness_ComparisonsWriteThePredicate : ∀ c ∈ List.range 8,
    (∃ x, Issues two w0 (fields 0xFF 0 1 0xFF (BitVec.ofNat 16 (c * 32 + 0x0600))) 0 0x10 x ∧ (x.act == [0, 1]) = true) ∧
    ∃ x, Issues two w0 (fields 0xFF 6 7 0xFF (BitVec.ofNat 16 (c * 32 + 0x0700))) 1 0x08 x ∧ (x.act == [0, 1]) = true :=
  have h : ∀ c ∈ List.range 8,
    issuable two w0 (fields 0xFF 0 1 0xFF (BitVec.ofNat 16 (c * 32 + 0x0600))) 0 0x10 (fun x => x.act == [0, 1]) = true ∧
    issuable two w0 (fields 0xFF 6 7 0xFF (BitVec.ofNat 16 (c * 32 + 0x0700))) 1 0x08 (fun x => x.act == [0, 1]) = true := by decide
  fun c hc => ⟨issuing (h c hc).1, issuing (h c hc).2⟩

/-- CVT with and without a scale, each special function, and the moves. -/
theorem witness_ConversionsFunctionsAndMoves :
    (∃ x, Issues two w0 (fields 8 0 0xFF 0xFF 0x0000) 2 0x00 x ∧ (x.act == [0, 1]) = true) ∧
    (∀ op ∈ [0x10, 0x11, 0x12, 0x13, 0x14, 0x15], ∃ x, Issues two w0 (fields 8 6 0xFF 0xFF 0) 2 op x ∧ (x.act == [0, 1]) = true) ∧
    (∃ x, Issues two w0 (fields 8 0 0xFF 0xFF 0) 3 0x00 x ∧ (x.act == [0, 1]) = true) ∧
    (∃ x, Issues two w0 (fields 0xFF 0xFF 0xFF 0xFF 0x1234) 3 0x01 x ∧ (x.act == [0, 1]) = true) ∧
    (∃ x, Issues two w0 (fields 8 0xFF 0xFF 0xFF 0x0009) 3 0x02 x ∧ (x.act == [0, 1]) = true) :=
  have h : ∀ op ∈ [0x10, 0x11, 0x12, 0x13, 0x14, 0x15], issuable two w0 (fields 8 6 0xFF 0xFF 0) 2 op (fun x => x.act == [0, 1]) = true := by
    decide
  ⟨issuing (by decide), fun op ho => issuing (h op ho), issuing (by decide), issuing (by decide), issuing (by decide)⟩

theorem witness_OpenThreadOperationsComplete :
    (∀ op ∈ [0x11, 0x12, 0x13], ∃ x, Issues two w0 (fields 8 0 1 2 0) 0 op x ∧ (x.act == [0, 1]) = true) ∧
    (∃ x, Issues two w0 (fields 8 0 0xFF 0xFF 0) 3 0x03 x ∧ (x.act == [0, 1]) = true) :=
  have h : ∀ op ∈ [0x11, 0x12, 0x13], issuable two w0 (fields 8 0 1 2 0) 0 op (fun x => x.act == [0, 1]) = true := by decide
  ⟨fun op ho => issuing (h op ho), issuing (by decide)⟩

end Sys2Proof.Tests

namespace Sys2Proof.Tests

/-- Lanes with 31 and 1 entries on their call stacks; with 32; with none. -/
def stacked (n m : Nat) : State :=
  around (threads [group0 [{ lane [] with stack := List.replicate n 8 }, { lane [] with stack := List.replicate m 8 }]])

/-- Lane 0 has yielded and lane 1, elsewhere, has not. -/
def yieldedDev : Dev := threads [{ group0 [{ lane [] with yielded := some 1 }, { lane [] with pc := 64 }] with issues := 16 }]

theorem witness_ControlFlowAndExit :
    (∀ op ∈ [0x00, 0x01, 0x05, 0x06], ∃ x, Issues two w0 (fields 0xFF 0 0xFF 0xFF 0) 7 op x ∧ (x.act == [0, 1]) = true) ∧
    (∃ x, Issues (stacked 31 1) w0 (fields 0xFF 0xFF 0xFF 0xFF 0xFFFF) 7 0x02 x ∧
      x.act.all (fun i => decide ((x.lane i).stack.length < 32)) = true) ∧
    (∃ x, Issues (stacked 31 1) w0 (fields 0xFF 0xFF 0xFF 0xFF 0) 7 0x03 x ∧ x.act.all (fun i => decide ((x.lane i).stack ≠ [])) = true) ∧
    (∃ x, issueOf yieldedDev w0 (fields 0xFF 0 0xFF 0xFF 0) = some x ∧ x.group.issues < 1 + 16 ∧ x.lanes = [1]) ∧
    ((laneOf yieldedDev w0 0).map (fun l => l.yielded) = some (some 1) ∧ (laneOf yieldedDev w0 1).map (fun l => l.pc) = some 64) ∧
    (∃ x, Issues (around (threads [group0 [lane [], lane []], group0 [lane []]])) w0 (fields 0xFF 0xFF 0xFF 0xFF 0) 7 0x04 x ∧
      decide (x.group.storeError = none ∧ x.act = [0, 1]) = true) ∧
    (∃ x, Issues (around (threads [group0 [lane [], { lane [] with st := .done }]])) w0 (fields 0xFF 0xFF 0xFF 0xFF 0) 7 0x04 x ∧
      decide (x.group.storeError = none ∧ x.act = [0]) = true) :=
  have h : ∀ op ∈ [0x00, 0x01, 0x05, 0x06], issuable two w0 (fields 0xFF 0 0xFF 0xFF 0) 7 op (fun x => x.act == [0, 1]) = true := by decide
  ⟨fun op ho => issuing (h op ho), issuing (by decide), issuing (by decide),
    ⟨_, (Option.some_get (by decide)).symm, by decide, by decide⟩, by decide, issuing (by decide), issuing (by decide)⟩

/-- A context that drains, and one whose regions grant no EX. -/
def draining : State := around { threads [group0 [lane []]] with
  tw := { TwizanState.reset with ctxs := [(0, { ctx0 with st := .draining })] } }
def noExecute : State := around { threads [group0 [lane []]] with
  tw := { TwizanState.reset with ctxs := [(0, { ctx0 with regions := [(0, ⟨true, true, false, 0, 0xFF, true⟩)] })] } }

/-- A lane that still waits for r0, which a remote load is to fill. -/
def awaiting : State := around (threads [{ group0 [lane []] with awaits := [⟨0, 2 ^ 50, 4, 0, 1, 7, 0, false⟩] }])

theorem witness_FaultsOfInstructions :
    (∃ x, Issues (stacked 32 0) w0 (fields 0xFF 0xFF 0xFF 0xFF 0) 7 0x02 x ∧ x.act.any (fun i => decide (32 ≤ (x.lane i).stack.length)) = true) ∧
    (∃ x, Issues (stacked 32 0) w0 (fields 0xFF 0xFF 0xFF 0xFF 0) 7 0x03 x ∧ x.act.any (fun i => decide ((x.lane i).stack = [])) = true) ∧
    (∃ x, Issues two w0 (fields 0xFF 0 0xFF 0xFF 0) 8 0x00 x ∧ x.act.any (fun i => !((x.lane i).reg 1).getLsbD i) = true) ∧
    (∃ x, Issues (around (threads [group0 [lane [64, 33]]])) w0 (fields 0xFF 0 0xFF 0xFF 0) 8 0x01 x ∧
      x.act.any (fun i => decide (32 * x.block.groups.length < ((x.lane i).reg 0).toNat)) = true) ∧
    (∃ x, Issues (around (threads [group0 [lane [64, 33]]])) w0 (fields 0xFF 1 0xFF 0xFF 0) 8 0x01 x ∧
      x.act.any (fun i => decide (((x.lane i).reg 1).toNat % 32 ≠ 0)) = true) ∧
    (∃ x, Issues (around (threads [group0 [lane [1021]]])) w0 (fields 8 0 0xFF 0xFF 2) 4 0x00 x ∧
      x.act.any (fun i => decide (1024 * x.grid.slmKib < ((x.lane i).reg 0).toNat + 4)) = true) ∧
    (∃ x, Issues (around (threads [group0 [lane [1021]]])) w0 (fields 0xFF 0 1 0xFF 2) 4 0x01 x ∧
      x.act.any (fun i => decide (((x.lane i).reg 0).toNat % 4 ≠ 0)) = true) ∧
    (∃ x, Issues (around (threads [group0 [lane [1022]]])) w0 (fields 8 0 1 0xFF 0) 5 0x00 x ∧
      x.act.any (fun i => decide (1024 * x.grid.slmKib < ((x.lane i).reg 0).toNat + 4)) = true) ∧
    (∃ x, issueOf two.m w0 (fieldsOf 0) = some x ∧ opLegal (fld (0xF000000000000000 : W64) 63 60) 0 (fieldsOf 0xF000000000000000) 16 = false) ∧
    (issueOf up w0 (fields 8 0 1 2 0) = none) ∧
    (∃ x, issueOf noExecute.m w0 (fields 8 0 1 2 0) = some x ∧ fetchStatus noExecute.m x.grid.ctx x.pc ≠ ST.ok) ∧
    (∃ x, issueOf draining.m w0 (fields 8 0 1 2 0) = some x ∧ fetchStatus draining.m x.grid.ctx x.pc = ST.ok ∧
      ctxRefusal draining.m x.grid.ctx = ST.fenced) ∧
    (∃ x, issueOf awaiting.m w0 (fields 8 0 1 2 0) = some x ∧ fetchStatus awaiting.m x.grid.ctx x.pc = ST.ok ∧
      ctxRefusal awaiting.m x.grid.ctx ≠ ST.fenced ∧ opLegal 0 0 (fields 8 0 1 2 0) (8 * x.grid.regs) = true ∧
      operandsDue 0 0 (fields 8 0 1 2 0) x = true) ∧
    (opRules 0 0x00 (fields 8 16 1 2 0) ≠ none ∧ opLegal 0 0x00 (fields 8 16 1 2 0) 16 = false) :=
  ⟨issuing (by decide), issuing (by decide), issuing (P := fun x => x.act.any (fun i => !((x.lane i).reg 1).getLsbD i)) (by decide),
    issuing (by decide), issuing (by decide), issuing (by decide), issuing (by decide), issuing (by decide),
    ⟨_, (Option.some_get (by decide)).symm, by decide⟩, by decide, ⟨_, (Option.some_get (by decide)).symm, by decide⟩,
    ⟨_, (Option.some_get (by decide)).symm, by decide, by decide⟩,
    ⟨_, (Option.some_get (by decide)).symm, by decide, by decide, by decide, by decide⟩, by decide⟩

theorem witness_ShuffleAndVoteResults :
    (∀ mode ∈ [0, 1, 2, 3], ∃ x, Issues two w0 (fields 8 0 0xFF 0xFF (BitVec.ofNat 16 (mode * 0x4000 + 0x0801))) 9 0x00 x ∧
      (x.act == [0, 1]) = true) ∧
    (∀ op ∈ [0x00, 0x01, 0x02], ∃ x, Issues two w0 (fields 0xFF 0 0xFF 0xFF 0x0700) 0xA op x ∧ (x.act == [0, 1]) = true) ∧
    (∀ op ∈ [0x03, 0x04], ∃ x, Issues two w0 (fields 8 0 0xFF 0xFF 0) 0xA op x ∧ decide (x.group.lanes.length ≤ 32) = true) :=
  have h : ∀ mode ∈ [0, 1, 2, 3], issuable two w0 (fields 8 0 0xFF 0xFF (BitVec.ofNat 16 (mode * 0x4000 + 0x0801))) 9 0x00
    (fun x => x.act == [0, 1]) = true := by decide
  have v : ∀ op ∈ [0x00, 0x01, 0x02], issuable two w0 (fields 0xFF 0 0xFF 0xFF 0x0700) 0xA op (fun x => x.act == [0, 1]) = true := by decide
  have b : ∀ op ∈ [0x03, 0x04], issuable two w0 (fields 8 0 0xFF 0xFF 0) 0xA op (fun x => decide (x.group.lanes.length ≤ 32)) = true := by decide
  ⟨fun m hm => issuing (h m hm), fun o ho => issuing (v o ho), fun o ho => issuing (b o ho)⟩

/-- A barrier that others still miss, one that completes, a block barrier of 32 and of 64 threads, and two barriers that wait for each
other. -/
def meeting (second : LaneSt) (mask : W32) : State :=
  around (threads [group0 [lane [mask], { lane [mask] with st := second, pc := 8 }]])
def full (n : Nat) : List Lane := List.replicate n (lane [])

/-- A block of two groups: one that runs, and n lanes that wait or have exited. -/
def blocks (n : Nat) (first : List Lane) (st : LaneSt) : State :=
  around (threads [group0 first, group0 (List.replicate n { lane [] with st, pc := 8 })])

theorem witness_Barriers :
    (∃ x, Issues (around (threads [group0 [lane [3], { lane [3] with pc := 64 }]])) w0 (fields 0xFF 0 0xFF 0xFF 5) 8 0x00 x ∧
      decide (x.act = [0] ∧ (x.lane 0).reg 0 = 3 ∧ x.group.storeError = none ∧ ∀ l ∈ x.group.lanes, barrierOf l = none) = true) ∧
    (∃ x, Issues (meeting (.barGroup 5 3 0) 3) w0 (fields 0xFF 0 0xFF 0xFF 5) 8 0x00 x ∧
      decide (x.act = [0] ∧ x.group.lanes.map barrierOf = [none, some (.inl (5, 3))]) = true) ∧
    (∃ x, Issues (around (threads [group0 (full 31 ++ [{ lane [] with pc := 64 }])])) w0 (fields 0xFF 0 0xFF 0xFF 1) 8 0x01 x ∧
      decide (x.act.length = 31 ∧ (blockLanes x.block).all (fun l => (barrierOf l).isNone)) = true) ∧
    (∃ x, Issues (around (threads [group0 (full 32)])) w0 (fields 0xFF 0 0xFF 0xFF 1) 8 0x01 x ∧
      decide (x.act.length = 32 ∧ 32 ≤ 32 * x.block.groups.length) = true) ∧
    (∃ x, Issues (meeting (.barGroup 6 3 0) 3) w0 (fields 0xFF 0 0xFF 0xFF 5) 8 0x00 x ∧
      decide (x.act = [0] ∧ x.group.lanes.map barrierOf = [none, some (.inl (6, 3))]) = true) ∧
    (∃ x, Issues (blocks 32 [lane [64]] (.barBlock 1 32 0)) w0 (fields 0xFF 0 0xFF 0xFF 1) 8 0x01 x ∧
      decide (x.act = [0] ∧ 64 ≤ 32 * x.block.groups.length ∧ barrierOf ((blockLanes x.block).getD 1 (lane [])) = some (.inr (1, 32))) = true) ∧
    (∃ x, Issues (blocks 32 [lane [32], lane [64]] .done) w0 (fields 0xFF 0 0xFF 0xFF 1) 8 0x01 x ∧
      decide (x.act = [0, 1] ∧ (x.lane 0).reg 0 = 32 ∧ (x.lane 1).reg 0 = 64 ∧ x.block.groups.length = 2) = true) ∧
    (∃ x, Issues (blocks 31 (full 32) (.barBlock 2 64 0)) w0 (fields 0xFF 0 0xFF 0xFF 1) 8 0x01 x ∧
      decide (x.act.length = 32 ∧ x.group.storeError = none ∧ (x.lane 0).reg 0 = 0 ∧ x.block.groups.length = 2 ∧
        (blockLanes x.block).drop 32 = List.replicate 31 { lane [] with st := .barBlock 2 64 0, pc := 8 } ∧
        (Claims.atBars w0 x).length = 2) = true) :=
  ⟨issuing (by decide), issuing (by decide), issuing (by decide), issuing (by decide), issuing (by decide), issuing (by decide),
    issuing (by decide), issuing (by decide)⟩

/-- Each instruction's word by class and OP; the words of two undefined operations. -/
theorem witness_InstructionWords :
    (∀ r ∈ Claims.threadRows w0 (fields 8 0 1 2 0), r.2.1 ≠ 6 → r.2.2.2 = fields 8 0 1 2 0) ∧
    (∀ k ∈ [0, 1, 2], (Claims.threadRows w0 (fenceFields k (fields 8 0 1 2 0))).any
      (fun r => r.2.1 == 6 && decide (r.2.2.2 = fenceFields k (fields 8 0 1 2 0))) = true) ∧
    (∀ r ∈ Claims.threadRows w0 (fieldsOf 0x0FF0000000000000), ¬(r.2.1 = 0 ∧ r.2.2.1 = 0xFF)) ∧
    fld (0x0FF0000000000000 : W64) 63 60 = 0 ∧ fld (0x0FF0000000000000 : W64) 59 52 = 0xFF :=
  ⟨by decide, by decide, by decide, by decide, by decide⟩

/-- Waits that began at tick 1, one tick before and one after the limit of 100,000 ticks is exceeded. -/
def waiting (st : LaneSt) (now : Nat) : State :=
  around { threads [group0 [{ lane [] with st, pc := 8 }]] with tick := now }

theorem witness_WaitsAndTheirLimits :
    (∀ st ∈ [LaneSt.barGroup 0 1 1, .barBlock 0 32 1, .waitCc 0 1 1, .waitArr 0 1 1],
      (laneOf (waiting st 100001).m w0 0).map (fun l => l.st) = some st ∧ 1 + rd (waiting st 100002).m OD.barrierLimit < 100002 ∧
      100001 ≤ 1 + rd (waiting st 100001).m OD.barrierLimit) ∧
    (∃ x, Issues two w0 (fields 0xFF 0 0xFF 0xFF 0xF) 0xE 0x00 x ∧ decide (x.group.storeError = none) = true) ∧
    (∃ x, Issues two w0 (fields 0xFF 0 1 0xFF 0) 0xE 0x01 x ∧ decide (x.group.storeError = none) = true) :=
  ⟨by decide, issuing (by decide), issuing (by decide)⟩

end Sys2Proof.Tests

namespace Sys2Proof.Tests

/-- An issue with a decidable property, for each case of a list. -/
theorem issuing' {s : State} {f : Fields} {cls op : Nat} {P : Issue → Prop} [DecidablePred P]
    (h : issuable s w0 f cls op (fun x => decide (P x)) = true) : ∃ x, Issues s w0 f cls op x ∧ P x :=
  match issuing h with
  | ⟨x, hx, hp⟩ => ⟨x, hx, of_decide_eq_true hp⟩

theorem issuingAll {α : Type} {l : List α} {s : α → State} {f : α → Fields} {cls op : α → Nat} {P : α → Issue → Prop}
    [∀ a, DecidablePred (P a)] (h : l.all (fun a => issuable (s a) w0 (f a) (cls a) (op a) (fun x => decide (P a x))) = true) :
    ∀ a ∈ l, ∃ x, Issues (s a) w0 (f a) (cls a) (op a) x ∧ P a x :=
  fun a ha => issuing' (List.all_eq_true.mp h a ha)

/-- Lanes with an address in the pair r0, r1 and operands in r2 to r5. -/
def at_ (a : Nat) (r : List W32) : Lane := lane ([BitVec.ofNat 32 a, BitVec.ofNat 32 (a / 2 ^ 32)] ++ r)
def near : State := around (threads [group0 [at_ 0x1000 [5, 6, 7, 8], at_ 0x1010 [9, 10, 11, 12]]])
def far : State := around (threads [group0 [at_ (2 ^ 50) [5, 6, 7, 8], at_ (2 ^ 50 + 64) [9, 10, 11, 12]]])

/-- Two lanes that name one location of another device. -/
def same : State := around (threads [group0 [at_ (2 ^ 50) [5, 6, 7, 8], at_ (2 ^ 50) [9, 10, 11, 12]]])

/-- Two lanes at the first and the last shared-memory access of n bytes. -/
def ends (n : Nat) : State := around (threads [group0 [lane [0], lane [BitVec.ofNat 32 (1024 - n)]]])

/-- Memory accesses and atomics, by IMM. -/
def mem (k : Nat) : Fields := fields 4 0 8 0xFF (BitVec.ofNat 16 k)
def load (k : Nat) : Fields := { mem k with srcB := 0xFF }
def store (k : Nat) : Fields := { mem k with dst := 0xFF }
def atomic (o t : Nat) : Fields := { mem (o * 4096 + t * 512) with srcC := if o == 7 then 10 else 0xFF }

/-- Integer types with every operation, and FP32 with those it has. -/
def pairs : List (Nat × Nat) :=
  (List.range 10).flatMap (fun o => [0, 1, 2, 3].map (fun t => (o, t))) ++ [0, 1, 2, 6, 7].map (fun o => (o, 4))

theorem witness_SharedMemory :
    (∀ k ∈ [0, 1, 2, 3, 4], ∃ x, Issues (ends (2 ^ k)) w0 (load k) 4 0 x ∧ Claims.SlmFits (load k) x (2 ^ k)) ∧
    (∀ k ∈ [0, 1, 2, 3, 4], ∃ x, Issues (ends (2 ^ k)) w0 (store k) 4 1 x ∧ Claims.SlmFits (store k) x (2 ^ k)) ∧
    (∀ k ∈ pairs, ∃ x, Issues (ends (atomBytes k.2)) w0 (atomic k.1 k.2) 5 0 x ∧ Claims.SlmFits (atomic k.1 k.2) x (atomBytes k.2)) :=
  ⟨issuingAll (by decide), issuingAll (by decide), issuingAll (by decide)⟩

/-- Whether the hypotheses of an access to local memory hold. -/
abbrev local_ (s : State) (f : Fields) (k : Need) (n : Nat) (x : Issue) : Prop :=
  Claims.LocalData s f x k n ∧ s.m.seq.st ≠ .committing ∧ (mget Prefetcher.none s.m.mem.prefetch x.block.core).buffer = []

/-- Two lanes, at the first line of memory and the last 16 bytes that the context grants. -/
def edges : State := around (threads [group0 [at_ 0 [5, 6, 7, 8], at_ (2 ^ 24 - 16) [9, 10, 11, 12]]])

/-- A step that is open or committing, with a region of 4 KiB at 1 MiB whose other half stands at 2 MiB. -/
def shadowed (st : SeqSt) : State := around { threads [group0 [at_ (2 ^ 20 + 4080) [5, 6, 7, 8]]] with
  seq := { StepState.reset with st, regions := [{ base := 2 ^ 20, length := 4096, half1 := 2 ^ 21, map := 3 * 2 ^ 20, zero := false }] } }

theorem witness_LocalLoadsAndStores :
    (∀ k ∈ [0, 1, 2, 3, 4], ∃ x, Issues edges w0 (load k) 4 2 x ∧ local_ edges (load k) Need.load (2 ^ k) x) ∧
    (∀ k ∈ [0, 1, 2, 3, 4], ∃ x, Issues edges w0 (store k) 4 3 x ∧ Claims.LocalData edges (store k) x Need.store (2 ^ k) ∧ edges.m.seq.st ≠ .committing ∧
      Claims.Writable edges (store k) x (2 ^ k)) ∧ edges.m.seq.regions = [] ∧
    (∀ st ∈ [SeqSt.open, .gate], ∃ x, Issues (shadowed st) w0 (store 4) 4 3 x ∧
      (x.act = [0] ∧ Claims.LocalData (shadowed st) (store 4) x Need.store 16 ∧ Claims.Writable (shadowed st) (store 4) x 16 ∧
        inStep (shadowed st).m = true ∧ (shadowed st).m.mem.lost = none ∧ Claims.local_ (store 4) x 0 = 2 ^ 20 + 4080 ∧
        ∀ r ∈ (shadowed st).m.seq.regions, r.base % 64 = 0 ∧ r.half1 % 64 = 0 ∧ r.length % 64 = 0 ∧
          r.base + r.length ≤ r.half1 ∧
          ∀ c ∈ [true, false], poisoned (shadowed st).m.mem (storeAt (shadowed st).m.mem (halfAddr r c (Claims.local_ (store 4) x 0)) / 64) = false)) ∧
    (∃ x, Issues (shadowed .committing) w0 (load 4) 4 2 x ∧ (x.act = [0] ∧ Claims.LocalData (shadowed .committing) (load 4) x Need.load 16 ∧
      (shadowed .committing).m.seq.st = .committing ∧ shadowOf (shadowed .committing).m (Claims.local_ (load 4) x 0) ≠ none)) ∧
    (∃ x, Issues (shadowed .committing) w0 (store 4) 4 3 x ∧ (x.act = [0] ∧ Claims.LocalData (shadowed .committing) (store 4) x Need.store 16 ∧
      Claims.Writable (shadowed .committing) (store 4) x 16)) ∧
    (∃ x, Issues (shadowed .committing) w0 (atomic 0 2) 5 1 x ∧ (x.act = [0] ∧ Claims.LocalData (shadowed .committing) (atomic 0 2) x Need.atomic 8 ∧
      Claims.Writable (shadowed .committing) (atomic 0 2) x 8)) :=
  ⟨issuingAll (by decide), issuingAll (by decide), by decide, issuingAll (by decide), issuing' (by decide), issuing' (by decide), issuing' (by decide)⟩

theorem witness_LocalAtomic : (∀ k ∈ pairs, ∃ x, Issues edges w0 (atomic k.1 k.2) 5 1 x ∧
    Claims.LocalData edges (atomic k.1 k.2) x Need.atomic (atomBytes k.2) ∧ Claims.Writable edges (atomic k.1 k.2) x (atomBytes k.2)) ∧
    edges.m.seq.regions = [] :=
  ⟨issuingAll (by decide), by decide⟩

theorem witness_RemoteAccess :
    (∀ k ∈ [0, 1, 2, 3, 4], ∃ x, Issues far w0 (load k) 4 2 x ∧ Claims.RemoteAccess far (load k) x (2 ^ k)) ∧
    (∀ k ∈ [0, 1, 2, 3, 4], ∃ x, Issues far w0 (store k) 4 3 x ∧ Claims.RemoteAccess far (store k) x (2 ^ k)) ∧
    (∀ k ∈ pairs, ∃ x, Issues far w0 (atomic k.1 k.2) 5 1 x ∧ Claims.RemoteAccess far (atomic k.1 k.2) x (atomBytes k.2)) ∧
    (∃ x, Issues same w0 (atomic 0 2) 5 1 x ∧ (Claims.RemoteAccess same (atomic 0 2) x 8 ∧ Claims.places (atomic 0 2) x = [2 ^ 50] ∧
      Claims.naming (atomic 0 2) x (2 ^ 50) = [0, 1])) :=
  ⟨issuingAll (by decide), issuingAll (by decide), issuingAll (by decide), issuing' (by decide)⟩

end Sys2Proof.Tests

namespace Sys2Proof.Tests

/-- Words in memory from an address up. -/
def stored (a : Nat) (ws : List W64) (d : Dev) : Dev :=
  { d with mem := { d.mem with cells := (bytesOf ws).zipIdx.filterMap (fun p => if p.1 = 0 then none else some (a + p.2, p.1)) } }

/-- A group with a fence that waits for operation 7, which is outstanding or not, with the status it has met. -/
def fenced (op : FabOp) (out acq : Bool) (st : Status) : State :=
  let g : Group := { group0 [{ lane [] with st := .waitFence, pc := 8 }, lane []] with
    stores := if out then [{ lane := 1, addr := 2 ^ 50, size := 8, op := 7 }] else [], fences := [⟨[0], [7], acq, st⟩] }
  around { threads [g] with tw := { TwizanState.reset with ctxs := [(0, ctx0)], ops := if out then [(7, op)] else [] } }
def storeOp : FabOp :=
  { desc := { words := [], ctx := 0, origin := .lane 0 0, record := [], step := 0, mb := 0 }, use_ := .storeLane w0 1, slot := 8192,
    epoch := 0, seq := 0, sequenced := false,
    pkts := [{ kind := .store, dst := 2 ^ 50, localAddr := 0, len := 8, st := .flying, attempt := 0, spent := 0, firstSent := 0, lastSent := 0,
               port := 0, busyAt := none, resent := false }],
    begun := true, status := ST.ok, fixed := false, bytes := 0, result := 0, data := [], multi := false, counted := false, after := [] }

/-- The group of w0 with a failed remote store. -/
def failed : State :=
  around (threads [{ group0 [lane [1, 0, 0], { lane [0] with pc := 8 }] with storeError := some ST.access }])

theorem witness_FencesAndDeferredErrors :
    (∀ i ∈ [0, 1, 2, 3], ∃ x, Issues two w0 (fenceFields 0 (fields 0xFF 0xFF 0xFF 0xFF i)) 6 0 x ∧ x.act = [0, 1]) ∧
    (∀ i ∈ [0, 1, 2, 3], ∃ x, Issues two w0 (fenceFields 1 (fields 0xFF 0xFF 0xFF 0xFF i)) 6 0 x ∧ x.group.storeError = none) ∧
    (∀ i ∈ [0, 1, 2, 3], ∃ x, Issues two w0 (fenceFields 2 (fields 0xFF 0xFF 0xFF 0xFF i)) 6 0 x ∧ x.group.storeError = none) ∧
    (Claims.unacked (fenced storeOp true false ST.ok).m = [7] ∧ ∀ k ∈ [1, 2], ∃ x,
      Issues (fenced storeOp true false ST.ok) w0 (fenceFields k (fields 0xFF 0xFF 0xFF 0xFF 3)) 6 0 x ∧ x.group.storeError = none) ∧
    (∃ b g, findGroup (fenced storeOp true true ST.ok).m w0 = some (b, g) ∧
      (∀ fw ∈ g.fences, ∃ i ∈ fw.ops, (mfind (fenced storeOp true true ST.ok).m.tw.ops i).isSome = true) ∧
      g.stores.map (fun p => (mfind (fenced storeOp true true ST.ok).m.tw.ops p.op).map
        (fun o => (o.use_, o.fixed, o.pkts.all (fun q => q.st == .flying)))) = [some (.storeLane w0 1, false, true)]) ∧
    (∀ e ∈ [ST.ok, ST.access], ∃ b g fw, findGroup (fenced storeOp false true e).m w0 = some (b, g) ∧ g.fences = [fw] ∧
      (∀ i ∈ fw.ops, mfind (fenced storeOp false true e).m.tw.ops i = none) ∧ fw.status = e ∧ fw.lanes = [0] ∧
      g.lanes[0]?.map (fun l => l.pc) = some 8) ∧
    (∀ r ∈ [(6, 0, fenceFields 1 (fields 0xFF 0xFF 0xFF 0xFF 0)), (6, 0, fenceFields 2 (fields 0xFF 0xFF 0xFF 0xFF 0)),
        (7, 4, fields 0xFF 0xFF 0xFF 0xFF 0), (8, 0, fields 0xFF 0 0xFF 0xFF 0), (8, 1, fields 0xFF 2 0xFF 0xFF 0),
        (0xB, 0, fields 4 0 0xFF 0xFF 0), (0xC, 0, fields 4 0 0xFF 0xFF 0), (0xD, 0, fields 4 0 0xFF 0xFF 0),
        (0xE, 0, fields 0xFF 0 0xFF 0xFF 0), (0xE, 1, fields 0xFF 0 0 0xFF 0)], ∃ x, Issues failed w0 r.2.2 r.1 r.2.1 x ∧
      (x.group.storeError = some ST.access ∧ (∀ i ∈ x.act, ((x.lane i).reg 0).getLsbD i = true ∧ (x.lane i).reg 2 = 0) ∧
        ∀ l ∈ blockLanes x.block, barrierOf l = none)) :=
  ⟨issuingAll (by decide), issuingAll (by decide), issuingAll (by decide), ⟨by decide, issuingAll (by decide)⟩,
    ⟨_, _, rfl, by decide, by decide⟩, fun e he => ⟨_, _, ⟨[0], [7], true, e⟩, rfl, rfl, fun i _ => rfl, rfl, rfl, rfl⟩, issuingAll (by decide)⟩

/-- A product of 1 by 1 FP32 matrices with K 2, with a record, and the copy of one FP32 element. -/
def product : List W64 :=
  [0x0000000000000001, 0x1000, 0x1100, 0x1200, 0, 0x0000000100000001, 0x0000000800000002, 0x0000000400000004, 0, 0, 0, 0, 0, 0, 0x1300, 0]
def copying : List W64 :=
  [15 * 2 ^ 13, 0x1000, 0, 0x1200, 0, 0x0000000100000001, 4, 4, 0xF0F0, 0, 0, 0, 0, 0, 0, 0, 0x1300, 0, 0, 0, 0]

/-- One lane that posts the descriptor at an address; the units' and the queue's numbers of waiting descriptors. -/
def op1 (ws : List W64) : UnitOp := { words := ws, by_ := ⟨0, 0, 0, 0, 0, 0⟩ }
def posting (a : Nat) (ws : List W64) (n : Nat) : State :=
  let y : FabDesc := { words := [], ctx := 0, origin := .doorbell, record := [], step := 0, mb := 0 }
  let q : ExecUnit := { queue := List.replicate n (op1 product), run := none }
  around { stored 0x2000 ws (threads [group0 [at_ a [0, 0]]]) with
    units := [(0, q)], piste := [(0, q)],
    tw := { TwizanState.reset with ctxs := [(0, ctx0)], queues := [(0, ⟨List.replicate n y, [], []⟩)] } }
def post : Fields := fields 4 0 0xFF 0xFF 0

theorem witness_PostingInstructions :
    (∃ x, Issues (posting 0x2000 product 7) w0 post 0xB 0 x ∧ (x.group.storeError = none ∧ x.act = [0] ∧ Claims.addr post x 0 = 0x2000 ∧
      matrixFull x 0x2000 (posting 0x2000 product 7).m = false ∧
      Claims.matrixStatus (posting 0x2000 product 7) x 0x2000 = ST.ok)) ∧
    (∃ x, Issues (posting 0x2040 product 7) w0 post 0xB 0 x ∧ (x.act = [0] ∧
      Claims.matrixStatus (posting 0x2040 product 7) x 0x2040 = ST.invalid)) ∧
    (∃ x, Issues (posting 0x2000 product 8) w0 post 0xB 0 x ∧ (x.act = [0] ∧ matrixFull x 0x2000 (posting 0x2000 product 8).m = true)) ∧
    (∃ x, Issues (posting 0x2000 copying 3) w0 post 0xC 0 x ∧ (x.group.storeError = none ∧ x.act = [0] ∧
      (mget ExecUnit.empty (posting 0x2000 copying 3).m.piste x.block.core).queue.length < 4 ∧
      Claims.chainStatus (posting 0x2000 copying 3) x 0x2000 = ST.ok)) ∧
    (∃ x, Issues (posting 0x2000 copying 4) w0 post 0xC 0 x ∧ (x.act = [0] ∧
      4 ≤ (mget ExecUnit.empty (posting 0x2000 copying 4).m.piste x.block.core).queue.length)) ∧
    (∃ x, Issues (posting 0x2000 [] 63) w0 post 0xD 0 x ∧ (x.act = [0] ∧ (queueOf (posting 0x2000 [] 63).m 0).accepted.length < 64 ∧
      works (posting 0x2000 [] 63).m (computeFn x.block.core) = true ∧ useAny (posting 0x2000 [] 63).m linkDies = ST.ok)) ∧
    (∃ x, Issues (posting 0x2000 [] 64) w0 post 0xD 0 x ∧ (x.act = [0] ∧ 64 ≤ (queueOf (posting 0x2000 [] 64).m 0).accepted.length)) :=
  ⟨issuing' (by decide), issuing' (by decide), issuing' (by decide), issuing' (by decide), issuing' (by decide), issuing' (by decide),
    issuing' (by decide)⟩

/-- A request that its object takes. -/
theorem accepted {d : Dev} {p : Path} {key : Nat} {acc : Access} (h : answers d p = true ∧ unknownSession d p = false ∧
    mayWrite d p acc = true ∧ lockedOut d key acc p = false ∧ ownerStatus d key false = ST.ok) : Claims.Accepted d p key acc :=
  ⟨⟨h.1, h.2.1, h.2.2.1, h.2.2.2.1⟩, h.2.2.2.2⟩

/-- Rails at 800 mV with one monitor's reading, 0.5, and one die's temperature, 50. -/
def lowering : Dev :=
  { up with
    od := [(monitorKey 0, 0x3F000000), (OD.temperature, 0x42480000)] ++ up.od
    pow := { PowerState.reset with rail := 800, ratioNum := 1, ratioDen := 1 } }

/-- A setpoint of 620 mV, and the ramp toward the one in force, lower the rails and raise the ratio that is assumed. -/
theorem witness_LoweringIsReportedAtOnce :
    largestReading lowering = some (0, 1 / 2) ∧ hottestDie lowering = some 50 ∧ lowering.pow.loweredTo = none ∧
    (∀ v ∈ [min (min 620 (rd lowering OD.thermalCap)) (min (rd lowering OD.powerCap) lowering.pow.phaseCap), Claims.inForce lowering],
      0 < v ∧ v < lowering.pow.rail ∧ (1 / 2 : ℚ) < guideModel (mkRat v 1000) 50 * mkRat lowering.pow.ratioNum lowering.pow.ratioDen) ∧
    (lowering.ckpt.holds = false ∧ lowering.seq.reached = false) ∧ lowering.pow.rail ≠ 0 ∧ works lowering OD.readyThermal = true :=
  ⟨by decide +kernel, by decide +kernel, by decide, by decide +kernel, by decide, by decide, by decide⟩

/-- Forty readings of 1.0. -/
theorem witness_SupplySetpoint :
    (∀ p ∈ [Path.field 5, .mailbox 6, .slot 0, .slot 3], answers up p = true ∧ unknownSession up p = false ∧
      Claims.Accepted up p OD.supplySetpoint .rws ∧ authed up p = true) ∧
    (∀ mv ∈ [620, 750, 880], 620 ≤ mv ∧ mv ≤ 880 ∧ mv % 5 = 0) ∧
    (∀ mv ∈ [619, 621, 879, 881], mv < 620 ∨ 880 < mv ∨ mv % 5 ≠ 0) ∧
    (∀ p ∈ [Path.field 0, .mailbox 0], answers up p = true ∧ unknownSession up p = false ∧ authed up p = false) ∧
    (around { up with pow := { PowerState.reset with rail := 750 } }).m.ckpt.holds = false ∧ works up OD.readyThermal = true ∧
    (rd up OD.monitorFailed = 0 ∧ (∀ die < 6, dieModel up die = none)) ∧ up.pow.rail ≤ Claims.inForce up ∧ ratOf 0x3F800000 = some 1 ∧ 0 ≤ Claims.inForce up ∧
    works Dev.reset OD.readyThermal = false ∧ ([none] : List (Option W32))[0]? = some none ∧ (rd up OD.monitorFailed).testBit 0 = false :=
  ⟨fun p hp => have h : ∀ p ∈ [Path.field 5, .mailbox 6, .slot 0, .slot 3], answers up p = true ∧ unknownSession up p = false ∧
      (answers up p = true ∧ unknownSession up p = false ∧ mayWrite up p .rws = true ∧ lockedOut up OD.supplySetpoint .rws p = false ∧
        ownerStatus up OD.supplySetpoint false = ST.ok) ∧ authed up p = true := by decide
    ⟨(h p hp).1, (h p hp).2.1, accepted (h p hp).2.2.1, (h p hp).2.2.2⟩,
    by decide, by decide, by decide, by decide, by decide, by decide, by decide, by decide, by decide, by decide, by decide, by decide⟩

end Sys2Proof.Tests

namespace Sys2Proof.Tests

/-- Events raised on dies 3 and 4, and an event FIFO of die 4 with room for a packet, after a drop. -/
def e4 : Event := ⟨0x2001, 0, 7, [8]⟩
def publishing : Dev :=
  { up with
    ev := { EvState.reset with raised := [(3, e4), (4, e4), (4, e4)], events := [(4, ⟨[[0]], 1, 4⟩)] }
    od := (OD.traceEnable, 16) :: up.od }

theorem witness_PacketPublishing :
    (∃ pre post, publishing.ev.raised = pre ++ [(4, e4)] ++ post ∧ (∀ q ∈ pre, q.1 ≠ 4) ∧ e4.details.length ≤ 15) ∧
    (∀ q ∈ publishing.ev.raised, q.1 ≠ 5) ∧ (rd publishing OD.traceEnable).testBit 4 = true ∧
    (rd publishing OD.traceEnable).testBit 5 = false :=
  ⟨⟨[(3, e4)], [(4, e4)], by decide⟩, by decide, by decide, by decide⟩

/-- A launch descriptor: so many blocks of one group with 16 registers and 1 KiB, on cores 0 to 1. -/
def launchWords (blocks : Nat) : List W64 :=
  [0, BitVec.ofNat 64 (blocks + 2 ^ 32 + 2 * 2 ^ 38 + 2 ^ 43), 0x4000, 5 + 2 ^ 27]
def itemAt : ItemRun := ⟨.pre, 0, 1, false, 0, 0, 0x2000, 0, 3, .waiting, none, none⟩
def launching (ws : List W64) : Dev :=
  { stored 0x2000 ws (threads []) with seq := { StepState.reset with st := .open, items := [(7, itemAt)] } }

theorem witness_GridsAndBlocks :
    (∀ n ∈ [0, 1, 3], launchItemOf (launching (launchWords n)) 0x2000 3 = some 7 ∧
      mfind (launching (launchWords n)).seq.items 7 = some itemAt ∧ mayBegin (launching (launchWords n)) itemAt = true) ∧
    launchItemOf (threads []) 0x2000 3 = none ∧
    (∀ n ∈ [0, 1, 3], (readMem (launching (launchWords n)) 0x2000 32).1 = ST.ok ∧
      launchStatus (launching (launchWords n)) (wordsOf 4 (readMem (launching (launchWords n)) 0x2000 32).2) = ST.ok ∧
      fld (word (wordsOf 4 (readMem (launching (launchWords n)) 0x2000 32).2) 1) 31 0 = n) ∧
    (∀ ws ∈ [[4, 2 ^ 32 + 2 ^ 38, 0, 0], [0, 2 ^ 38, 0, 0], [0, 33 * 2 ^ 32 + 2 ^ 38, 0, 0], [0, 2 ^ 32, 0, 0], [0, 2 ^ 32 + 2 ^ 38 + 257 * 2 ^ 43, 0, 0],
        [0, 2 ^ 32 + 2 ^ 38, 0, 2 ^ 16]], (readMem (launching ws) 0x2000 32).1 = ST.ok ∧
      Claims.badLaunch (wordsOf 4 (readMem (launching ws) 0x2000 32).2)) ∧
    (mfind (threads []).grids 0 = some grid0 ∧ mayStart { threads [] with grids := [(0, { grid0 with next := 0 })] } 0 { grid0 with next := 0 } = true) ∧
    (∀ g ∈ [{ grid0 with fault := some ST.access }, { grid0 with next := 1 }, { grid0 with firstCore := 1 }],
      g.fault.isSome = true ∨ g.blocks ≤ g.next ∨ 0 < g.firstCore) ∧
    (∀ g ∈ [{ grid0 with next := 1, ended := 1 }, { grid0 with next := 0, fault := some ST.access }],
      g.complete = false ∧ g.ended = g.next ∧ (g.fault.isSome = true ∨ g.next = g.blocks)) ∧
    ({ grid0 with next := 1 }).ended ≠ ({ grid0 with next := 1 } : Grid).next ∧
    ∃ x, Issues two w0 (fieldsOf 0x000E080001020000) 0 0 x ∧ x.act = [0, 1] :=
  ⟨by decide, by decide, by decide, by decide, by decide, by decide, by decide, by decide, issuing' (by decide)⟩

/-- Units 0 and 1 and engine 0 with a descriptor that waits, or an operation under way with a status and checks to come. -/
def queued (ws : List W64) : Dev :=
  { threads [] with
    units := [(0, ⟨[op1 ws], none⟩), (1, ⟨[op1 ws], none⟩)], piste := [(0, ⟨[op1 ws], none⟩)] }
def runOf (ws : List W64) (st : Status) (checks : List Nat) : UnitRun := { UnitRun.fresh (op1 ws) with status := st, ovf := true, checks }
def underway (ws : List W64) (st : Status) (checks : List Nat) : Dev :=
  { threads [] with
    units := [(0, ⟨[], some (runOf ws st checks)⟩), (1, ⟨[], some (runOf ws st checks)⟩)],
    piste := [(0, ⟨[], some (runOf ws st checks)⟩)] }

/-- The product and one of two rows and columns, in parts: each of one part; a part of a product whose operand A is poison. -/
def square : List W64 := [1, 0x1000, 0x1100, 0x1200, 0, 0x0000000200000002, 0x0000000800000002, 0x0000000800000008, 0, 0, 0, 0, 0, 0, 0x1300, 0]
theorem witness_MatrixParts :
    partCount true square = 1 ∧ (1 < mxM square ∧ 1 < mxN square) ∧ (runOf square ST.ok []).status = ST.ok ∧
    (∀ skate ∈ [false, true], (runPart skate false { up with mem := { up.mem with poison := [0x40] } }
      (runOf product ST.ok [], { up with mem := { up.mem with poison := [0x40] } }) 0).1.status = ST.poison) ∧
    up.mem.settled = true :=
  ⟨by decide, by decide, by decide, by decide +kernel, by decide⟩

/-- Memory without poison, loss, CXL ports and regions. -/
theorem unpoisoned {d : Dev} (hr : d.seq.regions = []) (hp : d.mem.poison = []) (hl : d.mem.lost = none) (hc : d.mem.cxl = []) (a : Nat) :
    poisonAt d a = false := by
  have h : readPlace d a = some a := by simp [readPlace, shadowOf, hr]
  have p : ∀ l, poisoned d.mem l = false := fun l => by simp [poisoned, lostLine, hp, hl]
  have x : ∀ e, (cxlPort d.mem e).st = .off := fun e => by simp [cxlPort, hc, mget, mfind, CxlPort.none]
  have q : portDead d.mem a = false := by
    unfold portDead
    generalize zone a = z
    generalize cxlPortOf d.mem a = o
    cases z <;> cases o <;> simp [x]
  unfold poisonAt
  rw [h]
  simp only [p, q, Bool.or_self]

theorem witness_MatrixOperations :
    (∀ k ∈ [false, true], Claims.Ready (queued product) (Claims.unitAt (queued product) 0 k) (Claims.unitId 0 k) 0 (op1 product) [] ∧
      (Claims.unitAt (queued product) 0 false).run = none ∧ MemoryOpen (queued product)) ∧
    (mxM product = 1 ∧ mxN product = 1 ∧ mxMode product = 0 ∧ mxA product = 0 ∧ mxB product = 0 ∧ mxC product = 0 ∧
      mxTransA product = false ∧ mxTransB product = false ∧ mxAccIn product = false ∧ mxRnd product = false ∧ mxK product = 2 ∧
      (queued product).seq.regions = [] ∧ anyOverlap (mxInputs product) (mxOutputs product) = false ∧ mxCAddr product % 4 = 0 ∧
      writeStatus (queued product) (mxCAddr product) 4 = ST.ok ∧ writeBarred (queued product) (mxCAddr product) = false) ∧
    (∀ a, poisonAt (queued product) a = false) ∧
    (∀ c ∈ [(ST.ok, []), (ST.ok, [0]), (ST.poison, []), (ST.poison, [0])], ∀ k ∈ [false, true],
      (Claims.unitAt (underway product c.1 c.2) 0 k).run.map (fun r => (r.status, r.checks)) = some c ∧
      engineInReset (underway product c.1 c.2) (Claims.unitId 0 k) = false ∧ clusterFenced (underway product c.1 c.2) 0 = false ∧
      engineInReset (underway product c.1 c.2) 0x2000 = false ∧
      ((Claims.unitAt { underway product c.1 c.2 with units := [(0, ⟨[], some (runOf product c.1 c.2)⟩)] } 0 true).run = none) ∧
      writeStatus (underway product c.1 c.2) (mxRecord product) 16 = ST.ok ∧ mxRecord product % 16 = 0) :=
  ⟨fun k hk => have h : ∀ k ∈ [false, true], ((Claims.unitAt (queued product) 0 k).queue = [op1 product] ∧
      (Claims.unitAt (queued product) 0 k).run = none ∧ engineUse (queued product) (Claims.unitId 0 k) 0 = ST.ok) ∧
      (Claims.unitAt (queued product) 0 false).run = none := by decide
    ⟨⟨(h k hk).1.1, (h k hk).1.2.1, (h k hk).1.2.2⟩, (h k hk).2, Or.inl (by decide), by decide⟩, by decide, unpoisoned rfl rfl rfl rfl, by decide⟩

theorem witness_ChainOperations :
    Claims.Ready (queued copying) (mget ExecUnit.empty (queued copying).piste 0) 0x3000 0 (op1 copying) [] ∧ (queued copying).seq.regions = [] ∧
    (∀ c ∈ [(ST.ok, 0), (ST.poison, 0)], (mget ExecUnit.empty (underway copying c.1 []).piste 0).run.map (fun r => r.status) = some c.1 ∧
      engineInReset (underway copying c.1 []) 0x3000 = false ∧ clusterFenced (underway copying c.1 []) 0 = false ∧
      writeStatus (underway copying c.1 []) (chRecord copying) 16 = ST.ok) :=
  ⟨⟨by decide, by decide, by decide⟩, by decide, by decide⟩

/-- The errors that make a line of zeros the codeword of a line whose first byte is 1. -/
def toOther : List (Nat × BitVec 16) :=
  let data := symbolsOf (1 :: List.replicate 63 0)
  (rsCheck data ++ data).zipIdx.map (fun p => (p.2, BitVec.ofNat 16 p.1))

/-- Reads of HBM: clean, another codeword, one and two wrong symbols on a line of zeros, three on it, and poison. -/
theorem witness_LinesOfHbm :
    (∀ a ∈ [0, reserveEnd - 64], a < reserveEnd ∧ inLlc up.mem (a / 64) = false) ∧
    Claims.decoded up 0 [] = .clean (List.replicate 64 0) ∧ MemoryOpen up ∧
    (match Claims.decoded up 0 toOther with | .clean b => b != List.replicate 64 0 | _ => false) = true ∧
    (∀ r ∈ [({ granule := 3, spare := 9, done := false } : Retired)], r.granule = 3 ∧ r.done = false ∧ r.granule ≠ 4) ∧
    Claims.decoded { up with mem := { up.mem with poison := [0] } } 0 [] = .poison ∧
    (match Claims.decoded up 0 [(4, 1)] with | .corrected 1 b => b.length == 64 | _ => false) = true ∧ 1 < rd up OD.retireCount ∧ up.mem.corrected = [] ∧
    (match Claims.decoded up 0 [(4, 1), (9, 2)] with | .corrected 2 b => b.length == 64 | _ => false) = true ∧ up.mem.retired = [] ∧ (nextSpare up.mem).isSome = true ∧
    Claims.decoded up 0 [(4, 1), (5, 1), (6, 1)] = .bad ∧
    works up OD.readyHbm = true ∧ works Dev.reset OD.readyHbm = false ∧
    heldAt up.mem up.mem.scrubNext = some 0 ∧ Sys2Proof.Machine.queued up.mem 0 = false ∧ (makeRoom (setKey 0) up.mem).isSome = true ∧
    up.mem.settled = true ∧ up.seq.st ≠ .committing ∧
    (∀ i < 4, hbmCopy up.mem i = ⟨List.replicate 64 0, false⟩) :=
  ⟨by decide, by decide +kernel, ⟨Or.inl (by decide), by decide⟩, by decide +kernel, by decide, by decide +kernel, by decide +kernel,
    by decide, by decide, by decide +kernel, by decide, by decide +kernel, by decide +kernel, by decide, by decide, by decide, by decide,
    by decide, by decide, by decide, by decide⟩

end Sys2Proof.Tests

namespace Sys2Proof.Tests

/-- A device with memory as given. -/
def held (m : MemState) : Dev := { up with mem := m, tick := 200000 }
def mem0 : MemState := MemState.reset
def line0 : MemState := { mem0 with llc := [⟨0, true, none⟩] }

/-- A core with a confirmed stream of lines 4, 5, 6. -/
def streaming : MemState := { mem0 with prefetch := [(0, ⟨[⟨6, 1, 2⟩], []⟩)] }
def descending : MemState := { mem0 with prefetch := [(0, ⟨[⟨8, -1, 2⟩], []⟩)] }
def cxl (st : CxlSt) (down last : Nat) : Dev := held { mem0 with cxl := [(0, ⟨st, 2 ^ 40, 9, down, last⟩)], roles := [2, 0] }

/-- A die without enough reserve off its places: a table with as many spares as that takes. -/
def spared (n : Nat) : MemState := { mem0 with lost := some 3, rehoming := true, retired := List.replicate n ⟨0, 0, true⟩ }
theorem spared_left (n : Nat) : reserveLeft (spared n) 3 = 36864 * 1024 - n := by
  have h : onDie 3 0 = false := by decide
  simp [reserveLeft, spareRanks, spared, List.length_insertionSort, h, dieGroup]
theorem witness_DieRehomeFails :
    ∃ m : MemState, m.lost = some 3 ∧ m.rehoming = true ∧ reserveLeft m 3 < 2 ^ 25 := by
  refine ⟨spared (2 ^ 23), rfl, rfl, ?_⟩
  rw [spared_left]
  omega

theorem witness_MemoryFaultsAndCxl :
    (inStep up = false ∧ up.mem.lost = none ∧ ((held { mem0 with lost := some 3, rehoming := true }).mem.lost = some 3 ∧ 3 ≠ 16 * 1 + 2) ∧
      up.mem.rehoming = false ∧ 2 ^ 25 ≤ reserveLeft mem0 3 ∧ works up OD.readyHbm = true) ∧
    (up.mem.settled = true ∧ zone 0 = .hbm ∧ (sliceOf (64 * 0) = sliceOf 0 ∧ sliceOf (64 * 1) ≠ sliceOf 0)) ∧
    (7 ∈ (mget Prefetcher.none descending.prefetch 0).trackers.map (fun t => (t.last + t.stride * 1).toNat) ∧ (-1 : Int) < 0) ∧
    (inLlc line0 0 = true ∧ setKey 0 * 16 ∉ line0.llcOff ∧ mget [] line0.llcErrs (16 * setKey 0) = [] ∧
      mget [] { line0 with llcErrs := [(16 * setKey 0, [199999])] }.llcErrs (16 * setKey 0) = [199999] ∧
      200000 ≤ 199999 + rd (held line0) OD.retireWindow * 1000000) ∧
    ((∃ t ∈ (mget Prefetcher.none streaming.prefetch 0).trackers, 2 ≤ t.hits ∧ ∃ k ∈ [1], 1 ≤ k ∧
        k ≤ rd (held streaming) OD.prefetchDistance ∧ (7 : Int) = t.last + t.stride * k) ∧
      (readMem (held streaming) (64 * 7) 64).1 = ST.ok ∧ (∀ b ∈ (mget Prefetcher.none streaming.prefetch 0).buffer, b.line ≠ 7) ∧
      (readMem (held mem0) hbmEnd 64).1 ≠ ST.ok) ∧
    ((mget CxlPort.none (cxl .up 0 0).mem.cxl 0).st = .up ∧ (mget CxlPort.none (cxl .up 0 0).mem.cxl 1).st ≠ .up ∧
      ((mget CxlPort.none (cxl .off 0 0).mem.cxl 0).st = .off ∧ edgeRoleOf (cxl .off 0 0) 0 = 2 ∧
        readyState (cxl .off 0 0) (edgeFn 0) ≠ RS.absent) ∧
      ((mget CxlPort.none (cxl .down 0 100000).mem.cxl 0).st = .down ∧ 100000 + 100000 ≤ (cxl .down 0 100000).tick) ∧
      (cxl .down 0 100001).tick < 100001 + 100000 ∧ (2 ^ 40 ≠ 2 ^ 39 ∧ (9 : Nat) ≠ 8) ∧
      ((cxl .off 0 0).mem.llc = [] ∧ (cxl .off 0 0).mem.combining = []) ∧
      (5 + rd { cxl .down 5 5 with tick := 10000005 } OD.cxlFailTime ≤ 10000005) ∧
      (cxl .down 5 5).tick < 5 + rd (cxl .down 5 5) OD.cxlFailTime) :=
  ⟨by decide, by decide +kernel, by decide, by decide⟩

theorem witness_ElementOperations :
    (∀ r ∈ Claims.accRows, 0x100 % r.target = 0 ∧ (List.replicate (2 * r.operand) (7 : Byte)).length % r.operand = 0 ∧
      writeStatus up 0x100 (2 * r.target) = ST.ok ∧ up.seq.regions = []) ∧
    (∀ a, poisonAt up a = false) ∧ (∀ a < 8, writeBarred up (0x100 + a) = false) ∧ 0x101 % 4 ≠ 0 :=
  ⟨by decide, unpoisoned rfl rfl rfl rfl, by decide, by decide⟩

/-! ## Twizan -/

/-- A device whose context 0 is in a state since tick 0; a table with a page of device 2; queue 0 with descriptors. -/
def storing : FabDesc := { words := [0x61, 2 ^ 50, 7, 0, 0, 0, 0, 0], ctx := 0, origin := .doorbell, record := [], step := 0, mb := 0 }
def entry2 : FttEntry := { size := 0, ctx := 0, rd := true, wr := true, at_ := true, cnt := true, key := 2 ^ 34, tgt := 2 ^ 34 }
def context (st : CtxSt) (tick : Nat) (ops : Map FabOp) (xs : List FabDesc) (pend : Option FttPending) : Dev :=
  setPeerGen 2 3 { stored 0x2000 storing.words (threads []) with
    tick,
    tw := { TwizanState.reset with
      ctxs := [(0, { ctx0 with st })], ftt0 := [entry2], ftt1 := [entry2], queues := [(0, ⟨xs, [], []⟩)], ops, fttPending := pend } }
def queueOp (x : FabDesc) (pkts : List PktRec) : FabOp := { storeOp with desc := x, use_ := .queue, slot := 0, pkts, sequenced := true }

theorem witness_ContextLifecycle :
    (∀ st ∈ [CtxSt.free, .live, .draining, .quiet], (ctxOf (context st 0 [] [] none) 0).st = st) ∧
    (∀ p ∈ [Path.field 5, .mailbox 6, .slot 0], ∀ key ∈ [OD.contextCommand, OD.localRegionCommand], ∀ st ∈ [CtxSt.free, .live, .draining, .quiet],
      Claims.Accepted (context st 0 [] [] none) p key .rws ∧ commandPending (context st 0 [] [] none) key = false) ∧
    (∀ o ∈ (context .draining 0 [] [] none).tw.ops, o.2.desc.ctx ≠ 0) ∧
    ((queueOp storing []).desc.ctx = 0 ∧ isRun (queueOp storing []).desc = false ∧
      0 + tDrain (context .draining 3000 [(7, queueOp storing [])] [] none) ≤ (context .draining 3000 [(7, queueOp storing [])] [] none).tick ∧
      (context .draining 2999 [(7, queueOp storing [])] [] none).tick < 0 + tDrain (context .draining 2999 [(7, queueOp storing [])] [] none)) ∧
    (0 + tLifeUs (context .quiet 421 [] [] none) ≤ 421 ∧ 420 < 0 + tLifeUs (context .quiet 420 [] [] none)) ∧
    (∀ w ∈ [(0x10001, 0x20000, false), (0x10001, 0x10000, false), (0x20001, 0x10000, true), (0x10011, 0x10000, true)],
      (fun (w1 w2 : W64) => decide (fld w1 15 4 ≠ 0 ∨ fld w1 63 49 ≠ 0 ∨ fld w2 15 0 ≠ 0 ∨ fld w2 63 49 ≠ 0 ∨ fld w2 48 16 < fld w1 48 16))
        (BitVec.ofNat 64 w.1) (BitVec.ofNat 64 w.2.1) = w.2.2) :=
  have h : ∀ p ∈ [Path.field 5, .mailbox 6, .slot 0], ∀ key ∈ [OD.contextCommand, OD.localRegionCommand],
      ∀ st ∈ [CtxSt.free, .live, .draining, .quiet],
      (answers (context st 0 [] [] none) p = true ∧ unknownSession (context st 0 [] [] none) p = false ∧
        mayWrite (context st 0 [] [] none) p .rws = true ∧ lockedOut (context st 0 [] [] none) key .rws p = false ∧
        ownerStatus (context st 0 [] [] none) key false = ST.ok) ∧ commandPending (context st 0 [] [] none) key = false := by decide
  ⟨by decide, fun p hp k hk st hs => ⟨accepted (h p hp k hk st hs).1, (h p hp k hk st hs).2⟩, by decide, by decide, by decide, by decide⟩

end Sys2Proof.Tests

namespace Sys2Proof.Tests

/-- Whether a request would reach its object. -/
abbrev takes (d : Dev) (p : Path) (key : Nat) (acc : Access) : Prop :=
  answers d p = true ∧ unknownSession d p = false ∧ mayWrite d p acc = true ∧ lockedOut d key acc p = false ∧ ownerStatus d key false = ST.ok

def s5 : Path := .field 5
def free_ (pend : Option FttPending) : Dev := context .free 0 [] [] pend
def waitingTable (bulk : Bool) (n : Nat) : FttPending := { newTable := [entry2], bulk, rest := [], inserted := n }

/-- A table whose set of entry2 is full. -/
def fullSet : List FttEntry := (List.range 8).map (fun i => { entry2 with key := 2 ^ 34 + (2 ^ 18 + 1) * (i + 1) })

theorem witness_TranslationTable :
    (∀ w ∈ [(0x1E01, 5), (0x200000 + 0x1E03, 0x20), (0x40000000 + 0x1E05, 0x4000)], Claims.goodEntry (BitVec.ofNat 64 w.1) (BitVec.ofNat 64 w.2) ∧
      Claims.fits [entry2] (entryOf (BitVec.ofNat 64 w.1) (BitVec.ofNat 64 w.2))) ∧
    ((∃ f ∈ [entry2], fttOverlap (entryOf 0x0004000000001E01 5) f = true) ∧ (∃ f ∈ [entry2], fttSame (entryOf 0x0004000000001E01 5) f = true) ∧
      ∀ f ∈ [entry2], fttSame (entryOf 0x1E01 5) f = false) ∧
    ((∀ f ∈ fullSet, fttOverlap entry2 f = false) ∧ 8 ≤ (fullSet.filter (fun f => fttSet f == fttSet entry2)).length) ∧
    ((ctxOf (free_ none) 0).st = .free ∧ (free_ none).tw.fttPending = none ∧ commandPending (free_ none) OD.fttCommand = false ∧
      takes (free_ none) s5 OD.fttCommand .rws ∧ takes (free_ none) s5 OD.fttBulkInsert .rws) ∧
    ((free_ (some (waitingTable false 0))).tw.fttPending ≠ none ∧
      (free_ (some (waitingTable false 0))).tw.fttPending = some (waitingTable false 0) ∧
      (free_ (some (waitingTable true 5))).tw.fttPending = some (waitingTable true 5)) ∧
    ((∀ q ∈ (free_ none).tw.ctxs, q.2.st = .free) ∧ takes (free_ none) s5 OD.deviceNumber .rws) ∧
    (ctxOf (context .live 0 [] [] none) 0).st ≠ .free ∧ takes (context .live 0 [] [] none) s5 OD.deviceNumber .rws ∧
    (∀ key ∈ topologyKeys, ((objDef key).map (fun o => inRange o (rd up key) && keepOk (wr key (rd up key) up))) = some true) ∧
    ((5 : Nat) ≠ devNo up ∧ portsTo up 5 = [] ∧ 5 ∉ up.tw.unreachable ∧ (31 : Nat) < 32) ∧
    keepOk (wr OD.fibreMax 2000000 up) = false ∧ takes up s5 OD.fibreMax .rws :=
  ⟨by decide, by decide, by decide, by decide, by decide, by decide, by decide, by decide, by decide, by decide, by decide⟩

/-! ## Doorbells, operations, requests and packets -/

/-- A P3 device 2 that is reached through port 0. -/
def linked (d : Dev) : Dev := setPeerGen 2 3 { d with od := [(OD.topologyClass, 0), (OD.portState, 2 + 3 * 2 ^ 5 + 2 * 2 ^ 16)] ++ d.od }

/-- Operation 7 of queue 0 with its descriptor's words. -/
def op7 (ws : List W64) (begun : Bool) : FabOp := { queueOp { storing with words := ws } [] with begun }
def opDev (op : FabOp) : Dev := context .live 0 [(7, op)] [] none
def localCopy : List W64 := [4, 0x100, 0x200, 8, 0, 0, 0, 0]
def localStore (fl : W64) : List W64 := [0x61 + fl, 0x100, 7, 0, 0, 0, 0, 0]
def pkt2 (st : PktSt) : PktRec :=
  { kind := .store, dst := 2 ^ 50, localAddr := 0, len := 8, st, attempt := 0, spent := 0, firstSent := 0, lastSent := 0, port := 0, busyAt := none, resent := false }

/-- A device whose queue 0 has an operation that waits for credits; one with a host at edge 0. -/
def creditless : Dev :=
  let d := opDev { op7 storing.words true with pkts := [pkt2 .waiting] }
  { d with tw := { d.tw with outstanding := [(2, 100000)] } }
def hosted (ops : Map FabOp) : Dev :=
  let d := context .live 0 ops [] none
  { d with mem := { d.mem with roles := [1, 0] } }

theorem witness_DoorbellsAndIssue :
    (∀ n ∈ [0, 63, 64], fabAccept (context .live 0 [] (List.replicate n storing) none) 0x2000 0
        (Claims.posted (context .live 0 [] (List.replicate n storing) none) 0x2000 0) = ST.ok ∧
      (queueOf (context .live 0 [] (List.replicate n storing) none) 0).accepted.length = n) ∧
    useAny up linkDies = ST.ok ∧ fabAccept (context .live 0 [] [] none) 0x2001 0 (Claims.posted (context .live 0 [] [] none) 0x2001 0) ≠ ST.ok ∧
    fabAccept (context .quiet 0 [] [] none) 0x2000 0 (Claims.posted (context .quiet 0 [] [] none) 0x2000 0) ≠ ST.ok ∧
    (let d := context .live 0 [] [storing] none
     (queueOf d 0).accepted = [storing] ∧ (slotOps d 0).length < rd d OD.outstandingPerQueue ∧ creditHeld d 0 d.tw.nextOp = false ∧ runHolds d 0 = false ∧
       engineInReset d 0x5000 = false ∧ (fdOp storing = 1 ∧ fdDstCntEn storing = false ∧ gDev (fdDst storing) ≠ devNo d ∧
       fdDst storing % 2 ^ fdSize storing = 0 ∧ d.tw.fttPending = none) ∧
       (fttLookup d.tw.ftt0 0 (fdDst storing)).map (fun e => (e.wr, peerGen d (gDev (e.tgt * 65536 + fdDst storing % 2 ^ pageBits e.size)))) =
         some (true, 3) ∧ mapped (gLocal (2 ^ 50)) 1 = true ∧ mapped (2 ^ 48) 1 = false ∧ fttLookup [] 0 (fdDst storing) = none) ∧
    (0 < 8192 ∧ (∃ o ∈ creditless.tw.ops, o.1 < 8 ∧ o.2.slot = 0 ∧ o.2.begun = true ∧ o.2.fixed = false ∧
      ∃ q ∈ o.2.pkts, q.st = .waiting ∧ q.busyAt = none ∧ creditOf creditless (gDev q.dst) ≤ outstandingTo creditless (gDev q.dst))) ∧
    (hostLinked up 0 = false ∧ hostLinked (hosted []) 0 = true ∧ findOp (hosted []) (hosted []).tw.nextOp = none ∧ hostWrites (hosted []) 0 = [] ∧
      lacksRoom (hosted []) (gAddr 0 doorbellBase) = false ∧ (hosted []).tw.retxUntil = none ∧
      stillStarting (hosted []) (gLocal (gAddr 0 doorbellBase)) = false) ∧
    (let d := hosted [(0, { op7 [] true with use_ := .hostWrite 0, slot := 10244 })]
     hostWrites { d with tw := { d.tw with nextOp := 1 } } 0 = [0] ∧ (0 < 1 ∧ (findOp d 0).isSome = true)) ∧
    rd { up with od := (OD.outstandingPerQueue, 0) :: up.od } OD.outstandingPerQueue ≤ (slotOps up 0).length :=
  ⟨by decide +kernel, by decide, by decide, by decide +kernel, by decide, by decide, by decide, by decide, by decide⟩

theorem witness_OperationsAndCompletion :
    (∀ k ∈ [(0x61, 0x100), (0x71, 0x100), (0x02, 0x100), (0x3003, 0x100), (0x04, 2 ^ 50)], (fun (d : Dev) (op : FabOp) =>
        (findOp d 7 = some op ∧ op.begun = false ∧ op.use_ = .queue ∧ op.fixed = false) ∧ isRun op.desc = false ∧
        Claims.goesOut d op.desc ∧ slotOps d op.slot = [(7, op)] ∧ coveredFailure d 7 op = none)
      (opDev (op7 [BitVec.ofNat 64 k.1, BitVec.ofNat 64 k.2, 0x200, 8, 0, 0, 0, 0] false))
      (op7 [BitVec.ofNat 64 k.1, BitVec.ofNat 64 k.2, 0x200, 8, 0, 0, 0, 0] false)) ∧
    (fdOp { storing with words := localCopy } = 4 ∧ ¬Claims.goesOut (opDev (op7 localCopy false)) { storing with words := localCopy } ∧
      (opDev (op7 localCopy false)).seq.regions = [] ∧ (opDev (op7 localCopy false)).mem.settled = true ∧
      writeStatus (opDev (op7 localCopy false)) 0x100 8 = ST.ok ∧
      ∀ b < 8, writeBarred (opDev (op7 localCopy false)) (0x100 + b) = false) ∧
    (∀ a, poisonAt (opDev (op7 localCopy false)) a = false) ∧
    (∃ o ∈ slotOps (context .live 0 [(6, op7 (localStore 0) false), (7, op7 (localStore 0x10) false)] [] none) 0, o.1 < 7) ∧
    coveredFailure (setQueue 0 ⟨[], [(0, 5, ST.access)], []⟩ (opDev (op7 (localStore 0x10) false))) 7 (op7 (localStore 0x10) false) = some ST.access ∧
    ((op7 (localStore 0) true).begun = true ∧ (∀ p ∈ (op7 (localStore 0) true).pkts, p.st = .acked) ∧
      gDev (fdDst { storing with words := localStore 0 }) = devNo up ∧ fdFlag { storing with words := localStore 0 } = false) ∧
    ((fun (op : FabOp) => op.begun = true ∧ op.fixed = false ∧ op.pkts = [pkt2 .acked] ∧ op.status = ST.ok ∧ gDev (fdDst op.desc) ≠ devNo up ∧
        fdDstCntEn op.desc = true ∧ op.counted = false ∧ op.sequenced = false)
      { op7 [0x61 + 2 ^ 24, 2 ^ 50, 7, 0, 0, 0, 0, 0] true with pkts := [pkt2 .acked], sequenced := false }) ∧
    ((opDev (op7 (localStore 0) true)).seq.st ≠ .committing ∧ (opDev (op7 (localStore 0) true)).mem.settled = true) ∧
    (∃ p ∈ [pkt2 .flying], p.st ≠ .acked) :=
  ⟨by decide, by decide, unpoisoned rfl rfl rfl rfl, by decide, by decide, by decide, by decide, by decide, by decide⟩

end Sys2Proof.Tests

namespace Sys2Proof.Tests

/-- Requests and responses between this device, 0, and device 2. -/
def pk (k : PktKind) (dst : Nat) (cnt : Bool) : Packet :=
  { opk := k, retx := false, prio := false, cntEn := cnt, len := 8, entropy := 0, ctx := 0, srcDev := 2, dst, slot := 4, seq := 9, epoch := 0,
    relmark := 9, cnt := 5, code := 0, operand := 0x1234, compare := 0, payload := [], poison := [] }
def rs (st : Status) (busy : Bool) : Resp :=
  { slot := 0, dstDev := 0, hot := false, busy, lost := false, epoch := 0, pbase := nfld (2 ^ 50) 21 8, seq := 0, status := st, mask := 1, data := [], poison := [] }
def target (replay : List ReplayEntry) : Dev := { up with tw := { TwizanState.reset with replay }, tick := 100 }
def seen9 (addr : Nat) : ReplayEntry := ⟨2, 4, 9, nfld addr 48 8, ST.ok, 0, 50⟩

/-- Device 2 as a P1 source whose next packet and held packets are given. -/
def ordered (next : Nat) (h : List (Packet × Nat)) : Dev :=
  setPeerGen 2 1 { up with tw := { TwizanState.reset with p1Next := [(2, next)], p1Held := h }, tick := 100 }

theorem witness_RequestsAtTheTarget :
    (∀ k ∈ [(PktKind.store, reserveEnd - 8, false), (.store, 0, false), (.count, counterBase + 40, true)],
      gDev (pk k.1 k.2.1 k.2.2).dst = devNo (target []) ∧ peerGen (target []) 2 ≠ 1 ∧ (target []).tw.retxUntil = none ∧
      stillStarting (target []) (gLocal (pk k.1 k.2.1 k.2.2).dst) = false) ∧
    (∀ n ∈ [0, 31], Item.req (pk .store 0 false) ∉ (portOf (target []) n).arrived) ∧
    ((target []).seq.regions = [] ∧ writeStatus (target []) (hbmEnd - 8) 8 = ST.ok ∧ (∀ k < 8, writeBarred (target []) (hbmEnd - 8 + k) = false) ∧
      hbmEnd - 8 + 8 ≤ reserveEnd) ∧
    (∀ a, poisonAt (target []) a = false) ∧
    ((∀ e ∈ (target []).tw.replay, e.src ≠ 2) ∧ (target []).tw.replay.length < rd (target []) OD.replayWindowEntries) ∧
    rd { target [] with od := (OD.replayWindowEntries, 0) :: up.od } OD.replayWindowEntries ≤ (target []).tw.replay.length ∧
    ((target []).mem.settled = true ∧ belowMark 9 9 = false ∧ (seen9 (counterBase + 40)).addr = nfld (pk .count (counterBase + 40) true).dst 48 8) ∧
    (gDev (pk .store (2 ^ 49) false).dst ≠ devNo up) ∧
    (∀ h ∈ [(pk .store 0 false, 0)], h.1.srcDev = 2 → 60 ≤ h.2 + 60) ∧ 0 + 60 < 61 ∧
    (let d := { target [] with tw := { TwizanState.reset with retxUntil := some 101 } }
     d.tick < 101 ∧ d.tw.retxUntil = some 101 ∧ ({ pk .store 0 false with retx := true } : Packet).opk ≠ .atomic ∧ peerGen d 2 ≠ 1) ∧
    (peerGen (ordered 5 []) 2 = 1 ∧ (∀ n ∈ [5, 2 ^ 32 - 1], 0 < (9 + 2 ^ 32 - mget 0 (ordered n []).tw.p1Next 2) % 2 ^ 32 ∧
        (9 + 2 ^ 32 - mget 0 (ordered n []).tw.p1Next 2) % 2 ^ 32 < 2 ^ 31) ∧
      (pk .store 0 false).seq = mget 0 (ordered 9 []).tw.p1Next 2 ∧ (ordered 9 []).tw.p1Held = []) ∧
    ((pk .store 0 false).opk = .store ∧ (pk .store 0 false).cntEn = false ∧ (pk .store 0 false).retx = false ∧ 0 < (pk .store 0 false).len ∧
      (ordered 9 []).seq.regions = [] ∧ (ordered 9 []).mem.settled = true ∧ writeStatus (ordered 9 []) 0 8 = ST.ok ∧
      stillStarting (ordered 9 []) 0 = false ∧ ∀ k < 8, writeBarred (ordered 9 []) k = false) ∧
    ((ordered 9 [(pk .store 0 false, 39)]).tw.p1Held = [(pk .store 0 false, 39)] ∧ 39 + 60 < (ordered 9 [(pk .store 0 false, 39)]).tick) :=
  ⟨by decide, by decide, by decide, unpoisoned rfl rfl rfl rfl, by decide, by decide, by decide, by decide, by decide, by decide, by decide, by decide, by decide, by decide⟩

/-- Operation 7 with one packet to device 2. -/
def flying (p : PktRec) (seqd : Bool) (tick : Nat) : Dev :=
  linked { context .live 0 [(7, { op7 storing.words true with pkts := [p], sequenced := seqd })] [] none with tick }

def op7p (p : PktRec) : FabOp := { op7 storing.words true with pkts := [p] }
def pktHere : PktRec := { pkt2 .waiting with dst := 0x100 }
def here : Dev := opDev { op7 (localStore 0) true with pkts := [pktHere] }
def waitingAt (vc : Nat) (i : Item) : Dev :=
  let d := flying (pkt2 .flying) false 100
  { d with ports := [(0, if vc = 0 then { Port.new with vc0 := [⟨i, 39⟩] } else { Port.new with vc1 := [⟨i, 39⟩] })] }
def ended7 : Ended := ⟨7, 0, 0, 0, 0, [(0, 2 ^ 50, 1)], 1⟩

theorem witness_PacketsAtTheSource :
    (findOp (flying (pkt2 .waiting) true 1) 7 = some (op7p (pkt2 .waiting)) ∧
      maySend (flying (pkt2 .waiting) true 1) 7 (op7p (pkt2 .waiting)) (pkt2 .waiting) = true ∧
      gDev (pkt2 .waiting).dst ≠ devNo (flying (pkt2 .waiting) true 1) ∧ (pkt2 .waiting).resent = false ∧ (pkt2 .waiting).kind = .store ∧
      choosePort (flying (pkt2 .waiting) true 1) 0 2 0 0 = some 0) ∧
    (let p := { pkt2 .waiting with resent := true }
     maySend (flying p true 5000) 7 (op7p p) p = true ∧ (op7p p).sequenced = true ∧ mayResend (flying p true 5000) p = false ∧
       mayResend (flying p true 10) p = true) ∧
    ((pkt2 .waiting).st = .waiting ∧ creditOf creditless 2 ≤ outstandingTo creditless 2) ∧
    (here.tw.ops = [(7, { op7 (localStore 0) true with pkts := [pktHere] })] ∧
      maySend here 7 { op7 (localStore 0) true with pkts := [pktHere] } pktHere = true ∧ gDev pktHere.dst = devNo here ∧ pktHere.kind = .store ∧
      fdDstCntEn { storing with words := localStore 0 } = false ∧ here.tw.retxUntil = none ∧ stillStarting here 0x100 = false ∧
      here.seq.regions = [] ∧ here.mem.settled = true ∧ writeStatus here 0x100 8 = ST.ok ∧ ∀ k < 8, writeBarred here (0x100 + k) = false) ∧
    (∀ a, poisonAt here a = false) ∧
    ((pkt2 .waiting).st ≠ .flying ∧ 999 < 0 + rd up OD.txTimeout ∧ 0 + rd up OD.txTimeout ≤ 1000 ∧
      (flying (pkt2 .waiting) true 10).tw.tags = []) ∧
    (mayResend (flying (pkt2 .waiting) true 10) { pkt2 .waiting with busyAt := some 0 } = true ∧ 0 + 10 ≤ 10 ∧ 9 < 0 + 10 ∧
      mayResend (flying (pkt2 .waiting) true 5000) { pkt2 .waiting with busyAt := some 0 } = false) ∧
    ((flying (pkt2 .flying) false 1).tw.ops.map (fun o => (o.1, o.2.pkts, o.2.sequenced, o.2.fixed)) = [(7, [pkt2 .flying], false, false)] ∧
      (pkt2 .flying).busyAt = none ∧ peerGen (flying (pkt2 .flying) true 1) 2 ≠ 1 ∧ (pkt2 .flying).spent < rd up OD.retryLimit ∧
      (∀ n ∈ [0, 31], Item.resp (rs ST.ok false) ∉ (portOf (flying (pkt2 .flying) false 1) n).arrived)) ∧
    (∀ r ∈ [(0, false), (3, false), (7, true)], (rs (BitVec.ofNat 16 r.1) r.2).dstDev = devNo up ∧
      (rs (BitVec.ofNat 16 r.1) r.2).slot = (op7 storing.words true).slot ∧ (rs (BitVec.ofNat 16 r.1) r.2).seq = (op7 storing.words true).seq ∧
      (rs (BitVec.ofNat 16 r.1) r.2).epoch = (op7 storing.words true).epoch) ∧
    (let q := { pk .store (2 ^ 50) false with slot := 0, seq := 0 }
     (portOf (waitingAt 0 (.req q)) 0).vc0 = [⟨.req q, 39⟩] ∧ 39 + 60 < (waitingAt 0 (.req q)).tick ∧
       (q.slot, q.seq, q.epoch, q.dst) = (0, 0, 0, (pkt2 .flying).dst) ∧ (pkt2 .flying).port = 0 ∧
       (waitingAt 0 (.req q)).tw.ops.map (fun o => (o.2.pkts, o.2.sequenced)) = [([pkt2 .flying], false)]) ∧
    ((portOf (waitingAt 1 (.resp (rs ST.ok false))) 0).vc1 = [⟨.resp (rs ST.ok false), 39⟩] ∧ ¬(100 ≤ 39 + 60)) ∧
    (let d := { up with tw := { TwizanState.reset with tags := [ended7], ctxs := [(0, { ctx0 with epoch := 1 })] } }
     d.tw.ops = [] ∧ d.tw.tags = [ended7] ∧ (ended7.slot, ended7.seq, ended7.epoch) = ((rs ST.ok false).slot, (rs ST.ok false).seq, (rs ST.ok false).epoch) ∧
       ended7.flying = [(0, 2 ^ 50, 1)] ∧ (rs ST.ok false).pbase = nfld (2 ^ 50) 21 8 ∧ (rs ST.ok false).mask.testBit 0 = true ∧
       (ctxOf d 0).epoch ≠ ended7.epoch) :=
  ⟨by decide, by decide, by decide, by decide, unpoisoned rfl rfl rfl rfl, by decide, by decide, by decide, by decide, by decide, by decide, by decide⟩

theorem witness_CodingReadsBack :
    (∀ q ∈ [pk .store (2 ^ 64 - 1) true], q.len < 2 ^ 9 ∧ q.entropy < 2 ^ 16 ∧ q.ctx < 2 ^ 6 ∧ q.srcDev < 2 ^ 15 ∧ q.dst < 2 ^ 64 ∧ q.slot < 2 ^ 14 ∧
      q.seq < 2 ^ 32 ∧ q.epoch < 2 ^ 16 ∧ q.relmark < 2 ^ 32 ∧ q.cnt < 2 ^ 16 ∧ q.code < 2 ^ 8 ∧ q.poison = []) ∧
    (∀ r ∈ [rs ST.fenced true], r.slot < 2 ^ 14 ∧ r.dstDev < 2 ^ 15 ∧ r.epoch < 2 ^ 16 ∧ r.pbase < 2 ^ 14 ∧ r.seq < 2 ^ 32 ∧ r.mask < 2 ^ 32 ∧ r.poison = []) ∧
    (List.replicate 514 0x3FF).length = 514 ∧
    (let w := List.replicate 543 0 ++ [1]
     w.length = 544 ∧ (Fec.decodeWord w).map Prod.snd = some [543]) ∧
    ((0 < 2 ^ 340 ∧ 349 < 350) ∧ (4 ^ 8 - 1 < 4 ^ 8 ∧ 3 < 4)) ∧
    (let d := linked up
     portUp d 0 = true ∧ (portOf d 0).txScr < 2 ^ 58 ∧ (∀ k ∈ (portOf d 0).resend, k.body.length ≤ 1277) ∧
       (∀ i < 4, laneNow d 0 (portOf d 0) (portOf d 0).txPairs i < 5 ∧
         laneFailed d 0 (laneNow d 0 (portOf d 0) (portOf d 0).txPairs i) = false ∧
         ∀ j < 4, laneNow d 0 (portOf d 0) (portOf d 0).txPairs i = laneNow d 0 (portOf d 0) (portOf d 0).txPairs j → i = j) ∧
       (∀ k < 5, (portOf d 0).rxLast.getD k 0 = (portOf d 0).txLast.getD k 0 ∧ (portOf d 0).txLast.getD k 0 < 4) ∧
       (portOf d 0).rxPairs = (portOf d 0).txPairs ∧ (portOf d 0).rxScr = (portOf d 0).txScr) :=
  ⟨by decide, by decide, List.length_replicate .., by decide +kernel, ⟨⟨Nat.two_pow_pos 340, by decide⟩, by decide⟩, by decide⟩

end Sys2Proof.Tests

namespace Sys2Proof.Tests

/-- A port that is up, with a flit kept since tick 0. -/
def kept5 : KeptFlit := { seq := 5, body := [1], sentAt := 0, items := [] }
def portDev (x : Port) (tick : Nat) : Dev := { linked { threads [] with ports := [(0, x)] } with tick }
def flit (kind seq ack : Nat) : Bytes := leBytes 8 (sealFlit (flitHead kind seq ack 1 3) (fillBody [])).toNat ++ fillBody []

theorem flit_reads (kind seq ack : Nat) : flitGood (flit kind seq ack) = true ∧ ∀ hi lo, 16 ≤ lo →
    nfld (leNat ((flit kind seq ack).take 8)) hi lo = nfld (flitHead kind seq ack 1 3) hi lo :=
  have h : flitHead kind seq ack 1 3 + 2 ^ 16 ≤ 2 ^ 64 ∧ flitHead kind seq ack 1 3 % 2 ^ 16 = 0 := by unfold flitHead; omega
  ⟨flitGood_sealFlit h.1 h.2 (by rw [fillBody, List.length_append, List.length_replicate]; rfl), fun _ _ hl => nfld_sealFlit h.1 h.2 hl⟩

theorem witness_FlitsAndReplay :
    (portUp up 0 = false ∧ portUp (portDev Port.new 0) 0 = true ∧ (portOf (portDev Port.new 0) 0).outage = none) ∧
    (∀ t ∈ [3, 4], portOf (portDev { Port.new with kept := [kept5] } t) 0 = { Port.new with kept := [kept5] }) ∧ [kept5] ≠ [] ∧
    (∀ k ∈ [(0, 0, 5), (0, 1, 5), (0, 4095, 4), (1, 0, 5)], flitGood (flit k.1 k.2.1 k.2.2) = true ∧
      nfld (leNat ((flit k.1 k.2.1 k.2.2).take 8)) 63 62 = k.1 ∧ nfld (leNat ((flit k.1 k.2.1 k.2.2).take 8)) 61 50 = k.2.1 ∧
      nfld (leNat ((flit k.1 k.2.1 k.2.2).take 8)) 49 38 = k.2.2) ∧
    (flitGood [] = false) ∧
    (0 < (1 + 4096 - Port.new.rxNext) % 4096 ∧ (1 + 4096 - Port.new.rxNext) % 4096 < 2048 ∧ 2048 ≤ (4095 + 4096 - Port.new.rxNext) % 4096) ∧
    (kept5.seq < 4096 ∧ kept5.body.length ≤ 1277) ∧ (Port.new.kept.length < 512 ∧ Port.new.txSeq < 4096 ∧ 1 ≤ Port.new.credit0) ∧
    (let x := { Port.new with vc1 := [⟨.resp (rs ST.ok false), 0⟩], credit0 := 0, credit1 := 4096 }
     creditsFor (itemBytes (.resp (rs ST.ok false))).length ≤ x.credit1 ∧ x.credit0 < creditsFor (itemBytes (.req (pk .store (2 ^ 50) false))).length) ∧
    0 < creditsFor (itemBytes (.req (pk .store (2 ^ 50) false))).length :=
  have h : ∀ k ∈ [(0, 0, 5), (0, 1, 5), (0, 4095, 4), (1, 0, 5)], nfld (flitHead k.1 k.2.1 k.2.2 1 3) 63 62 = k.1 ∧
      nfld (flitHead k.1 k.2.1 k.2.2 1 3) 61 50 = k.2.1 ∧ nfld (flitHead k.1 k.2.1 k.2.2 1 3) 49 38 = k.2.2 := by decide
  ⟨by decide, by decide, by decide, fun k hk => ⟨(flit_reads _ _ _).1, ((flit_reads _ _ _).2 _ _ (by decide)).trans (h k hk).1,
      ((flit_reads _ _ _).2 _ _ (by decide)).trans (h k hk).2.1, ((flit_reads _ _ _).2 _ _ (by decide)).trans (h k hk).2.2⟩,
    by decide +kernel, by decide, by decide, by decide, by decide +kernel, by decide +kernel⟩

theorem leBytes_low (m n v : Nat) (h : v < 256 ^ m) : leBytes (m + n) v = leBytes m v ++ List.replicate n 0 := by
  induction m generalizing v with
  | zero =>
    obtain rfl : v = 0 := by simpa using h
    induction n with
    | zero => rfl
    | succ n ih => simpa [leBytes, List.replicate_succ] using ih
  | succ m ih =>
    rw [show m + 1 + n = (m + n) + 1 by omega]
    simp only [leBytes, List.cons_append]
    rw [ih (v / 256) (by rw [pow_succ] at h; omega)]

theorem crc16_zeros (bs : Bytes) (n : Nat) (h : crc16 bs = 0) : crc16 (bs ++ List.replicate n 0) = 0 := by
  unfold crc16 at *
  rw [List.foldl_append, h]
  induction n with
  | zero => rfl
  | succ n ih => exact ih

/-- A port whose next pair is on lanes that carry zeros: scrambled, they are the DATA flit of SEQ 0 with an empty body, with a CRC
that is right, or that is wrong by one. -/
def zeroFlit (next : Nat) : Port := { Port.new with rxScr := 0x14076ec0edd, rxNext := next }
def badFlit : Port := { Port.new with rxScr := 0x14076ec0edc }
theorem flit_from (x : Port) (h : Nat) (hx : Fec.descramble x.rxScr 0 Fec.messageBits = h) (hh : h < 256 ^ 8) :
    flitOf x 0 = leBytes 8 h ++ List.replicate bodySize 0 := by
  unfold flitOf
  rw [hx]
  exact leBytes_low 8 bodySize h hh
theorem flitGood_zeros (h : Nat) (hl : leNat (leBytes 8 h) = h) (c : crc16 (leBytes 8 (h / 2 ^ 16 * 2 ^ 16)) = 0) :
    flitGood (leBytes 8 h ++ List.replicate bodySize 0) = (h % 2 ^ 16 == 0) := by
  have c := crc16_zeros _ bodySize c
  unfold flitGood
  rw [List.take_left' (leBytes_length _ _), List.drop_left' (leBytes_length _ _), List.length_append, List.length_replicate, leBytes_length]
  simp only [hl, c, beq_self_eq_true, Bool.true_and]
theorem zeroFlit_reads (next : Nat) : flitOf (zeroFlit next) 0 = leBytes 8 0x14076c40000 ++ List.replicate bodySize 0 :=
  flit_from _ _ (show Fec.descramble 0x14076ec0edd 0 Fec.messageBits = 0x14076c40000 by decide +kernel) (by decide)

/-- Pairs heard, whose codewords decode: to a flit with a good CRC, and to one with a bad one. -/
theorem witness_FlitsReceived :
    (∀ n ∈ [0, 1, 4095], Fec.decodePair (heardBits (portDev (zeroFlit n) 0) 0 [some 0, some 0, some 0, some 0, none]) = some (0, [0, 0, 0, 0]) ∧
      (portOf (portDev (zeroFlit n) 0) 0).outage = none) ∧
    Fec.decodePair (heardBits (portDev badFlit 0) 0 [some 0, some 0, some 0, some 0, none]) = some (0, [0, 0, 0, 0]) ∧
    (∀ n, flitGood (flitOf (zeroFlit n) 0) = true) ∧ flitGood (flitOf badFlit 0) = false ∧
    (∀ n, nfld (leNat ((flitOf (zeroFlit n) 0).take 8)) 63 62 = 0 ∧ nfld (leNat ((flitOf (zeroFlit n) 0).take 8)) 61 50 = 0 ∧
      nfld (leNat ((flitOf (zeroFlit n) 0).take 8)) 49 38 = 5) ∧
    (∀ n, (flitOf (zeroFlit n) 0).drop 8 = List.replicate bodySize 0) ∧
    Port.new.moving = none ∧ (portOf (portDev { Port.new with outage := some 0 } 0) 0).outage = some 0 := by
  refine ⟨by decide +kernel, by decide +kernel, fun n => ?_, ?_, fun n => ?_, fun n => ?_, by decide, by decide⟩
  · rw [zeroFlit_reads, flitGood_zeros _ (by decide) (by decide +kernel)]
    decide
  · rw [flit_from badFlit 0x14076c40001 (by decide +kernel) (by decide), flitGood_zeros _ (by decide) (by decide +kernel)]
    decide
  · rw [zeroFlit_reads, List.take_left' (leBytes_length _ _)]
    decide
  · rw [zeroFlit_reads, List.drop_left' (leBytes_length _ _)]

/-- A port in a state, its lane map, and what engine 0 has of light. -/
def lanes (portState laneMap : Nat) (x : Port) (tick : Nat) : Dev :=
  { portDev x tick with od := (OD.portState, portState) :: (OD.laneMap, laneMap) :: (OD.portEnable, 1) :: (portDev x tick).od }
def map0 : Nat := 0 + 1 * 8 + 2 * 64 + 3 * 512
def p3up : Nat := 2 + 3 * 2 ^ 5 + 2 * 2 ^ 16

def peer3 : Peer :=
  { gen := 3, dev := 2, port := 0, isSwitch := false, rate := 3, spare := true, inner := true, precode := true, lanesBad := 0, ber := 0,
    window := 64, nonce := [], publicKey := [], credential := [], signature := [] }

theorem witness_PortsLanesAndTraining :
    (let d := lanes p3up map0 { Port.new with kept := [kept5] } 0
     portUp d 0 = true ∧ 0 < kept5.sentAt + rd d OD.replayBudget ∧ kept5.sentAt + rd d OD.replayBudget ≤ 200000 ∧ spareFree d 0 = true ∧
       (portOf d 0).outage = none ∧ laneFailed d 0 0 = false ∧ laneFailed d 0 4 = false ∧ logicalOf d 0 3 = some 3 ∧ logicalOf d 0 4 = none) ∧
    (let d := lanes p3up (4 + map0) Port.new 0
     portUp d 0 = true ∧ spareFree d 0 = false ∧ logicalOf d 0 4 = some 0 ∧ laneFailed d 0 4 = false) ∧
    (ratOf 0x3F800000 = some 1 ∧ ratBits (rd up OD.laneDegradeRatio) < 1 ∧ ratOf 0 = some 0 ∧ 0 ≤ ratBits (rd up OD.laneDegradeRatio)) ∧
    (let d := lanes p3up map0 { Port.new with outage := some 5 } 10
     (portOf d 0).outage = some 5 ∧ 10 < 5 + rd d OD.outageHold ∧ 5 + rd d OD.outageHold ≤ 1000000) ∧
    (let d := lanes 1 map0 Port.new 0
     portUp d 0 = false ∧ (portOf d 0).retryAt = none ∧ readyState d (fabricPortFn 0) ≠ RS.failed ∧ (rd d OD.portEnable).testBit 0 = true ∧
       works d (linkDieFn 0) = true ∧ works d (engineFn 0) = true ∧ works d OD.readySecurity = true ∧ readyState d (engineFn 0) ≠ RS.degraded ∧
       rd { d with od := (OD.legacyPeerPolicy, 0) :: d.od } OD.legacyPeerPolicy ≠ 1) ∧
    (let d := lanes 1 map0 { Port.new with retryAt := some 0 } 0
     (portOf d 0).retryAt = some 0 ∧ 999999 < 0 + 1000000) ∧
    (rd { up with od := (OD.portEnable, 2) :: up.od } OD.portEnable).testBit 0 = false ∧
    (pairReached Port.new.txPairs (0 % 2 ^ 16) = true ∧ pairReached Port.new.rxPairs (0 % 2 ^ 16) = true ∧
      pairReached Port.new.txPairs (64 % 2 ^ 16) = false ∧
      (let x := { Port.new with moving := some (2, 1), rxPairs := 1 }
       x.moving = some (2, 1) ∧ pairReached ((x.txPairs + 1) % 2 ^ 16) 1 = true ∧ pairReached x.rxPairs 1 = true)) ∧
    (∀ errs ∈ [0, 100], (let d := lanes p3up map0 { Port.new with windowPairs := 1, laneErrs := [(2, errs)] } 1000
     (portOf d 0).moving = none ∧ (portOf d 0).windowAt + 1000 ≤ d.tick ∧ 0 < (portOf d 0).windowPairs ∧
       (ratBits (rd d OD.laneDegradeRatio) * ((portOf d 0).windowPairs * 2720 : Nat) < (mget 0 (portOf d 0).laneErrs 2 : Nat) ↔ errs = 100))) ∧
    (∀ b ∈ [0, 3], (let y := { peer3 with lanesBad := b }
     y.gen = 3 ∧ y.spare = true ∧ y.isSwitch = false ∧ y.dev < 2 ^ 15 ∧
       (((List.range 5).filter (fun k => !y.lanesBad.testBit k)).length < 4 ↔ b = 3))) ∧
    (peerAuthentic (lanes 1 map0 Port.new 0) peer3 [] = false ∧ { peer3 with gen := 2 }.gen ≠ 3) ∧
    (∀ e < 8, rd up (OD.laserActive + e) < 2) ∧
    (rd up OD.laserActive < 2 ∧ ratOf (BitVec.ofNat 32 (rd { up with od := (OD.laserInputPower, 0x41A00000) :: up.od } OD.laserInputPower)) = some 20 ∧
      ratBits (rd up OD.laserLowThreshold) ≤ 20) :=
  ⟨by decide, by decide, by decide, by decide, by decide, by decide, by decide, by decide, by decide +kernel, by decide, by decide, by decide, by decide⟩

end Sys2Proof.Tests

namespace Sys2Proof.Tests

/-- A host at edge 0 whose context 0 has pages of device 2. -/
def hostDev (st : CtxSt) (ops : Map FabOp) : Dev :=
  let d := context st 0 ops [] none
  { d with mem := { d.mem with roles := [1, 0] }, odBytes := (OD.hostGroupTable, [2, 0, 0xFF, 0xFF]) :: d.odBytes }
def hostGet (after : List Nat) (fixed : Bool) : FabOp := { storeOp with use_ := .hostRead 0, fixed, after }

theorem witness_HostAccesses :
    (hostLinked up 0 = false ∧ hostLinked (hostDev .live []) 0 = true ∧ edgeRoleOf (hostDev .live []) 0 = 1 ∧ edgeRoleOf up 0 ≠ 1) ∧
    ((0xFFFFFF < 0x1000000 ∧ 0x2800000 ≤ 0x2FFFFFF) ∧ (0x40 ≤ 0x7FF8 ∧ 0x7FF8 + 8 ≤ 0x8000)) ∧
    (let d := hostDev .live []
     d.tw.ops = [] ∧ d.tw.hot = [] ∧ outstandingTo d (devNo d) < creditOf d (devNo d) ∧ stillStarting d (counterBase + 8 * 65535) = false ∧
       d.tw.retxUntil = none ∧ d.tw.fttPending = none) ∧
    (hostMember (hostDev .live []) 1 = 0xFFFF ∧ hostMember (hostDev .live []) 0 = 2 ∧
      mget false (hostDev .live []).pow.d3hot 0 = false ∧ mget false { PowerState.reset with d3hot := [(0, true)] }.d3hot 0 = true ∧
      (mapped 0x100 8 = true ∧ mapped (2 ^ 48) 8 = false ∧ inControl 0x100 = false ∧ inControl counterBase = true ∧ 0x100 % 256 + 8 ≤ 256 ∧
        ¬(3 ∈ [1, 2, 4, 8] ∧ 0x100 % 3 = 0)) ∧
      (ctxOf (hostDev .quiet []) (rd up OD.hostContext)).st ≠ .live ∧ (ctxOf (hostDev .live []) (rd up OD.hostContext)).st = .live) ∧
    ((fttLookup (hostDev .live []).tw.ftt0 0 (gAddr 2 0x100)).map (fun x => (x.rd, x.wr,
      peerGen (hostDev .live []) (gDev (x.tgt * 65536 + gAddr 2 0x100 % 2 ^ pageBits x.size)))) = some (true, true, 3)) ∧
    (decided (hostGet [] true) = true ∧ (∀ i ∈ (hostGet [] true).after, findOp (hostDev .live [(7, hostGet [] true)]) i = none) ∧
      decided (hostGet [] false) = false ∧
      (findOp (hostDev .live [(6, hostGet [] false), (7, hostGet [6] true)]) 6).isSome = true) ∧
    ((1 ≤ 6 ∧ 16 ∈ [4, 8, 16] ∧ ¬(1 ≤ 7 ∧ 7 ≤ 6)) ∧ works (hostDev .live []) (linkDieFn 0) = true ∧ mget false up.pow.perst 0 = false ∧
      mget false { PowerState.reset with perst := [(0, true)] }.perst 0 = true) :=
  ⟨by decide, by decide, by decide, by decide, by decide, by decide, by decide⟩

/-- A RUN of a kind on FP32 or in native values, in a group of n members of which this device is rank 0; its queue has no place free. -/
def runDesc (kind n : Nat) : FabDesc :=
  { words := [3 + 0x100000, 0, 0x1000, BitVec.ofNat 64 n, 0, 0, 0, 0], ctx := 0, origin := .doorbell,
    record := [BitVec.ofNat 64 (kind + 16), 0x8000, 0x10000, 0x6000, 0, 0, 100] ++ List.replicate 9 0, step := 5, mb := 0 }
def tree0 : TreeRun := TreeRun.start
def runOp (kind n : Nat) (begun : Bool) : FabOp := { queueOp (runDesc kind n) [] with begun }
def collective (kind wire members : Nat) (x : TreeRun) (counters : Map Nat) (tick : Nat) : Dev :=
  { threads [] with
    tick,
    od := (OD.outstandingPerQueue, 1) :: up.od,
    seq := { StepState.reset with groups := [(0, ⟨.admitted, wire, 0, (List.range members).map (fun i => ⟨i, 3⟩), 0⟩)] },
    tw := { TwizanState.reset with ctxs := [(0, ctx0)], ops := [(7, runOp kind 16 true)], counters },
    runs := [(7, { first := 0, count := 16, agreed := 0, accOnly := false, trees := [x], seen := 0, wrote := 0, backlog := [] })] }
def runOf7 (d : Dev) (f : Running → Bool) : Bool :=
  match running d 7 with
  | some c => decide (rd d OD.outstandingPerQueue ≤ (slotOps d c.op.slot).length) && f c
  | none => false

/-- The same RUN, in a group of one of two steps' accumulation, and its record. -/
def accDesc : FabDesc := { runDesc 1 16 with record := [0x311, 0x8000, 0x10000, 0x6000, 0, 0, 100] ++ List.replicate 9 0 }
def accDev : Dev := collective 1 2 1 tree0 [] 0

theorem witness_AntlerBegins :
    (∀ k ∈ [1, 4, 5], (runOp k 16 false).fixed = false ∧ isRun (runOp k 16 false).desc = true ∧ arKind (runDesc k 16).record = k ∧
      fdLen (runDesc k 16) ≠ 0) ∧
    ((mfind accDev.seq.groups (arGroup (runDesc 1 16).record)).isSome = true ∧ (mfind accDev.runs 7).isSome = true ∧
      fdLen (runDesc 1 0) = 0 ∧ 5 % arN (runDesc 1 16).record = arPhase (runDesc 1 16).record) ∧
    (accDesc.step % arN accDesc.record ≠ arPhase accDesc.record ∧ arKind accDesc.record = 1 ∧ accDev.seq.regions = [] ∧
      accDev.mem.settled = true ∧ spaceStatus accDev (gLocal (fdSrc accDesc)) 16 = ST.ok ∧ spaceStatus accDev (arLacc accDesc.record) 16 = ST.ok ∧
      writeStatus accDev (arLacc accDesc.record) 16 = ST.ok ∧ (∀ b < 16, writeBarred accDev (arLacc accDesc.record + b) = false)) ∧
    (posOf (runDesc 4 16).record 1 0 0 = 0 ∧ posOf (runDesc 4 16).record 3 0 2 ≠ 0 ∧
      writeStatus accDev (arOut (runDesc 4 16).record) 16 = ST.ok) ∧
    (accDev.runs.map (fun r => (r.1, r.2.first, r.2.count)) = [(7, 0, 16)] ∧ 0 ≤ (pk .count (counterBase + 40) true).cnt ∧
      (pk .count (counterBase + 40) true).cnt < 0 + 16 ∧ accDev.tw.replay = [] ∧ 0 < rd accDev OD.replayWindowEntries) :=
  ⟨by decide, by decide, by decide, by decide, by decide⟩

/-- What the steps read and write can be read and written; a member below the root; a RUN ready for its repair pass; an end. -/
theorem witness_AntlerSteps :
    (runOf7 accDev (fun c => [c.slotL 0 0, c.slotR 0 0, c.slotU 0 0, arOut c.rec_, gLocal (fdSrc c.op.desc)].all (fun a =>
      decide (spaceStatus accDev a 16 = ST.ok ∧ writeStatus accDev a 16 = ST.ok)) &&
      decide (rankAt c.rec_ c.n 0 (parentOf (c.pos 0)) < c.grp.members.length)) = true) ∧
    (let c := collective 1 2 3 tree0 [] 0
     runOf7 c (fun c => decide (rankAt c.rec_ c.n 0 (parentOf 1) < c.grp.members.length) &&
       (c.grp.members[rankAt c.rec_ c.n 0 (parentOf 1)]?).all (fun m => m.gen != 1)) = true) ∧
    (∀ k ∈ [4, 5], runOf7 (collective k 2 1 tree0 [] 0) (fun c => arKind c.rec_ == k && decide ((c.tree 0).down < arChunks c.rec_) &&
      decide ((c.tree 0).down < c.n) && c.pos 0 == 0) = true) ∧
    (∀ n ∈ [0, 1], runOf7 (collective 1 0 1 { tree0 with up := 1, down := n, list := some [0] } [] 0) (fun c => c.n == 1 && c.pos 0 == 0 &&
      decide (arChunks c.rec_ ≤ (c.tree 0).down) == (n == 1)) = true) ∧
    (accDev.seq.st ≠ .committing ∧ accDev.mem.settled = true ∧ (∀ b < 16, writeBarred accDev (0x8000 + b) = false)) ∧
    (∀ a, poisonAt accDev a = false) :=
  ⟨by decide, by decide, by decide, by decide, by decide, unpoisoned rfl rfl rfl rfl⟩

theorem witness_AntlerOperations :
    (∀ n ∈ [0, 16], isRun (runOp 1 n false).desc = true ∧ (runOp 1 n false).begun = false ∧ (runOp 1 n false).use_ = .queue ∧
      (runOp 1 n false).fixed = false ∧ fdLen (runDesc 1 n) = n ∧
      (mfind (collective 1 2 1 tree0 [] 0).seq.groups (arGroup (runDesc 1 n).record)).map (fun g => runWire g (runDesc 1 n).record) = some 2) ∧
    (arKind (runDesc 1 16).record = 1 ∧ arSrcBf16 (runDesc 1 16).record = false ∧ fdLen (runDesc 1 16) = 4 * 4 ∧ arN (runDesc 1 16).record = 1 ∧
      spaceStatus (collective 1 2 1 tree0 [] 0) 0x1000 16 = ST.ok) ∧
    (arN [0x0000000000000311, 0] = 4 ∧ 5 % 4 ≠ arPhase [0x0000000000000311, 0]) ∧
    (runOf7 (collective 1 2 3 tree0 [] 0) (fun c => c.wire == 2 && decide (arKind c.rec_ < 4) && decide (0 < arChunks c.rec_) &&
      decide ((c.kids 0).length = 2) && decide (counterAt (collective 1 2 3 tree0 [] 0) (c.dataCnt 0 0) < 2)) = true) ∧
    (runOf7 (collective 1 2 1 tree0 [] 0) (fun c => c.wire == 2 && c.pos 0 == 0 && decide ((c.kids 0).length ≤ counterAt (collective 1 2 1 tree0 [] 0) (c.dataCnt 0 0)) &&
      decide (spaceStatus (collective 1 2 1 tree0 [] 0) (c.slotL 0 0) 16 = ST.ok) && decide (writeStatus (collective 1 2 1 tree0 [] 0) (c.slotU 0 0) 16 = ST.ok)) = true) ∧
    (runOf7 (collective 1 2 1 { tree0 with up := 1 } [] 0) (fun c => decide ((c.tree 0).down < (c.tree 0).up) && c.pos 0 == 0 &&
      !arOutBf16 c.rec_ && decide (writeStatus (collective 1 2 1 tree0 [] 0) (arOut c.rec_) 16 = ST.ok)) = true) ∧
    (runOf7 (collective 5 0 2 tree0 [] 0) (fun c => arKind c.rec_ == 5 && decide ((c.tree 0).down < c.n)) = true) ∧
    (∀ a, poisonAt (collective 1 2 1 tree0 [] 0) a = false) ∧
    (runOf7 (collective 1 0 1 { tree0 with up := 1 } [] 0) (fun c => c.wire == 0 && c.pos 0 == 0 && decide (arChunks c.rec_ ≤ (c.tree 0).up) &&
      (c.tree 0).list.isNone && (c.tree 0).marked == [] && (c.tree 0).total.isNone && (c.tree 0).passes == 0) = true) ∧
    (runOf7 (collective 1 0 1 { tree0 with up := 1, marked := [0] } [] 0) (fun c => (c.tree 0).marked != [] && decide ((c.tree 0).marked.length ≤ 4096)) = true) ∧
    (runOf7 (collective 1 0 1 { tree0 with up := 1, list := some [0], total := some 1 } [] 0) (fun c => (c.tree 0).list == some [0] && !(c.tree 0).upDone &&
      c.n == 1 && c.pos 0 == 0 && !arOutBf16 c.rec_ && decide ((c.tree 0).taken ≤ counterAt (collective 1 0 1 tree0 [] 0) (c.markCnt 0))) = true) ∧
    (runOf7 (collective 1 2 1 { tree0 with up := 1, down := 1 } [] 0) (fun c => runDone (collective 1 2 1 { tree0 with up := 1, down := 1 } [] 0) 7 c &&
      c.op.begun && decide (c.op.status = ST.ok) && gDev (fdDst c.op.desc) == devNo up && !fdDstCntEn c.op.desc && !fdSrcCntEn c.op.desc &&
      !fdFlag c.op.desc && arN c.rec_ == 1) = true) ∧
    (runOf7 (collective 1 2 3 tree0 [] 10000000) (fun c => runWaits (collective 1 2 3 tree0 [] 10000000) 7 c &&
      !runDone (collective 1 2 3 tree0 [] 10000000) 7 c) = true) ∧
    (0 + rd up OD.antlerWaitLimit ≤ 10000000 ∧ 0 < 0 + rd up OD.antlerWaitLimit) :=
  ⟨by decide, by decide, by decide, by decide, by decide, by decide, by decide, unpoisoned rfl rfl rfl rfl, by decide, by decide, by decide,
    by decide, by decide, by decide⟩

end Sys2Proof.Tests

namespace Sys2Proof.Tests

/-! ## Steps and the gate -/

/-- A stage table of one virtual stage and one micro-batch with empty lists. -/
def table1 : List W64 := [1 + 2 ^ 7 + 2 ^ 11, 0, 0, 0x2100, 0x2200, 0x2300, 0, 0, 0x3000, 0, 0, 0, 0, 0, 0, 0]
def alone : Map GroupRec := [(0, ⟨.admitted, 0, 0, [⟨0, 3⟩], 0⟩)]
def stepping (f : StepState → StepState) : Dev :=
  { stored 0x2000 table1 (threads []) with
    seq := f { StepState.reset with header := table1, groups := alone } }
def seqIn (st : SeqSt) : Dev := stepping (fun q => { q with st })

theorem witness_StepCommandsAndOpening :
    (∀ st ∈ [SeqSt.idle, .loaded, .open, .gate, .committing, .halted], takes (seqIn st) s5 OD.stepCommand .rws ∧
      commandPending (seqIn st) OD.stepCommand = false ∧ (seqIn st).seq.st = st) ∧
    (tableRefusal (seqIn .idle) 0x2000 = none ∧ (tableRefusal (seqIn .idle) 0x2040).isSome = true) ∧
    (let d := stepping (fun q => { q with st := .loaded, opening := true })
     works d (serviceFn 0) = true ∧ works d (serviceFn 2) = true ∧ works d (serviceFn 3) = true ∧ (∀ r ∈ d.faults.resets, r.tier < 3) ∧
       d.pow.down = .none ∧ d.seq.opening = true ∧ stPre d.seq.header = 0 ∧ writeStatus d (stInfo d.seq.header) 2112 = ST.ok ∧
       ratBits 0 < Claims.neededCurrent d ∧ Claims.neededCurrent d ≤ ratBits 0x42C80000 ∧ (rdFull d OD.shardCursors).length = 2048) ∧
    works Dev.reset (serviceFn 0) = false ∧ (seqIn .loaded).seq.opening = false :=
  ⟨by decide, by decide, by decide +kernel, by decide, by decide⟩

end Sys2Proof.Tests

namespace Sys2Proof.Tests

/-- An open step whose items are: a LAUNCH done by grid 0, and another item of a kind that waits, with its own address. -/
def item (kind : Nat) (st : ItemSt) (index : Nat) : ItemRun :=
  { owner := .pre, index, kind, after := false, core := 0, queue := 0, addr := 0x4000, value := 0, mb := 0xFFFF, st, grid := none, op := none }
def inStepWith (ws : List W64) (its : Map ItemRun) : Dev :=
  { stored 0x4000 ws (threads []) with
    seq := { StepState.reset with header := table1, groups := alone, st := .open, items := its, nextItem := 9, phase := .pre },
    grids := [(0, { grid0 with item := some 5 })] }

/-- A loaded sequencer with a shadow region, a line of whose committed values lies in its other half. -/
def shadow0 : Shadow := ⟨0x1000, 0x800, 0x10000, 0x20000, false⟩
theorem witness_UnloadOfAShadowRegion :
    (let d := stepping (fun q => { q with st := .loaded, regions := [shadow0], half := [0x41] })
     d.seq.regions = [shadow0] ∧ shadow0.base + shadow0.length ≤ hbmEnd ∧ shadow0.half1 + shadow0.length ≤ hbmEnd ∧
       shadow0.map + shadow0.length / 256 ≤ hbmEnd ∧ d.mem.settled = true ∧ d.mem.poison = [] ∧
       (∀ l ∈ d.seq.half, shadow0.base ≤ 64 * l ∧ 64 * l + 64 ≤ shadow0.base + shadow0.length) ∧ d.seq.half.Nodup ∧ shadow0.base % 64 = 0 ∧
       shadow0.half1 % 64 = 0 ∧ shadow0.map % 64 = 0 ∧ shadow0.length % 2048 = 0 ∧
       overlaps shadow0.base shadow0.length shadow0.half1 shadow0.length = false ∧
       overlaps shadow0.base shadow0.length shadow0.map (shadow0.length / 256) = false ∧ d.seq.st ≠ .halted) := by decide

theorem witness_StepItems :
    (∀ k ∈ [1, 2, 3, 4, 5], mayBegin (inStepWith [] [(4, item k .waiting 1)]) (item k .waiting 1) = true ∧
      mfind (inStepWith [] [(4, item k .waiting 1)]).seq.items 4 = some (item k .waiting 1)) ∧
    (mayBegin (inStepWith [] [(3, item 4 .begun 0), (4, item 1 .waiting 1)]) (item 1 .waiting 1) = false ∧
      ∃ e ∈ (inStepWith [] [(3, item 1 .begun 0), (4, item 1 .waiting 1)]).seq.items, e.2.owner = .pre ∧ e.2.index < 1 ∧ e.2.st ≠ .done) ∧
    (∀ n ∈ [0, 1], (readMem (inStepWith (launchWords n) []) 0x4000 32).1 = ST.ok ∧
      launchStatus (inStepWith (launchWords n) []) (wordsOf 4 (readMem (inStepWith (launchWords n) []) 0x4000 32).2) = ST.ok) ∧
    (launchStatus (inStepWith [] []) (wordsOf 4 (readMem (inStepWith [] []) 0x4000 32).2) ≠ ST.ok) ∧
    (let d := inStepWith storing.words []
     firstBad (useAny d linkDies) (fabAccept d 0x4000 (stCtx d.seq.header) (readFabDesc d 0x4000 0 (.item 4) 0 0)) = ST.ok ∧
       (queueOf d 0).accepted.length < 64) ∧
    (listItems (inStepWith [] []) (lnPrimary (layerAt (inStepWith [] []) 0x4000)) 4097 = some []) ∧
    (∀ p ∈ [0, 1], (fun (d : Dev) => lnPolicy (layerAt d 0x4000) = p ∧ d.seq.st = .open ∧ d.seq.cause < 2 ∧
        mfind d.grids 0 = some { grid0 with item := some 5 }) (inStepWith [BitVec.ofNat 64 p] [])) ∧
    (lnRepeat (layerAt (inStepWith [0, 0, 0x5000] []) 0x4000) ≠ 0 ∧ ({ grid0 with ovf := true } : Grid).ovf = true) ∧
    (let w := wordsAt (inStepWith [1 + 2 ^ 33, 1, 0x5000, 0x5100, 0x5200, 0x5300] []) 0x4000 10
     rd (inStepWith [] []) OD.stepNumber % lrN w = lrPhase w ∧ lrM w = 1 ∧ lrRank w = 1 ∧ lrK w = 2 ∧
       writeStatus (inStepWith [] []) (lrAddr w 5) 4 = ST.ok ∧ spaceStatus (inStepWith [] []) (lrAddr w 4) 8 = ST.ok) ∧
    ((0 : Nat) % lrN [0, 0x2081] ≠ lrPhase [0, 0x2081]) ∧
    (let h := table1
     unitFree h (unitAt h 0) = true ∧ unitCount h = 2 ∧ vsSend (vstageAt (seqIn .open) (unitAt h 0)) (unitAt h 0).bwd = 0) :=
  ⟨by decide, by decide, by decide, by decide, by decide, by decide, by decide, by decide, by decide, by decide, by decide⟩

end Sys2Proof.Tests

namespace Sys2Proof.Tests

/-- A gate group of members with generations, this device at a rank; votes. -/
def gate (f : StepState → StepState) (rank : Nat) (gens : List Nat) : Dev :=
  stepping (fun q => f { q with st := .gate, groups := [(0, ⟨.admitted, 0, rank, (gens.zipIdx).map (fun g => ⟨if g.2 = rank then 0 else g.2 + 1, g.1⟩), 0⟩)] })
def vote (v : Nat) : Vote := ⟨0, 0, v, []⟩
def bare (d : Dev) : Bool :=
  decide (d.seq.layers = [] ∧ d.seq.runs = [] ∧ d.seq.runRanges = [] ∧ stAgree d.seq.header = 0 ∧ rd d OD.checkpointState = 0) &&
    ((gateGroup d).map (fun g => g.members.all (fun m => m.gen == 3))).getD true

theorem witness_CommitGate :
    ((stepping (fun q => { q with st := .open, cause := 2 })).ckpt.copy = none ∧
      (gateTree (stepping (fun q => { q with st := .open }))).map (fun t => (t.kids, t.parent)) = some ([], none) ∧
      heritageRanks (stepping (fun q => { q with st := .open })) = [] ∧ stepQuiet { stepping (fun q => { q with st := .open }) with grids := [] } = true ∧
      stLoss table1 = 0) ∧
    ((gateTree (gate id 1 [3, 3])).map (fun t => (t.kids, t.parent)) = some ([], some (0, 1)) ∧
      (gateTree (gate id 0 [3, 3])).map (fun t => (t.kids, t.parent)) = some ([(1, 2)], none) ∧
      (gateTree (gate id 1 [3, 3, 3, 3])).map (fun t => (t.kids, t.parent)) = some ([(3, 4)], some (0, 1)) ∧
      (gate id 0 [3, 3]).seq.st = .gate ∧ (vote 1).step = rd (gate id 0 [3, 3]) OD.stepNumber ∧ (vote 1).attempt = (gate id 0 [3, 3]).seq.attempt) ∧
    ((gateGroup (gate id 0 [3, 2])).map (fun g => (g.members.map (fun m => m.gen), (treeOf g).pos)) = some ([3, 2], 0) ∧
      (let d := stepping (fun q => { q with header := table1.set 9 0x6000 })
       writeStatus d (stHvote d.seq.header + 8) 8 = ST.ok) ∧
      fld (0 : W64) 51 48 ≤ 1 ∧ fld (0 : W64) 63 60 = 0 ∧ fld (0 : W64) 47 0 = rd up OD.stepNumber ∧ fld (0 : W64) 59 52 = 0) ∧
    (∀ v ∈ [0, 1, 3, 4], (fun (d : Dev) => d.seq.st = .gate ∧ d.seq.verdict = some (vote v) ∧ d.seq.vote = some (vote v) ∧ gridsEnded d = false ∧
      gridsEnded { d with grids := [] } = true ∧ bare d = true ∧ d.seq.skipLayers = []) (gate (fun q => { q with verdict := some (vote v), vote := some (vote v) }) 0 [3])) ∧
    (rd { up with od := [(OD.nanAction, 2)] } OD.nanAction = 2 ∧ rd { up with od := [(OD.nanAction, 0)] } OD.nanAction = 0) ∧
    (0 + 1 ≤ rd up OD.attemptLimit ∧ rd up OD.attemptLimit < rd up OD.attemptLimit + 1) ∧
    (let d := { gate (fun q => { q with vote := some (vote 0) }) 0 [3, 3] with tick := 10 ^ 9 }
     d.seq.vote ≠ none ∧ d.seq.verdict = none ∧ d.seq.votedAt + rd d OD.gateWaitLimit ≤ d.tick ∧ bare d = true ∧
       0 < d.seq.votedAt + rd d OD.gateWaitLimit) :=
  ⟨by decide, by decide, by decide, by decide, by decide, by decide, by decide⟩

/-- A list of members in memory, this device 0 at rank 0. -/
def members (ms : List (Nat × Nat)) : Dev := stored 0x2000 ((List.range ((ms.length + 1) / 2)).map (fun i =>
  BitVec.ofNat 64 ((fun (a b : Nat × Nat) => a.1 + a.2 * 2 ^ 16 + b.1 * 2 ^ 32 + b.2 * 2 ^ 48) (ms.getD (2 * i) (0, 0)) (ms.getD (2 * i + 1) (0, 0))))) up
def groupDev (st : GroupSt) : Dev := { up with seq := { StepState.reset with groups := [(9, ⟨st, 0, 0, [⟨0, 3⟩, ⟨1, 3⟩], 0⟩)] } }

theorem witness_GroupsAndServices :
    (takes up s5 OD.groupCommand .rws ∧ commandPending up OD.groupCommand = false ∧ mfind up.seq.groups 4095 = none) ∧
    ((readMem (members [(0, 3), (1, 2)]) 0x2000 8).1 = ST.ok ∧
      groupList 2 (readMem (members [(0, 3), (1, 2)]) 0x2000 8).2 = some [⟨0, 3⟩, ⟨1, 2⟩] ∧ (⟨0, 3⟩ : Member) = { dev := devNo up, gen := 3 } ∧
      groupList 2 (readMem (members [(0, 3), (0, 3)]) 0x2000 8).2 = some [⟨0, 3⟩, ⟨0, 3⟩]) ∧
    ((readMem up hbmEnd 8).1 = ST.access) ∧
    (∀ st ∈ [GroupSt.admitting, .admitted], (mfind (groupDev st).seq.groups 9).map (fun g => g.st) = some st ∧ groupUsed (groupDev st) 9 = false ∧
      (groupDev st).ckpt.takeover = none ∧ (groupDev st).ckpt.restore = none ∧ takes (groupDev st) s5 OD.groupCommand .rws) ∧
    groupUsed (seqIn .loaded) 0 = true ∧
    (up.seq.services.length = 5 ∧ up.seq.services[4]? = some 3 ∧ works up (sequencerFn 3) = true ∧ engineInReset up 0x8003 = false) ∧
    (let d := { up with od := up.od.filter (fun e => e.1 != sequencerFn 3) }
     works d (sequencerFn 3) = false ∧ works d (sequencerFn 0) = true ∧ d.seq.services[4]? = some 3) ∧
    ({ StepState.reset with services := [0, 1, 2, 2, 0] }.services[4]? = some 0 ∧ 0 ≠ [0, 1, 2, 2, 3].getD 4 9) :=
  ⟨by decide, by decide, by decide, by decide, by decide, by decide, by decide, by decide⟩

end Sys2Proof.Tests

namespace Sys2Proof.Tests

/-! ## Checkpoints -/

/-- A loaded sequencer with a checkpoint service in a state, and objects. -/
def ckptDev (k : CkptState → CkptState) (q : StepState → StepState) (od : Map Nat) (tick : Nat) : Dev :=
  { stored 0x4000 [0x8000 + 3 * 2 ^ 49, 64] (threads []) with
    tick,
    ckpt := k CkptState.reset,
    seq := q { StepState.reset with header := table1, groups := [(0, ⟨.admitted, 0, 0, [⟨0, 3⟩, ⟨1, 3⟩], 0⟩)], st := .loaded },
    od := od ++ up.od }
def entryWords (ws : List W64) : List W64 := ws ++ List.replicate (4 - ws.length) 0
def proposalOf (dev at_ : Nat) : Proposal := ⟨dev, false, at_, 0, 0, true⟩

theorem witness_TandemTableAndPartners :
    (let d := ckptDev id id [] 0
     (readMem d 0x4000 32).1 = ST.ok ∧ wordsOf 4 ((readMem d 0x4000 32).2.drop 0) = entryWords [0x8000 + 3 * 2 ^ 49, 64] ∧
       rangesClash [(0x8000, 64)] = false ∧ granted d (stCtx d.seq.header) (fun r => r.rd) 0x8000 64 = true ∧ 0x8000 + 64 ≤ hbmEnd ∧
       takes d s5 OD.checkpointCommand .rws ∧ commandPending d OD.checkpointCommand = false ∧ d.seq.regions = []) ∧
    (fld (word (entryWords [0x8000 + 3 * 2 ^ 49, 64]) 0) 63 52 = 0 ∧ fld (word (entryWords [0x8000 + 3 * 2 ^ 49, 64]) 0) 50 49 = 3 ∧
      fld (word (entryWords [0x8020, 64]) 0) 48 0 % 64 ≠ 0 ∧ fld (word (entryWords [0x8000]) 1) 48 0 = 0) ∧
    (Claims.ofClass [entryWords [0x8000 + 2 * 2 ^ 49, 2 ^ 24]] 2 ≤ 2 ^ 24 ∧ 2 ^ 24 < Claims.ofClass [entryWords [0x8000 + 2 * 2 ^ 49, 2 ^ 24 + 64]] 2) ∧
    (granted (ckptDev id id [] 0) 0 (fun r => r.rd) (2 ^ 24) 64 = false) ∧
    (let d := ckptDev id id [(OD.checkpointState, 1), (OD.tandemStoreLength, 2 ^ 20)] 0
     rd d OD.checkpointState = 1 ∧ rd d OD.tandemStoreLength ≠ 0 ∧ (gateTree d).map (fun t => t.members) = some [(0, 0), (1, 1)] ∧ 1 ≠ devNo d ∧
       rd d OD.partnerDevice = 0xFFFF ∧ d.ckpt.theirs = none ∧ d.ckpt.takeover = none) ∧
    (let d := ckptDev (fun k => { k with proposal := some (proposalOf 1 0), theirs := some (proposalOf 1 0) }) id
       [(OD.checkpointCommand, ST.pending.toNat * 2 ^ 16), (OD.powerFeedId, 7)] 0
     commandPending d OD.checkpointCommand = true ∧ (d.ckpt.proposal.map (fun p => p.dev)) = some 1 ∧
       d.tick ≤ (proposalOf 1 0).at_ + rd d OD.gateWaitLimit) ∧
    (0 < 0 + rd up OD.gateWaitLimit ∧ 0 + rd up OD.gateWaitLimit ≤ 10 ^ 9) ∧ (rd { up with od := [(OD.partnerDevice, 1)] } OD.partnerDevice ≠ 0xFFFF) :=
  ⟨by decide, by decide, by decide, by decide, by decide, by decide, by decide, by decide⟩

end Sys2Proof.Tests

namespace Sys2Proof.Tests

/-- A partner, 1, whose copy arrives: a header, a digest per chunk, chunks and retries. -/
def copying_ (ds : List Bytes) (chunks : Map Bytes) (retries : Map Nat) : Incoming := ⟨headOf 1 7 4152 [], ds, chunks, retries, [], []⟩
def withPartner (k : CkptState → CkptState) (q : StepState → StepState) : Dev := ckptDev k q [(OD.partnerDevice, 1), (OD.stepNumber, 9)] 0
def ownCopy : OwnCopy := ⟨7, false, false, false, false, false, [], 0, []⟩
def snapshotAt (n : Nat) : Snapshot := ⟨n, [], leBytes 8 n ++ List.replicate 4088 0⟩
def member (rank : Nat) : StepState → StepState :=
  fun q => { q with groups := [(0, ⟨.admitted, 0, rank, [⟨if rank = 0 then 0 else 1, 3⟩, ⟨if rank = 0 then 1 else 0, 3⟩], 0⟩)] }

def sealed0 : SealedOwn := ⟨[⟨0, clsConst, false, 2 ^ 20, 0⟩], 8192, [[1]], [(0, 1)]⟩

theorem witness_CopiesSealsAndReturns :
    (∀ c : Bytes, (copying_ [Config.sha3_512 c, []] [] []).digests[0]? = some (Config.sha3_512 c) ∧
      (copying_ [Config.sha3_512 c, []] [] []).chunks.length + 1 ≠ (copying_ [Config.sha3_512 c, []] [] []).digests.length ∧
      (copying_ [Config.sha3_512 c] [] []).chunks.length + 1 = (copying_ [Config.sha3_512 c] [] []).digests.length ∧
      (0 :: Config.sha3_512 c : Bytes) ≠ Config.sha3_512 c) ∧
    (mget 0 (copying_ [] [] [(0, 1)]).retries 0 < 2 ∧ 2 ≤ mget 0 (copying_ [] [] [(0, 2)]).retries 0 ∧ (copying_ [] [] []).head ≠ [] ∧
      mfind (copying_ [] [] []).chunks 0 = none) ∧
    (rd (withPartner id id) OD.partnerDevice ≠ 0xFFFF ∧ rd up OD.partnerDevice = 0xFFFF) ∧
    ((gateTree (withPartner id (member 1))).map (fun t => (t.kids, t.parent)) = some ([], some (0, 1)) ∧
      (gateTree (withPartner id (member 0))).map (fun t => (t.kids, t.parent)) = some ([(1, 1)], none) ∧
      ownCopy.sealed = false ∧ ownCopy.failed = false ∧ ownCopy.reported = false) ∧
    (let d := withPartner (fun k => { k with snaps := [snapshotAt 7] }) id
     rd d OD.stepNumber = 7 + 2 ∧ d.seq.st ≠ .idle ∧ (d.ckpt.snaps.find? (fun x => x.step == 7)).map (fun x => x.meta_) = some [] ∧
       sourcePoison d = false ∧ ∀ sn ∈ d.ckpt.snaps, sn.step ≠ 6) ∧
    (let d := { withPartner (fun k => { k with sealedOwn := some sealed0 }) id with mem := { MemState.reset with poison := [0x200] } }
     rd d OD.partnerDevice ≠ 0xFFFF ∧ d.seq.regions = [] ∧ poisoned d.mem 0x200 = true ∧ d.ckpt.sealedOwn = some sealed0 ∧
       64 * 0x200 + 64 ≤ 2 ^ 20 ∧ 2 ^ 20 ≤ hbmEnd ∧ (sealed0.start + 64 * 0x200) / 2 ^ 20 = 0 ∧
       (sealed0.start + 64 * 0x200) % 2 ^ 20 + 64 ≤ 2 ^ 20 ∧ sealed0.digests[0]? = some [1] ∧ poisoned d.mem (committedPlace d (64 * 0x201) / 64) = false ∧
       (sealedEntry { d with ckpt := { d.ckpt with sealedOwn := some { sealed0 with table := [⟨0, 2, false, 2 ^ 20, 0⟩] } } } 0x200).map
         (fun e => e.cls) ≠ some clsConst) ∧
    (∀ c : Bytes, c.length = 2 ^ 20 → { sealed0 with digests := [Config.sha3_512 c] }.digests[0]? = some (Config.sha3_512 c)) ∧
    (8192 + 64 * 0 + 64 ≤ 2 ^ 20 ∧ 64 * 0 + 64 ≤ 64) :=
  ⟨fun c => ⟨rfl, by simp [copying_], rfl, fun h => absurd (congrArg List.length h) (by simp)⟩, by decide, by decide, by decide,
    by decide, by decide, fun c _ => rfl, by decide⟩

/-- An image without contexts, entries or groups, of device 5 at step 7, in memory at 1 MiB. -/
def body0 : Bytes := List.replicate 4152 0
def image0 : CopyImage := ⟨headOf 5 7 4152 [], [[]], body0⟩
def imageDev (q : StepState → StepState) (layer : Nat) : Dev :=
  { ckptDev (fun k => { k with restore := some ⟨image0, layer, false⟩ }) q [] 0 with
    mem := { MemState.reset with cells := (headOf 5 7 4152 []).zipIdx.filterMap (fun p => if p.1 = 0 then none else some (2 ^ 20 + p.2, p.1)) },
    tw := TwizanState.reset }

theorem witness_RestoreAndTakeover :
    (headGood image0.head = true ∧ headGen image0.head = 3 ∧ headDev image0.head = 5 ∧ headDev image0.head ≠ 6 ∧ image0.body.length = 4152) ∧
    ((readMem (imageDev id 1) (2 ^ 20) 512).1 = ST.ok ∧ headGood (readMem (imageDev id 1) (2 ^ 20) 512).2 = true ∧
      (readMem (imageDev id 1) (2 ^ 20) (512 + 4096 + 4152)).1 = ST.ok) ∧
    ((∀ c ∈ (imageDev id 1).tw.ctxs, c.2.st = .free) ∧ ¬(∀ c ∈ (threads []).tw.ctxs, c.2.st = .free)) ∧
    (takes (imageDev (fun q => { q with st := .idle }) 1) s5 OD.checkpointCommand .rws ∧ commandPending (imageDev id 1) OD.checkpointCommand = false ∧
      (imageDev (fun q => { q with st := .idle }) 1).seq.st = .idle) ∧
    ((sectionsOf image0.body).map (fun x => x.ctxs.isEmpty && x.ftt.isEmpty && x.groups.isEmpty && x.table.all (fun e => decide (e.cls < 2)) &&
      x.table.length == 1 && decide (x.start ≤ 4152)) = some true) ∧
    (natAt image0.body 0 < 2 ^ 48 ∧ natAt image0.body 16 < 2 ^ 32 ∧ natAt image0.body 32 = natAt image0.body 0 ∧
      natAt image0.body 40 = natAt image0.body 8) ∧
    (∀ a, poisonAt (imageDev id 1) a = false) :=
  ⟨by decide +kernel, by decide +kernel, by decide, by decide, by decide +kernel, by decide +kernel, unpoisoned rfl rfl rfl rfl⟩

theorem witness_RestoreAndTakeover_takeover :
    (let d := { withPartner (fun k => { k with probeAt := some 0 }) (fun q => { q with st := .halted }) with tick := 3000 }
     d.ckpt.probeAt = some 0 ∧ d.ckpt.takeover = none ∧ d.seq.st = .halted ∧ 0 + (rd d OD.retryLimit + 1) * rd d OD.txTimeout ≤ d.tick ∧
       2999 < 0 + (rd d OD.retryLimit + 1) * rd d OD.txTimeout ∧ takes d s5 OD.checkpointCommand .rws ∧ 1 = rd d OD.partnerDevice) ∧
    (let d := { withPartner (fun k => { k with takeover := some ⟨1, none, 0x2000, true⟩ }) (fun q => { q with st := .halted }) with
       odBytes := [(OD.spareTable, [2, 0, 3, 0])] }
     d.ckpt.takeover = some ⟨1, none, 0x2000, true⟩ ∧ Claims.spareAt d 0 = 2 ∧ 2 < 2 ^ 15 ∧ (gateTree d).isSome = true ∧ d.ckpt.theirs = none ∧
       rd d OD.stepNumber ≤ 8 + 1 ∧ 8 ∈ rd d OD.jobSealedStep :: [8]) ∧
    (let d := withPartner (fun k => { k with snaps := [snapshotAt 7] }) (fun q => { q with st := .halted })
     d.ckpt.takeover = none ∧ d.seq.st = .halted ∧ rd d OD.stepNumber ≤ 8 + 1 ∧ rd d OD.stepNumber = 7 + 2 ∧ 6 + 1 < rd d OD.stepNumber ∧
       (∃ q ∈ d.seq.groups, ∃ m ∈ q.2.members, m.dev = 1) ∧ (∀ q ∈ d.seq.groups, ∀ m ∈ q.2.members, m.dev ≠ 9)) :=
  ⟨by decide, by decide, by decide⟩

end Sys2Proof.Tests

namespace Sys2Proof.Tests

/-! ## Resets -/

def resetting (rs : List Reset) (tick : Nat) : Dev := { threads [group0 [lane []]] with faults := { FaultState.reset with resets := rs }, tick }
def tier1 (e : Nat) : List Reset := [⟨1, e, 0, 0, false⟩]
/-- A module in which an engine of each kind has work. -/
def busyDev : Dev :=
  { queued product with
    units := [(0, ⟨[op1 product], none⟩), (1, ⟨[op1 product], none⟩)], piste := [(0, ⟨[op1 copying], none⟩)],
    mem := { mem0 with combining := [⟨0, none⟩] }, tw := (context .live 0 [] [storing] none).tw }

theorem witness_EngineResets :
    (∀ e ∈ [0x1000, 0x3000, 0x5000, 0x6000, 0x7001], Claims.HasWork busyDev e ∧ busyDev.faults.resets = [] ∧
      mfind busyDev.faults.lastReset e = none ∧ rd busyDev (OD.sparesRemaining + Claims.clusterOf e / 64) ≠ 0) ∧
    Claims.HasWork (threads [group0 [lane []]]) 0x4000 ∧
    (let d := { busyDev with faults := { FaultState.reset with lastReset := [(0x1000, 5)] }, tick := 6 }
     mfind d.faults.lastReset 0x1000 = some 5 ∧ d.tick < 5 + rd d OD.resetWindow) ∧
    ((Claims.unitAt up 0 false).queue = [] ∧ (Claims.unitAt up 0 false).run = none) ∧
    (works up (sequencerFn 1) = true ∧ works up (sequencerFn 2) = true ∧ up.seq.services.length = 5 ∧ up.seq.services[1]? = some 1 ∧
      works { up with od := [] } (sequencerFn 1) = false ∧ engineInReset up 0x8001 = false) ∧
    (∀ x ∈ [0x1000, 0x8001], rd (resetting (tier1 x) 100) OD.engineResetEscalation ≤ 100 ∧ 99 < rd (resetting (tier1 x) 100) OD.engineResetEscalation ∧
      engineInReset (resetting (tier1 x) 100) x = true) ∧
    (∀ k ∈ [OD.clusterMoveEscalation, OD.kickTurnEscalation, OD.fullRestartEscalation], rd up k ≤ 10 ^ 9) ∧
    (engineDefined 0x9000 = false ∧ engineDefined 0x1100 = false ∧ (∀ e ∈ [0x1000, 0x10FF, 0x3FFF - 0x800, 0x8003], engineDefined e = true) ∧
      engineFailed up 0x1000 = false ∧ takes up s5 OD.faultCommand .rws ∧ commandPending up OD.faultCommand = false) ∧
    (matrixStuck up product = false) ∧ 100 / 64 = 65 / 64 ∧
    (let d := resetting [⟨2, 65, 0x4007, 0, true⟩] 0
     (∃ r ∈ d.faults.resets, r = ⟨2, 65, 0x4007, 0, true⟩) ∧ 65 < 100) :=
  ⟨by unfold Claims.HasWork; decide, by unfold Claims.HasWork; decide, by decide, by decide, by decide, by decide, by decide, by decide,
    by decide, by decide, by decide⟩

theorem witness_MovesTurnsAndRestarts :
    (rd up (OD.sparesRemaining + 255 / 64) ≠ 0 ∧ rd { up with od := [(OD.sparesRemaining, 0)] } (OD.sparesRemaining + 63 / 64) = 0 ∧
      up.faults.resets = [] ∧ up.faults.failedClusters = [] ∧ takes up s5 OD.faultCommand .rws) ∧
    (let d := resetting [⟨2, 0, 0, 0, true⟩] 0
     (∀ p ∈ [0, 9], (decide (p < 4)) = true ↔ p = 0) ∧ (clusterMapOf d (0 / 64)).length = 64 ∧ d.units = [] ∧ d.piste = [] ∧ (2 * (0 / 64)) ∉ d.faults.usedSpares ∧ 1 ∉ d.faults.usedSpares ∧
       (∀ b ∈ d.blocks, b.core / 8 = 0 → (mfind d.grids b.grid).isSome = true)) ∧
    (let d := { up with faults := { FaultState.reset with resets := [⟨2, 0, 0, 0, true⟩], usedSpares := [0] } }
     0 ∈ d.faults.usedSpares ∧ 1 ∉ d.faults.usedSpares) ∧
    (let d := resetting [⟨2, 3, 0x4007, 9, false⟩] 0
     (∃ r ∈ d.faults.resets, r = ⟨2, 3, 0x4007, 9, false⟩) ∧ (∀ r ∈ d.faults.resets, r.tier = 2 → r.target ≠ 4) ∧ 4 / 64 = 3 / 64) ∧
    (let d := { threads [group0 [lane []]] with grids := [(0, { grid0 with next := 1, ended := 0 })] }
     d.grids = [(0, { grid0 with next := 1, ended := 0 })] ∧ (∀ b ∈ d.blocks, b.grid = 0) ∧ d.blocks.length = 1 ∧ grid0.complete = false ∧
       works d OD.readyCompute = true) ∧
    (let d := { resetting [⟨3, 0, 0, 0, true⟩] 0 with blocks := [], grids := [], od := [(computeFn 0, RS.fenced)] }
     Claims.ClusterIdle 0 d ∧ readyState d (computeFn (8 * 0)) = RS.fenced ∧ (clusterMapOf d (0 / 64)).length = 64) ∧
    (commandPending up OD.faultCommand = false ∧ answers up s5 = true) ∧
    (let d := { resetting [⟨4, 0, 0, 0, true⟩] 70 with tw := { TwizanState.reset with retxUntil := some 70 } }
     d.tw.retxUntil = some 70 ∧ 70 ≤ d.tick) ∧
    (rd up OD.fenceDrainTime ≤ 10 ^ 9) :=
  ⟨by decide, by decide, by decide, by decide, by decide, ⟨⟨by decide, fun sk => by cases sk <;> decide, fun k hk => rfl⟩, by decide, by decide⟩,
    by decide, by decide, by decide⟩

end Sys2Proof.Tests

namespace Sys2Proof.Tests

/-! ## Power, functions and the management cores -/

def powered (f : PowerState → PowerState) : Dev := { up with pow := f { PowerState.reset with pwrGood := true, hotSwap := true, rail := 750, windowCurrent := 0x41200000 } }

theorem witness_PowerAndThermal :
    ((∀ w ∈ [(0x42400000, 48), (0x42240000, 41), (0x41C80000, 25), (0x421C0000, 39), (0x42640000, 57), (0x426C0000, 59), (0x41400000, 12), (0x41100000, 9)],
        ratOf (BitVec.ofNat 32 w.1) = some (w.2 : ℚ)) ∧ ((44 : ℚ) ≤ 48 ∧ (48 : ℚ) ≤ 56) ∧ ((41 : ℚ) < 44 ∧ (40 : ℚ) ≤ 41) ∧ (39 : ℚ) < 40 ∧ (58 : ℚ) < 59 ∧
      ((108 / 10 : ℚ) ≤ 12 ∧ (12 : ℚ) ≤ 132 / 10) ∧ (9 : ℚ) < 10 ∧ (20 : ℚ) ≤ 25) ∧
    (powered id).pow.v48ok = true ∧ (powered id).pow.v48present = true ∧ (powered id).pow.hotSwap = true ∧ coresRun up = true ∧
    (let d := { powered (fun q => { q with powerBelow := 9 }) with od := (OD.powerCap, 875) :: up.od }
     rd up OD.powerCap = 880 ∧ 620 < rd up OD.powerCap ∧ rd d OD.powerCap < 880 ∧ d.pow.powerBelow = 9 ∧ 0 < rd up OD.powerLimit) ∧
    (∃ x z : ℚ, ratOf (powered id).pow.windowCurrent = some x ∧ ratOf 0x447A0000 = some z ∧
      x + ratBits (rd (powered id) OD.inputSlewLimit) * (5 / 100) < z ∧ 625 ≤ (powered id).pow.rail ∧ (powered id).pow.down = .none) ∧
    ((∀ i < 6, rd up (OD.phasesShed + i) ≤ 1) ∧
      (∀ n ∈ [2, 3, 24], rd { up with od := (OD.phasesShed, n) :: up.od } OD.phasesShed = n ∧
        ∀ i < 6, i ≠ 0 → rd { up with od := (OD.phasesShed, n) :: up.od } (OD.phasesShed + i) ≤ 1)) ∧
    (up.pow.failedSensors = [] ∧ (sensorKeys .temperature).length = 96 ∧ coresRun Dev.reset = false) ∧
    (let d := { powered (fun q => { q with hotSince := some 0, coolSince := none }) with tick := 1000 }
     Claims.NotCritical d ∧ d.pow.inletSince = none ∧ d.pow.flowLowSince = none ∧ 620 < rd d OD.thermalCap) ∧
    (let d := { powered (fun q => { q with coolSince := some 0, inletSince := some 0, flowLowSince := some 0 }) with od := (OD.thermalCap, 700) :: up.od, tick := 1000000 }
     10000 ≤ d.tick ∧ rd d OD.thermalCap < 880 ∧ d.pow.inletRaised = false ∧ d.pow.flowHeld = false) ∧
    (∃ x, measured { powered id with od := (OD.temperature, 0x43000000) :: up.od } OD.temperature = some x ∧ ratBits (rd up OD.junctionCritical) ≤ x) ∧
    (let d := powered (fun q => { q with hotSwap := false })
     d.pow.hotSwap = false ∧ readyState d OD.readyPower ≠ RS.failed ∧ works d OD.readyManagement = true ∧
       (∃ x, ratOf 0x3F000000 = some x ∧ 45 / 100 ≤ x ∧ x ≤ 60 / 100) ∧ (∃ x, ratOf 0x3F800000 = some x ∧ 60 / 100 < x)) ∧
    (ratOf (powered id).pow.windowCurrent = some 10 ∧ ratOf 0x41200000 = some 10 ∧
      (10 : ℚ) ≤ 10 + ratBits (rd (powered id) OD.inputSlewLimit) * (5 / 100)) ∧
    ((List.replicate 36 (0x3F800000 : W32)).length = (sensorKeys .railVoltage).length ∧ (List.replicate 16 (0 : W32)).length = (sensorKeys .laser).length ∧
      (∀ i < 10, ((List.replicate 36 (0x3F800000 : W32))[i]?).bind ratOf = some 1) ∧ rd up (OD.laserActive + 7) < 2 ∧
      ((List.replicate 16 (0 : W32))[15]?).bind ratOf = some 0 ∧ up.pow.lowStandby = []) ∧
    (up.hv.running = true ∧ up.pow.pcycReq = false) :=
  ⟨by decide +kernel, by decide, by decide, by decide, by decide, by decide, ⟨10, 1000, by decide +kernel⟩, by decide, by decide,
    ⟨⟨by decide +kernel, by decide +kernel, by decide⟩, by decide, by decide, by decide⟩, by decide, ⟨128, by decide +kernel⟩,
    ⟨by decide, by decide, by decide, ⟨1 / 2, by decide +kernel⟩, ⟨1, by decide +kernel⟩⟩, by decide +kernel, by decide +kernel, by decide⟩

/-- A function at a state and a reason, beside others at states. -/
def fnAt (fn reason : Nat) (gs : List (Nat × Nat)) : Dev := { powered id with od := (fn, 1 + reason * 256) :: gs ++ up.od }

theorem witness_StartOfFunctions :
    (∀ r ∈ [7, 1], readyState (fnAt OD.readyMemory r []) OD.readyMemory = RS.init ∧ readyReason (fnAt OD.readyMemory r []) OD.readyMemory = r ∧
      works (fnAt OD.readyMemory r []) OD.readyPower = true) ∧
    (readyState (fnAt OD.readyMemory 7 [(OD.readyPower, RS.failed)]) OD.readyPower = RS.failed ∧
      works (fnAt OD.readyMemory 7 [(OD.readyPower, RS.fenced)]) OD.readyPower = false) ∧
    (∃ r ∈ Claims.fnRows (fnAt OD.readyMemory 1 []), r.fn = OD.readyMemory ∧ r.ready) ∧
    (readyState (fnAt OD.readyPower 1 []) OD.readyPower = RS.init ∧ (fnAt OD.readyPower 1 []).pow.hotSwap = true) ∧
    (let d := { up with hv := { up.hv with restarting := true } }
     d.hv.running = true ∧ d.hv.mailDone = true ∧ rd d OD.managementMode = 0) ∧
    ((let d := { fnAt OD.readyHbm 1 [] with mem := { mem0 with initDue := true } }
      readyState d OD.readyHbm = RS.init ∧ d.mem.initDue = true) ∧ ({ mem0 with initDue := false } : MemState).initDue = false) ∧
    (∀ f ∈ [(OD.readyMemory, [OD.readyPower]), (OD.readyHbm, [OD.readyMemory]), (OD.readyCompute + 3, [OD.readyMemory, OD.readyThermal])],
      (let d := { fnAt f.1 1 [] with mem := { mem0 with initDue := false } }
       (readyState d f.1 = RS.init ∧ readyReason d f.1 = 1 ∧ ∀ g ∈ f.2, works d g = true) ∧ d.mem.llcOff = [] ∧ d.mem.llc = [] ∧
         d.mem.initDue = false ∧ d.mem.lost = none ∧ d.mem.laneRepairs = [] ∧ d.faults.failedClusters = [] ∧ d.faults.usedSpares = [] ∧
         (clusterMapOf d 3).length = 64)) ∧
    (2 ^ 24 - 5 < 2 ^ 24 ∧ (2 ^ 24 - 5) % 16 < 12 ∧ 255 / 64 = 3) ∧
    (Config.recordGood 4 1 = true → Config.recordGood 5 1 = true →
      Claims.ImagesPass (around { Dev.reset with hv := { HivanState.reset with imageB := HivanState.reset.imageA } })) ∧
    Claims.Installed (around Dev.reset) ∧
    ¬Claims.SlotPasses (around { Dev.reset with hv := { HivanState.reset with imageA := SlotImage.empty } }) 0 SlotImage.empty ∧
    (let d := { Dev.reset with hv := { HivanState.reset with imageB := HivanState.reset.imageA } }
     d.hv.running = false ∧ d.sec.helper = true ∧ d.sec.enrolled = [] ∧ d.sec.marker ≠ .pending ∧ rd d OD.tamperState = 0 ∧
       rdBytes d OD.deviceCertificate = none ∧ d.hv.imageA.valid = true ∧ d.hv.imageB.valid = true ∧ rd d OD.updateState = 0 ∧ [1] ≠ d.sec.enrolled) ∧
    (let d := { Dev.reset with hv := { HivanState.reset with imageA := SlotImage.empty } }
     d.hv.running = false ∧ d.hv.imageA.valid = false ∧ d.hv.imageB.valid = false) :=
  ⟨by decide, by decide, ⟨_, by unfold Claims.fnRows; simp only [List.append_assoc]; exact List.mem_append_left _ (.tail _ (.tail _ (.head _))), rfl, trivial⟩,
    by decide, by decide, by decide, by decide, by decide, fun a b => ⟨⟨by decide, a⟩, by decide, b⟩, ⟨by decide, by decide⟩,
    fun h => absurd h.1 (by decide), by decide, by decide⟩

def eventAt (id : Nat) (fifo : Bool) : State :=
  let e : Event := ⟨id, 0, 7, []⟩
  around { up with ev := if fifo then { EvState.reset with events := [(3, { Fifo.empty with packets := [eventPacket e] })] } else { EvState.reset with raised := [(16, e)] } }
def record7 : LogRec := ⟨5, 0, 0, 0x1104, 16, 2, 1, 0, 9, []⟩

theorem witness_ManagementCoresAndLog :
    (Claims.Alive up ∧ rd up OD.managementMode = 0 ∧ ∀ k < 2, rd { up with od := (OD.managementMode, 1 + k) :: up.od } OD.managementMode = 1 + k) ∧
    Dev.reset.hv.running = false ∧
    (∀ id ∈ [0x2001, 0x4001], coresRun (eventAt id true).m = true ∧ Claims.Fits ⟨id, 0, 7, []⟩ ∧
      (mget Fifo.empty (eventAt id true).m.ev.events 3).packets = eventPacket ⟨id, 0, 7, []⟩ :: [] ∧ coresRun (eventAt id false).m = true) ∧
    (Claims.Low (eventAt 0x2001 true).m ⟨0x2001, 0, 7, []⟩ ∧ ¬Claims.Low (eventAt 0x4001 true).m ⟨0x4001, 0, 7, []⟩ ∧ LogStore.reset.persistTokens ≠ 0) ∧
    (record7.event = 0x1104 ∧ record7.inst = 1 ∧ record7.size ≤ 16384 ∧ cursorOf up (.slot 4) ≤ record7.seq) ∧ coresRun Dev.reset = false ∧
    takes up s5 OD.logReadCursor .rw :=
  ⟨by unfold Claims.Alive; decide, by decide, by unfold Claims.Fits; decide, by unfold Claims.Low; decide, by decide, by decide, by decide⟩

/-- An update at a state, with the length sent and received. -/
def updating (u n got : Nat) : Dev :=
  { up with od := (OD.updateState, u) :: (OD.updateReceived, got) :: up.od, hv := { up.hv with update := ⟨s5, n, [], false, 0, 0, false⟩ } }
def emptyImage : Image := SlotImage.empty.image

theorem witness_FirmwareUpdate :
    (∀ u ∈ [0, 1, 2, 3, 4, 5], rd (updating u 8 8) OD.updateState = u ∧ (updating u 8 8).hv.update.due = false ∧ (updating u 8 8).hv.update.session = s5 ∧
      rd (updating u 8 8) OD.updateReceived = (updating u 8 8).hv.update.length ∧ takes (updating u 8 8) s5 OD.updateCommand .rws ∧
      commandPending (updating u 8 8) OD.updateCommand = false ∧ coresRun (updating u 8 8) = true) ∧
    (Claims.imageAt (updating 4 8 8) (Claims.inactive (updating 4 8 8))).image.minSeqRelease ≤ rd (updating 4 8 8) OD.sequencerRelease ∧
    (rd (updating 2 8 4) OD.updateReceived ≠ (updating 2 8 4).hv.update.length ∧ 4 + [7, 7].length ≤ (updating 2 8 4).hv.update.length ∧
      takes (updating 2 8 4) s5 OD.updateData .wo) ∧
    ((Config.mldsaVerify (Config.factoryKey 0) (ascii "P3 image") (manifestBytes { emptyImage with publicKey := Config.factoryKey 0, bodyDigest := Config.sha3_512 [] }) []) = true →
      imageGood { emptyImage with publicKey := Config.factoryKey 0, bodyDigest := Config.sha3_512 [] } = true) ∧
    (imageGood { emptyImage with publicKey := 0 :: Config.factoryKey 0 } = false) ∧
    (Claims.Alive (updating 5 8 8) ∧ (let d := { updating 5 8 8 with tick := 10 ^ 12 }
      d.hv.update.trialSince + rd d OD.trialWindow * 1000000 ≤ d.tick) ∧
      (updating 5 8 8).tick < (updating 5 8 8).hv.update.trialSince + rd (updating 5 8 8) OD.trialWindow * 1000000) :=
  ⟨by decide, by decide, by decide, fun h => by unfold imageGood; rw [show ({ emptyImage with publicKey := Config.factoryKey 0, bodyDigest := Config.sha3_512 [] } : Image).signature = [] from rfl, h]; simp [emptyImage, SlotImage.empty],
    by unfold imageGood; rw [decide_eq_false (fun h => by simpa using congrArg List.length h)]; rfl, by unfold Claims.Alive; decide⟩

end Sys2Proof.Tests

namespace Sys2Proof.Tests

/-! ## Sessions, requests and security -/

def hand : Handshake := ⟨0, false, [3], [4], List.replicate 64 9, 0⟩
/-- A module with an identity and the handshakes hs. -/
def rooted (hs : Map Handshake) (keyed : Bool) : Dev :=
  { up with
    hv := { up.hv with handshakes := hs }, sec := { up.sec with identity := some [1] },
    odBytes := if keyed then [(OD.operatorKey, [5])] else [(OD.operatorKey, [])] }

theorem witness_Sessions :
    (List.replicate 32 (0 : Byte)).length = 32 ∧ (List.replicate 1568 (0 : Byte)).length = 1568 ∧ coresRun (rooted [] true) = true ∧
    (Claims.helloRefusal (rooted [] true) 0 = ST.ok ∧ Claims.helloRefusal (rooted [] false) 0 = ST.access ∧ Claims.helloRefusal up 0 = ST.state ∧
      Claims.helloRefusal (rooted [(1, hand), (2, hand)] true) 0 = ST.state) ∧
    (mfind (rooted [(1, hand)] true).hv.handshakes 1 = some hand ∧ mfind (rooted [(1, hand)] true).hv.handshakes 2 = none) ∧
    (up.hv.sessions.length < 8 ∧ rd up OD.sessionLimit = 8 ∧ rd up OD.tamperState ≠ 2) ∧
    (rd { up with od := [(OD.tamperState, 2), (OD.recoverySlots, 2)] } OD.tamperState = 2 ∧
      (rd { up with od := [(OD.tamperState, 2), (OD.recoverySlots, 2)] } OD.recoverySlots).testBit hand.keySlot = false) ∧
    (rd { up with od := [(OD.sessionLimit, 2)] } OD.sessionLimit ≤ up.hv.sessions.length) ∧
    (0 + 5000000 ≤ { up with tick := 5000000 }.tick ∧ up.tick < 0 + 5000000) ∧
    (∀ t : Bytes, t = (Claims.tagged (hand.keys.take 32) 0x03 0 0 []).tag ∨ t ≠ (Claims.tagged (hand.keys.take 32) 0x03 0 0 []).tag) ∧
    (Claims.Open up 5 sess ∧ sess.lastFrame + rd up OD.sessionIdle * 1000000 ≤ { up with tick := 10 ^ 12 }.tick ∧ up.tick < sess.lastFrame + rd up OD.sessionIdle * 1000000 ∧
      15 ≤ ({ sess with tagFails := 15 } : Session).tagFails ∧ sess.tagFails < 15) ∧ mfind up.hv.sessions 7 = none :=
  ⟨List.length_replicate .., List.length_replicate .., by decide, by decide, by decide, by decide, by decide, by decide, by decide, fun _ => Classical.em _,
    by unfold Claims.Open; decide, by decide⟩

/-- A notice of severity 1 as the frame of mailbox session 6. -/
def subscribing (seq : Nat) (t : Bool) (tag : Bytes) : Frame := ⟨1, 0x10, 0, 0, t, false, 6, seq, leBytes 8 (4 + 1 * 2 ^ 40) ++ leBytes 8 0, tag⟩
def slots (x : InSlot) : Dev := { up with hv := { up.hv with slots := [(4, x)] } }

theorem witness_PathsAndFrames :
    ((slotAt up 4).done = (slotAt up 4).doorbell ∧ (slotAt (slots ⟨0, 2, 1, [], [], true⟩) 4).done ≠ (slotAt (slots ⟨0, 2, 1, [], [], true⟩) 4).doorbell) ∧
    (let d := slots ⟨0, 1, 1, Claims.readOf 0x6003 1, [], false⟩
     bufRead (slotAt d 4).request 0 16 = Claims.readOf 0x6003 1 ∧ (slotAt d 4).done = (slotAt d 4).doorbell ∧ coresRun d = true) ∧
    Claims.Readable 0x6003 1 ∧
    (up.hv.mailDone = true ∧ (subscribing 1 true (List.replicate 32 0)).version = 1 ∧ (subscribing 1 true []).payload.length ≤ 32656 ∧
      mfind up.hv.sessions (subscribing 1 true []).session = some { sess with mailbox := true } ∧
      (subscribing 1 true []).seq = (sess.lastSeq + 1) % 2 ^ 32 ∧ (subscribing 0 true []).seq = sess.lastSeq ∧
      (subscribing 9 true []).seq ≠ sess.lastSeq ∧ (subscribing 9 true []).seq ≠ (sess.lastSeq + 1) % 2 ^ 32) ∧
    (∀ seq, frameTag sess.keyIn (subscribing seq true []) = frameTag sess.keyIn { subscribing seq true [] with tag := frameTag sess.keyIn (subscribing seq true []) }) ∧
    (let d := { up with pow := { up.pow with svcEn := true } }
     d.hv.running = true ∧ d.pow.svcEn = true ∧ nfld (leNat ((Claims.readOf 0x2000 1).take 8)) 3 0 = 1 ∧ nfld (leNat ([2] : Bytes)) 3 0 ≠ 1) ∧
    (Claims.Readable 0x2000 1 ∧ Claims.Named 0x2000 ∧ ¬Claims.Named 0x6003) ∧
    (coresRun up = true ∧ rd up OD.plcaNodeId ≠ 0 ∧ coresRun Dev.reset = false) :=
  have readable : ∀ i, i < 65536 → (objDef (256 * i + 1)).any (fun o => o.type.scalar && decide (o.access ≠ .wo)) = true → Claims.Readable i 1 := fun i hi h =>
    ⟨by decide, by decide, hi, by
      cases ho : objDef (256 * i + 1) with
      | none => rw [ho] at h; cases h
      | some o => rw [ho] at h; exact ⟨o, rfl, by simpa using h⟩⟩
  ⟨by decide, by decide, readable 0x6003 (by decide) (by decide), by decide, fun _ => rfl, by decide,
    ⟨readable 0x2000 (by decide) (by decide), by unfold Claims.Named; decide, by unfold Claims.Named; decide⟩, by decide⟩

theorem witness_RequestChecks :
    answers Dev.reset s5 = false ∧ answers up (.field 7) = true ∧ mfind up.hv.sessions 7 = none ∧ up.hv.update.due = false ∧
    (answers up (.slot 4) = true ∧ unknownSession up (.slot 4) = false ∧ pathSession (.slot 4) = 0 ∧ answers up (.slot 0) = true ∧
      unknownSession up (.slot 0) = false) ∧ pathSession s5 ≠ 0 ∧ unknownSession up s5 = false ∧
    Claims.CommandRow s5 1 0 0 0 false 0 0 true (.create s5 1 true) ∧ Claims.RequestRow s5 1 1 0 0 false true [] [] (.read s5 1 1 0 0 true) :=
  ⟨by decide, by decide, by decide, by decide, by decide, by decide, by decide, .head _, by simp [Claims.RequestRow]⟩

theorem witness_ReadsAndDescriptions :
    (answers up s5 = true ∧ unknownSession up s5 = false ∧ Claims.MayRead up s5 0x1000) ∧ ¬Claims.MayRead up (.field 0) 0x6003 ∧
    lookupObj 0xFFFF 1 = none ∧ Path.service ≠ s5 ∧
    ((objDef OD.sessionIdle).map (fun o => decide (o.type = .u32) && decide (o.access = .rw) && o.type.scalar) = some true) ∧
    ((objDef OD.staticAddress).map (fun o => o.type.scalar || decide (o.access = .wo)) = some false ∧ OD.staticAddress ∉ [OD.logReadData, OD.traceData, OD.attestReport]) ∧
    (let d := { up with hv := { up.hv with snaps := [⟨.session 5, OD.logReadData, [1, 2, 3]⟩] } }
     snapOf d (clientOf s5) OD.logReadData = some [1, 2, 3] ∧ snapOf up (clientOf s5) OD.logReadData = none) ∧
    ((lookupObj 0x6003 2).map (fun o => decide (o.access = .wo)) = some false) ∧ (mfind up.hv.sessions (pathSession (.slot 4)) = none ∧ mfind up.hv.sessions (pathSession s5) = some sess) :=
  ⟨⟨by decide, by decide, .inl (by decide)⟩, fun h => h.elim (fun h => by cases h) (fun h => h.elim (fun h => by unfold Claims.Named at h; omega) (fun ⟨_, h⟩ => by cases h)),
    by decide, by decide, by decide +kernel, by decide +kernel, by decide, by decide +kernel, by decide⟩

theorem witness_WritesOfObjects :
    (∀ x ∈ Claims.scalarRows, takes up s5 x.1 x.2.2.1 ∧ x.2.2.2.1 ≤ x.2.2.2.2 ∧ x.2.2.2.2 < 256 ^ x.2.1) ∧
    (∀ key ∈ Claims.counterKeys, takes up s5 key .rw) ∧
    ((objDef (256 * 0x6003 + 1)).isSome = true ∧ objDef (256 * 0xFFF + 1) = none) ∧
    (takes up s5 OD.operatorKey .rws ∧ rdBytes up OD.operatorKey ≠ some [1] ∧ OD.operatorKey / 256 = 0x6011) ∧
    (takes up s5 OD.staticAddress .rws ∧ stageOf up (clientOf s5) OD.staticAddress = none ∧ (rdFull up OD.staticAddress).length = 16) ∧
    (let d := { up with hv := { up.hv with stages := [⟨.session 5, OD.staticAddress, [1, 2]⟩] } }
     stageOf d (clientOf s5) OD.staticAddress = some [1, 2] ∧ mayWrite d s5 .rws = true ∧ mayWrite d s5 .ro = false ∧ 3 ≠ ([1, 2] : Bytes).length ∧ 16 + 1 ≤ 1048576) ∧
    (takes up s5 OD.plcaBurst .rw ∧ rdBytes up OD.plcaBurst = none ∧ up.sec.sealKey = none ∧ OD.plcaBurst ∈ installationKeys ∧ OD.sessionIdle ∉ installationKeys) :=
  ⟨by decide +kernel, by decide +kernel, by decide +kernel, by decide, by decide, by decide, by decide⟩

def tampered (state policy : Nat) (tripped : List Nat) : Dev :=
  { up with od := (OD.tamperState, state) :: (OD.tamperPolicy, policy) :: up.od, sec := { up.sec with tripped } }

theorem witness_TamperResponse :
    (∀ x ∈ [(0, 0), (0, 1), (0, 2), (1, 1), (2, 1), (3, 2)], Claims.ArmedSensor (tampered x.1 x.2 []) 0 ∧ Claims.Rooted (tampered x.1 x.2 []) ∧
      rd (tampered x.1 x.2 []) OD.tamperState = x.1 ∧ rd (tampered x.1 x.2 []) OD.tamperPolicy = x.2) ∧
    ¬Claims.ArmedSensor { up with od := [(OD.tamperSensorEnable, 7)] } 3 ∧
    (works up OD.readySecurity = true ∧ (rd up OD.tamperSensorsFailed).testBit 1 = false) ∧
    (Claims.Quiet (tampered 1 0 []) ∧ ¬Claims.Quiet (tampered 1 0 [2]) ∧ takes (tampered 1 0 []) s5 OD.tamperCommand .rws ∧
      commandPending (tampered 1 0 []) OD.tamperCommand = false) ∧
    (Claims.Open (tampered 2 1 []) (pathSession s5) sess ∧ (rd (tampered 2 1 []) OD.recoverySlots).testBit sess.keySlot = true ∧
      answers (tampered 2 1 []) s5 = true) ∧
    (({ up.sec with marker := .pending } : SecState).marker = .pending ∧ up.sec.marker ≠ .pending) :=
  ⟨by unfold Claims.ArmedSensor Claims.Rooted; decide, by unfold Claims.ArmedSensor; decide, by decide, by unfold Claims.Quiet; decide,
    by unfold Claims.Open; decide, by decide⟩

theorem witness_IdentityAndRecords :
    (takes up s5 OD.ownerRecordInstall .rws ∧ rd up OD.ownerRecordNumber < 5 ∧ up.sec.ownerValues = [] ∧ up.sec.ownerBytes = []) ∧
    ((∀ sig : Bytes, sig.length ≠ 4627 → ¬Claims.OwnerSigned up 5 0x6003 2 [1, 0] sig)) ∧
    (takes up s5 OD.attestNonce .rw ∧ (List.replicate 32 (0 : Byte)).length = 32 ∧ 32 < (List.replicate 33 (0 : Byte)).length) ∧
    (let d := { rooted [] true with sec := { (rooted [] true).sec with nonces := [(.session 5, List.replicate 32 0)] } }
     authed d s5 = true ∧ nonceOf d (clientOf s5) = some (List.replicate 32 0) ∧ d.sec.identity = some [1] ∧ rd d OD.tamperState < 4 ∧
       nonceOf up (clientOf s5) = none) ∧
    (let d := { tampered 3 2 [] with pow := { up.pow with svcEn := true } }
     Claims.Rooted d ∧ d.pow.svcEn = true ∧ rd d OD.tamperState = 3 ∧ rd up OD.tamperState ≠ 3 ∧ rd d OD.tamperTrips = 0) :=
  ⟨by decide, fun _ h k => h k.1, by decide, by decide, by unfold Claims.Rooted; decide⟩

theorem witness_QueueStep : (⟨up, LogStore.reset, [.stop s5 false]⟩ : State).pending = .stop s5 false :: [] := rfl

theorem witness_EveryCommandAnswers : ({ up with ckpt := { CkptState.reset with holds := true, flipLog := [3] } } : Dev).ckpt.holds = true := rfl

theorem witness_LogStaysBounded : Claims.LogBounded LogStore.reset ∧ Claims.LogOrdered LogStore.reset ∧ LogStore.reset.nextSeq + 1 < 2 ^ 64 ∧
    step State.reset = .next State.reset :=
  ⟨⟨by decide, by decide, by decide, by decide⟩, ⟨.nil, by decide⟩, by decide, rfl⟩

end Sys2Proof.Tests

namespace Sys2Proof.Tests

/-! ## Well-formedness: a term that each check refuses -/

def w32 : Where := ⟨0, 0, 32⟩
def wideFrame : Frame := ⟨256, 0x10, 0, 0, false, false, 0, 0, [], []⟩

theorem test_paths_and_groups_out_of_range :
    (Instr.supplySetpointWrite (.slot 256) 750).wf = false ∧ (Instr.add w32 (fields 0 0 0 0 0)).wf = false ∧
    (Instr.barrierTimeout w0 32).wf = false ∧ (Instr.counterWaitTimeout w0 32).wf = false ∧ (Instr.supplySetpointWrite (.slot 255) 750).wf = true := by
  decide

theorem test_units_out_of_range :
    (Instr.packetPublish 17 none).wf = false ∧ (Instr.blockStart 0 2048).wf = false ∧ (Instr.matrixOpStart 256 false false).wf = false ∧
    (Instr.chainOpComplete 2048).wf = false ∧ (Instr.dieLoss 12 0 false).wf = false ∧ (Instr.dieLoss 0 16 false).wf = false ∧
    (Instr.prefetchFill 2048 0).wf = false ∧ (Instr.cxlTimeout 2).wf = false ∧ (Instr.heartbeatMissed 4).wf = false ∧
    (Instr.serviceFailover 4).wf = false ∧ (Instr.clusterMove s5 256 false).wf = false ∧ (Instr.powerPhaseFault 16).wf = false := by decide

theorem test_fabric_operands_out_of_range :
    (Instr.create s5 64 false).wf = false ∧ (Instr.localRegionWrite s5 0 64 0 0 false).wf = false ∧ (Instr.doorbellPost (.host 0) 2048 0 0 0).wf = false ∧
    (Instr.fabricOpIssue 0 4).wf = false ∧ (Instr.drainEnd 64).wf = false ∧ (Instr.planePortChange 0 32768 true).wf = false ∧
    (Instr.replayEntryExpiry 0 16384 0).wf = false ∧ (Instr.flitTransmit 32).wf = false ∧ (Instr.laneFail 0 5).wf = false ∧
    (Instr.laserInputLow 8 0).wf = false ∧ (Instr.hostBar0Access 2 0 8 none).wf = false ∧ (Instr.markList 0 2).wf = false ∧
    (Instr.requestArrival { pk .store 0 false with len := 512 } 0).wf = false ∧ (Instr.responseArrival { rs ST.ok false with slot := 2 ^ 14 }).wf = false := by
  decide

theorem test_services_out_of_range :
    (Instr.voteReceive true 64 (vote 0)).wf = false ∧ (Instr.voteReceive true 0 (vote 5)).wf = false ∧ (Instr.admitGroup s5 4096 1 0 0 false).wf = false ∧
    (Instr.partner s5 32768 false false).wf = false ∧ (Instr.read s5 65536 0 0 0 false).wf = false ∧ (Instr.registerWrite s5 0 256 []).wf = false ∧
    (Instr.slotDoorbell 256 false 0).wf = false ∧ (Instr.mailboxDoorbell 0 wideFrame).wf = false ∧ (Instr.serviceInterfaceFrame wideFrame).wf = false := by
  decide

/-! ## Commands, each one step: expected values from the cited rules -/

/-- The state that one command makes of one, with the queue taken as empty before. -/
def after (c : Instr) (s : State) : Option State :=
  match step { s with pending := [c] } with
  | .next t => some t
  | _ => none
def regAfter (c : Instr) (s : State) (i r : Nat) : Option W32 := (after c s).bind (fun t => (laneOf t.m w0 i).bind (fun l => l.regs[r]?))
def statusAfter (c : Instr) (d : Dev) : Option Status := (after c (around d)).map (fun t => t.m.hv.replyStatus)

/-- R77: a 32-bit addition wraps: 0xFFFFFFFF + 7 is 6. -/
theorem test_add_wraps : regAfter (.add w0 (fields 8 0 1 0xFF 0)) two 1 8 = some 6 := by decide
/-- R74, R77: the destination may be a source. -/
theorem test_sub_into_its_source : regAfter (.sub w0 (fields 1 1 0 0xFF 0)) two 0 1 = some 1 := by decide
/-- R77: a count of leading zeros of 0 is the width. -/
theorem test_clz_of_zero : regAfter (.clz w0 (fields 8 4 0xFF 0xFF 0)) two 1 8 = some 32 := by decide
/-- R77: an operation on a NaN gives the canonical NaN. -/
theorem test_nan_is_canonical : regAfter (.fadd w0 (fields 8 7 6 0xFF 0)) two 0 8 = some 0x7FC00000 := by decide
/-- R74: a result to 0xFF is discarded, and the program counter moves on by 8. -/
theorem test_discarded_result : ((after (.add w0 (fields 0xFF 0 1 0xFF 0)) two).bind (fun t => laneOf t.m w0 0)).map (fun l => (l.pc, l.regs[1]?)) =
    some (8, some 2) := by decide

/-- R176: 0x3F808000 lies half-way between two BF16 values and rounds to the even one; the next value up rounds up. -/
theorem test_bf16_ties_to_even : (round .bf16 RMode.rne false (f32 0x3F808000)).bits = 0x3F80 ∧ (round .bf16 RMode.rne false (f32 0x3F808001)).bits = 0x3F81 := by
  decide
/-- R170: E4M3 has no infinity and its greatest value is 448. -/
theorem test_e4m3_greatest : decode .e4m3 0x7E = .fin false 14 5 ∧ (decode .e4m3 0x7F).isNan = true := by decide

/-- R38: the supply setpoint goes by 5 mV from 620 to 880. -/
theorem test_supply_setpoint : statusAfter (.supplySetpointWrite s5 700) up = some ST.ok ∧ statusAfter (.supplySetpointWrite s5 702) up = some ST.invalid ∧
    statusAfter (.supplySetpointWrite s5 885) up = some ST.invalid := by decide
/-- R550: a session that is closed is gone, and an event says so. -/
theorem test_close : (after (.close 5) (around up)).map (fun t => (mfind t.m.hv.sessions 5, t.m.ev.raised.map (fun q => q.2.id))) = some (none, [0x1102]) := by
  decide
/-- R292: a create makes a FREE context LIVE. -/
theorem test_create : (after (.create s5 3 false) (around up)).map (fun t => ((ctxOf t.m 3).st, (ctxOf t.m 4).st)) = some (.live, .free) := by decide +kernel
/-- R519: a kick turn fences the compute dies that work, and its command is pending. -/
theorem test_kick_turn : (after (.kickTurn s5 false) (around up)).map (fun t => (t.m.faults.resets.map (fun r => r.tier), readyState t.m OD.readyCompute,
    commandStatus t.m OD.faultCommand)) = some ([3], RS.fenced, ST.pending.toNat) := by decide +kernel
/-- R590: a trip of an enabled sensor under policy 1 locks the module. -/
theorem test_trip_locks : (after (.tamperTrip 1 true) (around (tampered 0 1 []))).map (fun t => (rd t.m OD.tamperState, t.m.hv.sessions.length)) = some (2, 0) := by
  decide
/-- R537: the packet of an event becomes the log's next entry, of its source and severity. -/
theorem test_log_entry : (after (.logEntry 3) (eventAt 0x4001 true)).map (fun t => (t.log.ring.map (fun r => (r.event, r.source, r.severity, r.detail0)), t.log.nextSeq)) =
    some ([(0x4001, 3, 2, 7)], 1) := by decide +kernel
/-- R551, R552: a request on an in-band slot of a host carries no authority to command. -/
theorem test_slot_has_no_authority : statusAfter (.stop (.slot 4) false) up = some ST.access := by decide
/-- The table gives no row bits: no word spells a command, and none is placed. -/
theorem test_no_table_words : ∀ n w, decodeTableWord n w = none ∧ State.reset.withFetchWord n w = State.reset := fun _ _ => ⟨rfl, rfl⟩

end Sys2Proof.Tests
end

section
/-!
SUPPORT. Replies (R545, R552, R553): a reply changes the reply words, the session, the slot or the mailbox, and what is sent.
-/

namespace Sys2Proof.Machine

open Claims (Untouched Turned OutOfState MayRead)

section Replies
variable (p : Path) (st : Status) (b : Bytes) (d : Dev)

theorem foldl_send (g : Nat → Msg) (l : List Nat) (d : Dev) :
    l.foldl (fun d i => send (g i) d) d = { d with sent := d.sent ++ l.map g } := by
  induction l generalizing d with
  | nil => simp
  | cons i l ih =>
    rw [List.foldl_cons, ih]
    simp [send]

theorem sendMessage_eq (key : Option Bytes) (n type seq : Nat) :
    ∃ l, sendMessage key n type seq b d = { d with sent := d.sent ++ l } := ⟨_, foldl_send _ _ _⟩

/-- A session whose request has been answered. -/
def doneSession (tick : Nat) (x : Session) : Session :=
  { x with lastSeq := (x.lastSeq + 1) % 2 ^ 32, lastReply := b, lastFrame := tick, tagFails := 0 }

theorem sessionDone_eq (n : Nat) : ∃ m, sessionDone n b d = { d with hv := { d.hv with sessions := m } } ∧
    ∀ k, mfind m k = if n = k then (mfind d.hv.sessions k).map (doneSession b d.tick) else mfind d.hv.sessions k := by
  unfold sessionDone
  cases h : mfind d.hv.sessions n with
  | none => exact ⟨_, rfl, fun k => by split <;> simp_all⟩
  | some x => exact ⟨_, rfl, fun k => by rw [mfind_mset]; split <;> simp_all [doneSession]⟩

/-- All that a reply changes: the reply and its status, the session's entry, the slot or the mailbox, and what is sent. -/
theorem reply_eq : ∃ sessions slots mailReply mailDone mailFrame sent,
    reply p st b d = { d with sent, hv := { d.hv with reply := b, replyStatus := st, sessions, slots, mailReply, mailDone, mailFrame } } ∧
    ∀ k, mfind sessions k =
      if pathSession p = k then (mfind d.hv.sessions k).map (doneSession b d.tick) else mfind d.hv.sessions k := by
  obtain ⟨m, hm, hf⟩ := sessionDone_eq b { d with hv := { d.hv with reply := b, replyStatus := st } } (pathSession p)
  unfold reply
  rw [hm]
  cases p with
  | field n =>
    obtain ⟨l, hl⟩ := sendMessage_eq b { d with hv := { d.hv with reply := b, replyStatus := st, sessions := m } }
      (outKey { d with hv := { d.hv with reply := b, replyStatus := st, sessions := m } } n) n 0x11
      (((mfind m n).map (fun s => s.lastSeq)).getD 0)
    exact ⟨m, d.hv.slots, d.hv.mailReply, d.hv.mailDone, d.hv.mailFrame, d.sent ++ l, hl, hf⟩
  | mailbox n => exact ⟨m, _, _, _, _, _, rfl, hf⟩
  | slot n => exact ⟨m, _, _, _, _, _, rfl, hf⟩
  | service => exact ⟨m, _, _, _, _, _, rfl, hf⟩

theorem reply_untouched : Untouched d (reply p st b d) := by
  obtain ⟨_, _, _, _, _, _, h, -⟩ := reply_eq p st b d
  rw [h, Untouched]

theorem reply_frame : reply p st b d = { d with hv := (reply p st b d).hv, sent := (reply p st b d).sent } :=
  reply_untouched p st b d

@[simp] theorem reply_seq : (reply p st b d).seq = d.seq := by rw [reply_frame]
@[simp] theorem reply_ev : (reply p st b d).ev = d.ev := by rw [reply_frame]
@[simp] theorem reply_od : (reply p st b d).od = d.od := by rw [reply_frame]
@[simp] theorem reply_odBytes : (reply p st b d).odBytes = d.odBytes := by rw [reply_frame]
@[simp] theorem reply_installed : (reply p st b d).installed = d.installed := by rw [reply_frame]
@[simp] theorem reply_sec : (reply p st b d).sec = d.sec := by rw [reply_frame]
@[simp] theorem rd_reply (k : Nat) : rd (reply p st b d) k = rd d k := by simp [rd]
@[simp] theorem rdBytes_reply (k : Nat) : rdBytes (reply p st b d) k = rdBytes d k := by simp [rdBytes]

@[simp] theorem reply_status : (reply p st b d).hv.replyStatus = st := by
  obtain ⟨_, _, _, _, _, _, h, -⟩ := reply_eq p st b d
  rw [h]

@[simp] theorem reply_bytes : (reply p st b d).hv.reply = b := by
  obtain ⟨_, _, _, _, _, _, h, -⟩ := reply_eq p st b d
  rw [h]

@[simp] theorem reply_snaps : (reply p st b d).hv.snaps = d.hv.snaps := by
  obtain ⟨_, _, _, _, _, _, h, -⟩ := reply_eq p st b d
  rw [h]

@[simp] theorem reply_stages : (reply p st b d).hv.stages = d.hv.stages := by
  obtain ⟨_, _, _, _, _, _, h, -⟩ := reply_eq p st b d
  rw [h]

@[simp] theorem reply_update : (reply p st b d).hv.update = d.hv.update := by
  obtain ⟨_, _, _, _, _, _, h, -⟩ := reply_eq p st b d
  rw [h]

theorem mfind_reply_sessions (k : Nat) : mfind (reply p st b d).hv.sessions k =
    if pathSession p = k then (mfind d.hv.sessions k).map (doneSession b d.tick) else mfind d.hv.sessions k := by
  obtain ⟨_, _, _, _, _, _, h, hf⟩ := reply_eq p st b d
  rw [h]
  exact hf k

/-- A reply opens and closes no session. -/
theorem reply_sessions_open (k : Nat) : (mfind (reply p st b d).hv.sessions k).isSome = (mfind d.hv.sessions k).isSome := by
  rw [mfind_reply_sessions]
  split <;> simp

@[simp] theorem mayWrite_dropHeld (q : Path) (a : Access) : mayWrite (dropHeld p d) q a = mayWrite d q a := by
  cases q <;> cases a <;> rfl

@[simp] theorem mayRead_dropHeld (q : Path) (i : Nat) (a : Access) : mayRead (dropHeld p d) q i a = mayRead d q i a := by
  cases q <;> rfl

@[simp] theorem rd_dropHeld (k : Nat) : rd (dropHeld p d) k = rd d k := rfl
@[simp] theorem rdFull_dropHeld (k : Nat) : rdFull (dropHeld p d) k = rdFull d k := rfl
@[simp] theorem lockedOut_dropHeld (q : Path) (k : Nat) (a : Access) : lockedOut (dropHeld p d) k a q = lockedOut d k a q := rfl
@[simp] theorem ownerStatus_dropHeld (k : Nat) (c : Bool) : ownerStatus (dropHeld p d) k c = ownerStatus d k c := rfl
@[simp] theorem objNow_dropHeld (q : Path) (l : LogStore) (o : ObjDef) (k : Nat) : objNow q l (dropHeld p d) o k = objNow q l d o k := rfl
end Replies
end Sys2Proof.Machine
end

section
/-!
SUPPORT. Dictionary requests as commands: the refusals that every request shares, the rows of the dictionary, and READ by its cases.
-/

namespace Sys2Proof.Machine

open Claims (Untouched Turned OutOfState MayRead)

/-! ## Requests as commands -/

theorem dropHeld_untouched (p : Path) (d : Dev) : Untouched d (dropHeld p d) := rfl
theorem dropStage_untouched (p : Path) (d : Dev) : Untouched d (dropStage p d) := rfl

section Outcomes
variable {c : Instr} {s : State} {f : Dev → Dev} {p : Path} {st : Status}

/-- A command on a calm device has its effect, if that effect leaves the sequencer as it was. -/
theorem completes_onDev {d : Dev} {P : Dev → Prop} (hc : Calm s) (he : exec c s = onDev f s) (hf : f s.m = d)
    (hq : d.seq = s.m.seq) (hP : P d) : Completes c s P := by
  subst hf
  exact ⟨f s.m, he.trans (onDev_calm hc.holds f (by rw [hq]; exact hc.reached)), hP⟩

theorem untouched_reply {d d' : Dev} (h : Untouched d d') (b : Bytes) : Untouched d (reply p st b d') := by
  rw [Untouched, reply_frame, h]

theorem turned_answer {size : Nat} (hc : Calm s) (he : exec c s = onDev f s) (hf : f s.m = answer p st size (dropHeld p s.m)) :
    Turned c s st :=
  completes_onDev hc he hf (reply_seq ..) ⟨reply_status .., untouched_reply (dropHeld_untouched p s.m) _⟩

theorem noteRefusal_raises (p : Path) (key unit : Nat) (d : Dev) (hk : key < 2 ^ 28) :
    ∃ e : Event, e.id = 0x1104 ∧ e.detail0 = key ∧ (noteRefusal p key unit d).ev.raised = d.ev.raised ++ [(hivanPort, e)] :=
  ⟨_, rfl, Nat.mod_eq_of_lt hk, rfl⟩

theorem rd_noteRefusal (p : Path) (key unit k : Nat) (d : Dev) :
    rd (noteRefusal p key unit d) k = if OD.stateRefusals = k then (rd d k + 1) % 2 ^ 64 else rd d k := by
  have h : rd (noteRefusal p key unit d) k = rd (inc OD.stateRefusals d) k := rfl
  rw [h, rd_inc]
  split
  · subst k; rfl
  · rfl

/-- A refusal out of state, with what R555 counts and logs. -/
theorem outOfState_refuseState {key size : Nat} (hc : Calm s) (he : exec c s = onDev f s)
    (hf : f s.m = refuseState p key size (dropHeld p s.m)) (hk : key < 2 ^ 28) : OutOfState c s key := by
  refine completes_onDev hc he hf (reply_seq ..) ⟨reply_status .., ?_, reply_odBytes .., fun k hk => ?_, ?_, ?_⟩
  · rw [Claims.Replied, refuseState, answer, reply_frame]
    rfl
  · rw [refuseState, answer, rd_reply, rd_noteRefusal, if_neg hk.symm, rd_dropHeld]
  · rw [Claims.Counted, refuseState, answer, rd_reply, rd_noteRefusal, rd_dropHeld]
    rfl
  · obtain ⟨e, hi, hd, hr⟩ := noteRefusal_raises p key 0xFF (dropHeld p s.m) hk
    exact ⟨e, hi, hd, by rw [refuseState, answer, reply_ev, hr]; rfl⟩

end Outcomes

section Filtered
variable {α : Type} {f q : α → Bool} (l : List α) (h : ∀ a, q a = true → f a = false)
include h

theorem find?_filter_none : (l.filter f).find? q = none :=
  List.find?_eq_none.2 fun a ha hq => by simp [h a hq] at ha

/-- The entry put behind those of other clients is the one found. -/
theorem find?_filter_append {x : α} (hx : q x = true) : (l.filter f ++ [x]).find? q = some x := by
  simp [List.find?_append, find?_filter_none l h, hx]

end Filtered

/-! ## The dictionary's rows -/

theorem lookupObj_of_pos {index sub : Nat} (h : 1 ≤ sub) : lookupObj index sub = objDef (256 * index + sub) := by
  rw [lookupObj, if_neg (by omega)]

theorem lookupObj_of_key {key : Nat} {o : ObjDef} (h : 1 ≤ key % 256) (ho : objDef key = some o) :
    lookupObj (key / 256) (key % 256) = some o := by
  rw [lookupObj_of_pos h, Nat.div_add_mod, ho]

theorem objDef_mem {key : Nat} {o : ObjDef} (h : objDef key = some o) : o ∈ objTable ∧ o.index = key / 256 := by
  refine ⟨List.mem_of_find?_eq_some h, ?_⟩
  have := List.find?_some h
  simp only [Bool.and_eq_true, beq_iff_eq] at this
  exact this.1.1

theorem objTable_rows : ∀ o ∈ objTable, 1 ≤ o.lo ∧ o.index < 2 ^ 16 := by decide +kernel

theorem objDef_lo {key : Nat} {o : ObjDef} (h : objDef key = some o) : o.lo ≠ 0 := by
  have := (objTable_rows o (objDef_mem h).1).1
  omega

theorem objDef_key_lt {key : Nat} {o : ObjDef} (h : objDef key = some o) : key < 2 ^ 28 := by
  obtain ⟨hm, hi⟩ := objDef_mem h
  have := (objTable_rows o hm).2
  omega

theorem builtOnRead_rows : ∀ key ∈ builtOnRead, (objDef key).any (fun o => o.type.scalar) = false := by decide +kernel

theorem scalar_not_builtOnRead {key : Nat} {o : ObjDef} (h : objDef key = some o) (hs : o.type.scalar = true) : key ∉ builtOnRead := by
  intro hk
  have := builtOnRead_rows key hk
  simp [h, hs] at this

/-! ## READ -/

theorem mayRead_iff {d : Dev} {p : Path} {index : Nat} {a : Access} : mayRead d p index a = true ↔ a ≠ .wo ∧ MayRead d p index := by
  cases p <;> simp [mayRead, MayRead, Claims.Named]

section Read
variable {p : Path} {index sub offset count : Nat} {reserved : Bool} {l : LogStore} {d : Dev} {o : ObjDef}

theorem readReq_invalid (ha : answers d p = true) (hk : unknownSession d p = false) (h : reserved = true ∨ 16384 < count) :
    readReq p index sub offset count reserved l d = answer p ST.invalid 0 (dropHeld p d) := by
  simp [readReq, ha, hk, h]

theorem readReq_noObject (ha : answers d p = true) (hk : unknownSession d p = false) (hn : count ≤ 16384)
    (ho : lookupObj index sub = none) : readReq p index sub offset count false l d = answer p ST.noObject 0 (dropHeld p d) := by
  simp [readReq, ha, hk, Nat.not_lt.2 hn, ho]

theorem readReq_access (ha : answers d p = true) (hk : unknownSession d p = false) (hn : count ≤ 16384)
    (ho : lookupObj index sub = some o) (hr : o.access = .wo ∨ ¬MayRead d p index) :
    readReq p index sub offset count false l d = answer p ST.access 0 (dropHeld p d) := by
  have hm : mayRead d p index o.access = false := by
    rw [Bool.eq_false_iff, Ne, mayRead_iff]
    tauto
  simp [readReq, ha, hk, Nat.not_lt.2 hn, ho, hm]

/-- A read that finds no snapshot to go on from, or wants none. -/
theorem readReq_fresh (ha : answers d p = true) (hk : unknownSession d p = false) (hn : count ≤ 16384)
    (ho : lookupObj index sub = some o) (hw : o.access ≠ .wo) (hr : MayRead d p index)
    (hs : o.type.scalar = true ∨ offset = 0 ∨ snapOf d (clientOf p) (256 * index + sub) = none) :
    readReq p index sub offset count false l d = readFresh p o (256 * index + sub) offset count l (dropHeld p d) := by
  have hm := mayRead_iff.2 ⟨hw, hr⟩
  rcases hs with hs | hs | hs <;> simp [readReq, ha, hk, Nat.not_lt.2 hn, ho, hm, hs]

/-- A read that goes on from a snapshot. -/
theorem readReq_held {b : Bytes} (ha : answers d p = true) (hk : unknownSession d p = false) (hn : count ≤ 16384)
    (ho : lookupObj index sub = some o) (hw : o.access ≠ .wo) (hr : MayRead d p index) (hs : o.type.scalar = false)
    (hoff : offset ≠ 0) (hb : snapOf d (clientOf p) (256 * index + sub) = some b) (hfit : offset + count ≤ b.length) :
    readReq p index sub offset count false l d = deliver p b offset count (dropStage p d) := by
  have hm := mayRead_iff.2 ⟨hw, hr⟩
  simp [readReq, ha, hk, Nat.not_lt.2 hn, ho, hm, hs, hoff, hb, fits, hfit]

end Read

section ReadFresh
variable {p : Path} {key offset count : Nat} {l : LogStore} {d : Dev} {o : ObjDef}

theorem takeWhole_plain (h : key ∉ builtOnRead) : takeWhole p l d o key = some (objNow p l d o key, d) := by
  simp only [builtOnRead, List.mem_cons, List.not_mem_nil, or_false, not_or] at h
  simp [takeWhole, h]

theorem readFresh_plain (h : key ∉ builtOnRead) (hfit : offset + count ≤ (objNow p l d o key).length) :
    readFresh p o key offset count l d = deliver p (objNow p l d o key) offset count
      (if o.type.scalar ∨ offset ≠ 0 then d else putSnap p key (objNow p l d o key) d) := by
  simp [readFresh, takeWhole_plain h, h, fits, hfit]

theorem readFresh_tooLong (h : key ∉ builtOnRead) (hfit : (objNow p l d o key).length < offset + count) :
    readFresh p o key offset count l d = answer p ST.length (objNow p l d o key).length d := by
  simp [readFresh, takeWhole_plain h, h, fits, Nat.not_le.2 hfit]

/-- Bytes past a snapshot do not exist where the object is built when it is read (R541; for TraceData and AttestReport log entry 93). -/
theorem readFresh_built (h : key ∈ builtOnRead) (hoff : offset ≠ 0) : readFresh p o key offset count l d = refuseState p key 0 d := by
  simp [readFresh, h, hoff]

theorem objNow_scalar (ho : objDef key = some o) (hs : o.type.scalar = true) :
    objNow p l d o key = leBytes o.type.bytes (scalarNow p l d key) := by
  simp [objNow, objDef_lo ho, hs]

theorem deliver_eq (b : Bytes) : deliver p b offset count d = reply p ST.ok
    (Claims.Bytes_ b.length offset ((b.drop offset).take (if count = 0 then min 16384 (b.length - offset) else count))) d := by
  simp [deliver, replyBytes, Claims.Bytes_, ST.ok, Nat.min_def]

theorem keepsState_iff : keepsState p = true ↔ pathSession p ≠ 0 ∨ ∃ n, p = .slot n := by
  cases p <;> simp [keepsState, pathSession]

theorem snapOf_putSnap (hp : keepsState p = true) (b : Bytes) : snapOf (putSnap p key b (dropHeld p d)) (clientOf p) key = some b := by
  simp only [snapOf, putSnap, hp, if_true, dropHeld]
  rw [find?_filter_append _ (by simp +contextual) (by simp)]
  rfl

end ReadFresh
end Sys2Proof.Machine
end

section
/-!
PROOFS. DESCRIBE and SUBSCRIBE by their cases, and the statement about READ, DESCRIBE and SUBSCRIBE.
-/

namespace Sys2Proof.Machine

open Claims (Untouched Turned OutOfState MayRead)

section Describe
variable {p : Path} {index sub : Nat} {d : Dev} {o : ObjDef}

theorem describeReq_invalid (ha : answers d p = true) (hk : unknownSession d p = false) :
    describeReq p index sub true d = answer p ST.invalid 0 (dropHeld p d) := by
  simp [describeReq, ha, hk]

theorem describeReq_noObject (ha : answers d p = true) (hk : unknownSession d p = false) (ho : lookupObj index sub = none) :
    describeReq p index sub false d = answer p ST.noObject 0 (dropHeld p d) := by
  simp [describeReq, ha, hk, ho]

theorem describeReq_access (ha : answers d p = true) (hk : unknownSession d p = false) (ho : lookupObj index sub = some o)
    (h : ¬MayRead d p index ∨ p = .service) : describeReq p index sub false d = answer p ST.access 0 (dropHeld p d) := by
  have hm : mayRead d p index .ro = false ∨ p = .service := h.imp_left fun h => by simp [Bool.eq_false_iff, mayRead_iff, h]
  simp [describeReq, ha, hk, ho, hm]

theorem describeReq_ok (ha : answers d p = true) (hk : unknownSession d p = false) (ho : lookupObj index sub = some o)
    (hr : MayRead d p index) (hp : p ≠ .service) : describeReq p index sub false d = reply p ST.ok
      (leBytes 8 (ST.ok.toNat + writtenSize o * 2 ^ 32) ++ describeBytes o (256 * index + sub)) (dropHeld p d) := by
  have hm : mayRead d p index .ro = true := mayRead_iff.2 ⟨by decide, hr⟩
  simp [describeReq, ha, hk, ho, hm, hp]

/-- The type codes of R565 and the access codes of R10 in a DESCRIBE reply; the types up to 6 are the scalars. -/
theorem typeCodes_code : ∀ t ∈ Claims.typeCodes, t.1.code = t.2 ∧ (t.1.scalar = true ↔ t.2 ≤ 6) := by decide
theorem accessCodes_code : ∀ a ∈ Claims.accessCodes, a.1.code = a.2 := by decide

end Describe

section Subscribe
variable {p : Path} {sev : Nat} {reserved : Bool} {d : Dev}

/-- A session with its lowest severity notified (R542). -/
def subscribed (sev : Nat) (x : Session) : Session := { x with notices := if sev = 15 then none else some sev }

/-- The device with other sessions. -/
def setSessions (m : Map Session) (d : Dev) : Dev := { d with hv := { d.hv with sessions := m } }

theorem setSessions_untouched {d d' : Dev} (h : Untouched d d') (m : Map Session) : Untouched d (setSessions m d') := by
  rw [Untouched, setSessions, h]

theorem subscribeReq_invalid (ha : answers d p = true) (hk : unknownSession d p = false) (h : reserved = true ∨ 16 ≤ sev) :
    subscribeReq p sev reserved d = answer p ST.invalid 0 (dropHeld p d) := by
  simp [subscribeReq, ha, hk, h]

theorem subscribeReq_access (ha : answers d p = true) (hk : unknownSession d p = false) (h : sev < 16)
    (hn : mfind d.hv.sessions (pathSession p) = none) :
    subscribeReq p sev false d = answer p ST.access 0 (dropHeld p d) := by
  have hn' : mfind (dropHeld p d).hv.sessions (pathSession p) = none := hn
  simp [subscribeReq, ha, hk, Nat.not_le.2 h, hn']

theorem subscribeReq_ok {x : Session} (ha : answers d p = true) (hk : unknownSession d p = false) (h : sev < 16)
    (hx : mfind d.hv.sessions (pathSession p) = some x) :
    subscribeReq p sev false d = answer p ST.ok 0
      (setSessions (mset d.hv.sessions (pathSession p) (subscribed sev x)) (dropHeld p d)) := by
  have hx' : mfind (dropHeld p d).hv.sessions (pathSession p) = some x := hx
  simp only [subscribeReq, ha, hk, Nat.not_le.2 h, hx']
  rfl

end Subscribe

/-! ## READ, DESCRIBE and SUBSCRIBE as commands (R545-R548) -/

section ReadClauses
variable {p : Path} {index sub offset count : Nat} {s : State} {o : ObjDef}

theorem read_scalar (hc : Calm s) (ha : answers s.m p = true) (hk : unknownSession s.m p = false)
    (hq : Claims.Readable index sub) (hr : MayRead s.m p index) (ho : objDef (256 * index + sub) = some o) (hn : count ≤ 16384)
    (b : Bytes) (hb : b = leBytes o.type.bytes (scalarNow p s.log s.m (256 * index + sub))) :
    (offset + count ≤ b.length → Completes (.read p index sub offset count false) s (fun d => d.hv.replyStatus = ST.ok ∧
      d.hv.reply = Claims.Bytes_ b.length offset ((b.drop offset).take (if count = 0 then b.length - offset else count)) ∧
      Untouched s.m d)) ∧
    (b.length < offset + count → Turned (.read p index sub offset count false) s ST.length) := by
  obtain ⟨hsub, -, -, o', ho', hs, hw⟩ := hq
  obtain rfl : o = o' := Option.some.inj (ho.symm.trans ho')
  have hobj : objNow p s.log (dropHeld p s.m) o (256 * index + sub) = b := by rw [objNow_dropHeld, objNow_scalar ho hs, hb]
  have hfresh := readReq_fresh (l := s.log) (offset := offset) ha hk hn ((lookupObj_of_pos hsub).trans ho) hw hr (.inl hs)
  have hnb := scalar_not_builtOnRead ho hs
  refine ⟨fun hfit => ?_, fun hlong => ?_⟩
  · rw [readFresh_plain hnb (hobj ▸ hfit), if_pos (.inl hs), hobj, deliver_eq] at hfresh
    refine completes_onDev hc rfl hfresh (reply_seq ..)
      ⟨reply_status .., ?_, untouched_reply (dropHeld_untouched p s.m) _⟩
    have hlen : b.length - offset ≤ 16384 := by
      have : b.length ≤ 8 := by rw [hb, leBytes_length]; cases o.type <;> decide
      omega
    rw [reply_bytes, Nat.min_eq_right hlen]
  · rw [readFresh_tooLong hnb (hobj ▸ hlong)] at hfresh
    exact turned_answer hc rfl hfresh

theorem scalarNow_shown (p : Path) (s : State) : ∀ x ∈ Claims.shown p s, scalarNow p s.log s.m x.1 = x.2 := by
  simp only [Claims.shown, List.forall_mem_cons, List.not_mem_nil, false_imp_iff, implies_true, and_true]
  exact ⟨rfl, rfl, rfl, rfl, rfl, rfl, rfl⟩

section Snapshots
variable (hc : Calm s) (ha : answers s.m p = true) (hk : unknownSession s.m p = false) (ho : lookupObj index sub = some o)
  (hw : o.access ≠ .wo) (hr : MayRead s.m p index) (hn : count ≤ 16384)
include hc ha hk ho hw hr hn

/-- A read past OFFSET 0 of an object built on reading, with no snapshot, is out of state (R541; log entry 93). -/
theorem read_withoutSnapshot (hoff : offset ≠ 0) (hb : 256 * index + sub ∈ builtOnRead)
    (hsnap : snapOf s.m (clientOf p) (256 * index + sub) = none) (hkey : 256 * index + sub < 2 ^ 28) :
    OutOfState (.read p index sub offset count false) s (256 * index + sub) := by
  have hf := readReq_fresh (l := s.log) (offset := offset) ha hk hn ho hw hr (.inr (.inr hsnap))
  rw [readFresh_built hb hoff] at hf
  exact outOfState_refuseState hc rfl hf hkey

variable (hs : o.type.scalar = false)
include hs

/-- A read from OFFSET 0 takes the snapshot and delivers from it (R548). -/
theorem read_takesSnapshot (hp : pathSession p ≠ 0 ∨ ∃ n, p = .slot n) (hb : 256 * index + sub ∉ builtOnRead)
    (whole : Bytes) (hwhole : objNow p s.log s.m o (256 * index + sub) = whole) (hfit : count ≤ whole.length) :
    Completes (.read p index sub 0 count false) s (fun d => d.hv.replyStatus = ST.ok ∧
      d.hv.reply = Claims.Bytes_ whole.length 0 (whole.take (if count = 0 then min 16384 whole.length else count)) ∧
      snapOf d (clientOf p) (256 * index + sub) = some whole ∧ Untouched s.m d) := by
  have hp := keepsState_iff.2 hp
  have hf := readReq_fresh (l := s.log) (offset := 0) ha hk hn ho hw hr (.inr (.inl rfl))
  rw [readFresh_plain hb (by rw [objNow_dropHeld, hwhole]; omega), objNow_dropHeld, hwhole, if_neg (by simp [hs]), deliver_eq] at hf
  have hu : Untouched s.m (putSnap p (256 * index + sub) whole (dropHeld p s.m)) := by rw [putSnap, if_pos hp]; rfl
  refine completes_onDev hc rfl hf ?_ ⟨reply_status .., reply_bytes .., ?_, untouched_reply hu _⟩
  · rw [reply_seq, hu]
  · rw [snapOf, reply_snaps]
    exact snapOf_putSnap hp whole

/-- A read past OFFSET 0 goes on from the snapshot (R548). -/
theorem read_continues {b : Bytes} (hoff : offset ≠ 0) (hb : snapOf s.m (clientOf p) (256 * index + sub) = some b)
    (hfit : offset + count ≤ b.length) : Completes (.read p index sub offset count false) s (fun d =>
      d.hv.replyStatus = ST.ok ∧ d.hv.snaps = s.m.hv.snaps ∧ Untouched s.m d ∧
      d.hv.reply = Claims.Bytes_ b.length offset
        ((b.drop offset).take (if count = 0 then min 16384 (b.length - offset) else count))) := by
  have hf := readReq_held (l := s.log) ha hk hn ho hw hr hs hoff hb hfit
  rw [deliver_eq] at hf
  exact completes_onDev hc rfl hf (reply_seq ..) ⟨reply_status .., reply_snaps ..,
    untouched_reply (dropStage_untouched p s.m) _, reply_bytes ..⟩

end Snapshots

theorem describe_row (hc : Calm s) (ha : answers s.m p = true) (hk : unknownSession s.m p = false) {t : ObjType × Nat}
    (ht : t ∈ Claims.typeCodes) {a : Access × Nat} (hacc : a ∈ Claims.accessCodes) (ho : lookupObj index sub = some o)
    (hot : o.type = t.1) (hoa : o.access = a.1) (hr : MayRead s.m p index) (hp : p ≠ .service) :
    Completes (.describe p index sub false) s (fun d => d.hv.replyStatus = ST.ok ∧ Untouched s.m d ∧
      d.hv.reply = leBytes 8 ((if t.2 ≤ 6 then o.type.bytes else o.size1) * 2 ^ 32) ++ (leBytes 8 (t.2 + a.2 * 2 ^ 8) ++
        leBytes 8 (if t.2 ≤ 6 then o.dflt else 0) ++ (Config.unitText (256 * index + sub)).take 256)) := by
  obtain ⟨hcode, hscalar⟩ := typeCodes_code t ht
  have hacode := accessCodes_code a hacc
  refine completes_onDev hc rfl (describeReq_ok ha hk ho hr hp) (reply_seq ..)
    ⟨reply_status .., untouched_reply (dropHeld_untouched p s.m) _, ?_⟩
  simp only [reply_bytes, describeBytes, writtenSize, hot, hoa, hcode, hacode, hscalar]
  simp [ST.ok]

theorem subscribe_ok {sev : Nat} {x : Session} (hc : Calm s) (ha : answers s.m p = true) (hk : unknownSession s.m p = false)
    (h : sev < 16) (hx : mfind s.m.hv.sessions (pathSession p) = some x) :
    Completes (.subscribe p sev false) s (fun d => d.hv.replyStatus = ST.ok ∧ Untouched s.m d ∧
      ∃ y, mfind d.hv.sessions (pathSession p) = some y ∧ y.notices = (if sev = 15 then none else some sev) ∧
        y.keyIn = x.keyIn ∧ y.keyOut = x.keyOut) := by
  refine completes_onDev hc rfl (subscribeReq_ok ha hk h hx) (reply_seq ..) ⟨reply_status .., ?_, ?_⟩
  · exact untouched_reply (setSessions_untouched (dropHeld_untouched p s.m) _) _
  · rw [answer, mfind_reply_sessions, if_pos rfl, setSessions, mfind_mset, if_pos rfl]
    exact ⟨_, rfl, rfl, rfl, rfl⟩

end ReadClauses

/-- Settles O53: each request answers one reply after the checks in R546's order, and a reply touches only Hivan's own state and what
is sent. The refusal of a READ past OFFSET 0 with no snapshot is R541's for LogReadData and log entry 93's for TraceData and
AttestReport. -/
theorem readsAndDescriptions : Obligations.ReadsAndDescriptions := by
  refine ⟨fun p index sub offset count s hc ha hk => ⟨?_, ?_, ?_, ?_, ?_, scalarNow_shown p s, ?_, ?_, ?_, ?_, ?_⟩,
    fun p sev s hc ha hk => ⟨?_, ?_, ?_, ?_⟩⟩
  · exact fun hn => turned_answer hc rfl (readReq_invalid ha hk (.inr hn))
  · exact turned_answer hc rfl (readReq_invalid ha hk (.inl rfl))
  · exact fun hn ho => turned_answer hc rfl (readReq_noObject ha hk hn ho)
  · exact fun o hn ho hr => turned_answer hc rfl (readReq_access ha hk hn ho hr)
  · exact fun o hq hr ho hn => read_scalar hc ha hk hq hr ho hn _ rfl
  · intro o hsub ho hs hw hr hn hp
    have hl := (lookupObj_of_pos hsub).trans ho
    refine ⟨fun hoff hb hfit => ?_, fun b hoff hb hfit => ?_, fun hoff hb hsnap => ?_⟩
    · subst hoff
      exact read_takesSnapshot hc ha hk hl hw hr hn hs hp hb _ rfl hfit
    · exact read_continues hc ha hk hl hw hr hn hs hoff hb hfit
    · exact read_withoutSnapshot hc ha hk hl hw hr hn hoff hb hsnap (objDef_key_lt ho)
  · exact turned_answer hc rfl (describeReq_invalid ha hk)
  · exact fun ho => turned_answer hc rfl (describeReq_noObject ha hk ho)
  · exact fun o ho h => turned_answer hc rfl (describeReq_access ha hk ho h)
  · exact fun o t ht a hacc ho hot hoa hr hp => describe_row hc ha hk ht hacc ho hot hoa hr hp
  · exact fun h => turned_answer hc rfl (subscribeReq_invalid ha hk (.inr h))
  · exact turned_answer hc rfl (subscribeReq_invalid ha hk (.inl rfl))
  · exact fun h hn => turned_answer hc rfl (subscribeReq_access ha hk h hn)
  · exact fun x h hx => subscribe_ok hc ha hk h hx

end Sys2Proof.Machine
end

section
/-!
SUPPORT. Writes of objects (R546, R566): the checks in their order, scalars that only hold what is written, and DOMAINs.
-/

namespace Sys2Proof.Machine

open Claims (Untouched Turned OutOfState ObjectsOnly Permitted Accepted)

/-! ## What an accepted value does to the installation record (R575) -/

section Keep
variable {key : Nat} {d : Dev}

theorem keepInstalled_of_not_mem (h : key ∉ installationKeys) : keepInstalled key d = d := by simp [keepInstalled, h]

theorem keepInstalled_of_unsealed (h : d.sec.sealKey = none) : keepInstalled key d = d := by simp [keepInstalled, h]

theorem keepInstalled_scalar (h : key ∈ installationKeys) (hs : d.sec.sealKey ≠ none) (hb : rdBytes d key = none) :
    keepInstalled key d = { d with sec := { d.sec with installSealed := true }, installed := mset d.installed key (rd d key) } := by
  have hb' : rdBytes { d with sec := { d.sec with installSealed := true } } key = none := hb
  simp only [keepInstalled, List.contains_iff_mem.2 h, Option.isNone_eq_false_iff.2 (Option.isSome_iff_ne_none.2 hs), hb']
  rfl

/-- The record and its seal are all that keeping a value changes. -/
theorem keepInstalled_frame (key : Nat) (d : Dev) : keepInstalled key d =
    { d with sec := (keepInstalled key d).sec, installed := (keepInstalled key d).installed,
             installedBytes := (keepInstalled key d).installedBytes } := by
  unfold keepInstalled
  split
  · rfl
  · dsimp only
    split <;> rfl

@[simp] theorem keepInstalled_od (key : Nat) (d : Dev) : (keepInstalled key d).od = d.od := by rw [keepInstalled_frame]
@[simp] theorem keepInstalled_odBytes (key : Nat) (d : Dev) : (keepInstalled key d).odBytes = d.odBytes := by rw [keepInstalled_frame]
@[simp] theorem keepInstalled_hv (key : Nat) (d : Dev) : (keepInstalled key d).hv = d.hv := by rw [keepInstalled_frame]
@[simp] theorem keepInstalled_seq (key : Nat) (d : Dev) : (keepInstalled key d).seq = d.seq := by rw [keepInstalled_frame]
@[simp] theorem rd_keepInstalled (key k : Nat) (d : Dev) : rd (keepInstalled key d) k = rd d k := by simp [rd]
@[simp] theorem rdBytes_keepInstalled (key k : Nat) (d : Dev) : rdBytes (keepInstalled key d) k = rdBytes d k := by simp [rdBytes]

end Keep

theorem rdBytes_wrBytes (k j : Nat) (b : Bytes) (d : Dev) : rdBytes (wrBytes k b d) j = if k = j then some b else rdBytes d j :=
  mfind_mset

theorem rdFull_of_rdBytes {d : Dev} {key : Nat} {b : Bytes} (h : rdBytes d key = some b) : rdFull d key = b := by simp [rdFull, h]

/-! ## Writes of objects: the checks in R546's order -/

section RunWrite
variable {key size : Nat} {acc : Access} {counter : Bool} {p : Path} {bad : Status} {unit : Dev → Nat} {op : WriteOp} {d d' : Dev}
  (ha : answers d p = true) (hk : unknownSession d p = false)
include ha hk

theorem runWrite_access (hm : mayWrite d p acc = false) :
    runWrite key size acc counter p bad unit op d = answer p ST.access size (dropHeld p d) := by
  simp [runWrite, ha, hk, hm]

theorem runWrite_bad (hm : mayWrite d p acc = true) (hb : bad ≠ ST.ok) :
    runWrite key size acc counter p bad unit op d = answer p bad size (dropHeld p d) := by
  simp [runWrite, ha, hk, hm, hb]

/-- The object itself refuses the value. -/
theorem runWrite_invalid (hm : mayWrite d p acc = true) (hop : op (dropHeld p d) = (ST.invalid, dropHeld p d)) :
    runWrite key size acc counter p ST.ok unit op d = answer p ST.invalid size (dropHeld p d) := by
  have hi : ST.invalid ≠ ST.ok ∧ ST.invalid ≠ ST.state := by decide
  simp [runWrite, ha, hk, hm, hop, hi]

theorem runWrite_done (hm : mayWrite d p acc = true) (hl : lockedOut d key acc p = false)
    (ho : ownerStatus d key counter = ST.ok) (hop : op (dropHeld p d) = (ST.ok, d')) :
    runWrite key size acc counter p ST.ok unit op d = answer p ST.ok size (keepInstalled key d') := by
  have hi : ST.ok ≠ ST.invalid ∧ ST.ok ≠ ST.length := by decide
  simp [runWrite, ha, hk, hm, hop, hl, ho, hi]

end RunWrite

section WriteObject
variable {p : Path} {index sub offset : Nat} {value : Bytes} {d d' : Dev} {o : ObjDef}

theorem writeObject_noObject (ha : answers d p = true) (hk : unknownSession d p = false) (ho : lookupObj index sub = none) :
    writeObject p index sub offset value d = answer p ST.noObject 0 (dropHeld p d) := by
  simp [writeObject, ha, hk, ho]

/-- A write after which no restart of Hivan is due. -/
theorem writeObject_eq {w : ObjWrite} (ho : lookupObj index sub = some o) (hw : decodeWrite p o (256 * index + sub) offset value = w)
    (hr : runWrite (256 * index + sub) (writtenSize o) o.access o.counter p w.bad w.unit w.op d = d')
    (hd : d'.hv.update.due = false) : writeObject p index sub offset value d = d' := by
  simp only [writeObject, ho, hw, hr, restartIfDue, hd]
  rfl

section Permitted
variable {key : Nat} {w : ObjWrite} (hkey : 256 * index + sub = key) (hp : Permitted d p key o.access) (hdue : d.hv.update.due = false)
  (ho : lookupObj index sub = some o) (hw : decodeWrite p o key offset value = w)
include hkey hp hdue ho hw

theorem writeObject_bad (hb : w.bad ≠ ST.ok) :
    writeObject p index sub offset value d = answer p w.bad (writtenSize o) (dropHeld p d) := by
  subst hkey
  refine writeObject_eq ho hw (runWrite_bad hp.answers hp.known hp.right hb) ?_
  rw [answer, reply_update]
  exact hdue

theorem writeObject_invalid (hb : w.bad = ST.ok) (hop : w.op (dropHeld p d) = (ST.invalid, dropHeld p d)) :
    writeObject p index sub offset value d = answer p ST.invalid (writtenSize o) (dropHeld p d) := by
  subst hkey
  refine writeObject_eq ho hw (by rw [hb]; exact runWrite_invalid hp.answers hp.known hp.right hop) ?_
  rw [answer, reply_update]
  exact hdue

theorem writeObject_done (hown : ownerStatus d key o.counter = ST.ok) (hb : w.bad = ST.ok)
    (hop : w.op (dropHeld p d) = (ST.ok, d')) (hd : d'.hv = (dropHeld p d).hv) :
    writeObject p index sub offset value d = answer p ST.ok (writtenSize o) (keepInstalled key d') := by
  subst hkey
  refine writeObject_eq ho hw (by rw [hb]; exact runWrite_done hp.answers hp.known hp.right hp.unlocked hown hop) ?_
  rw [answer, reply_update, keepInstalled_hv, hd]
  exact hdue

end Permitted

theorem mayWrite_readOnly (h : o.access = .ro ∨ o.access = .const) : mayWrite d p o.access = false := by
  rcases h with h | h <;> rw [h] <;> rfl

end WriteObject

/-! ## Scalars that only hold what is written -/

/-- The command objects. -/
def commandKeys : List Nat := [OD.contextCommand, OD.fttCommand, OD.localRegionCommand, OD.stepCommand, OD.groupCommand,
  OD.checkpointCommand, OD.faultCommand, OD.updateCommand, OD.tamperCommand]

/-- The limits that are checked against one another (R576). -/
def limitKeys : List Nat := [OD.replayRetention, OD.txTimeout, OD.replayBudget, OD.retryLimit, OD.antlerWaitLimit, OD.engineWatchdog,
  OD.engineResetEscalation, OD.clusterMoveEscalation, OD.kickTurnEscalation, OD.gateWaitLimit]

/-- The scalars whose write does or asks more than to lie in its range. -/
def specialKeys : List Nat := commandKeys ++ limitKeys ++ topologyKeys ++ jobKeys ++ [OD.supplySetpoint, OD.logReadCursor,
  OD.deviceNumber, OD.tamperPolicy, OD.tamperSensorEnable, OD.tandemStoreBase, OD.checkShift]

section Plain
variable {key : Nat} (h : key ∉ specialKeys)
include h

theorem commandOf_plain (p : Path) (ws : List Nat) : commandOf p key ws = none := by
  simp only [specialKeys, commandKeys, List.mem_append, List.mem_cons, List.not_mem_nil, or_false, not_or] at h
  simp [commandOf, h]

theorem valueOk_plain (v : Nat) : valueOk key v = true := by
  simp only [specialKeys, List.mem_append, List.mem_cons, List.not_mem_nil, or_false, not_or] at h
  simp [valueOk, h]

theorem scalarOp_plain (p : Path) (v : Nat) (d : Dev) : scalarOp p key v d = (ST.ok, wr key v d) := by
  simp only [specialKeys, List.mem_append, not_or] at h
  obtain ⟨⟨⟨⟨-, hl⟩, ht⟩, hj⟩, hs⟩ := h
  have hlimit : limitOk key (wr key v d) = true := by
    simp only [limitKeys, List.mem_cons, List.not_mem_nil, or_false, not_or] at hl
    simp [limitOk, hl]
  simp only [List.mem_cons, List.not_mem_nil, or_false, not_or] at hs
  simp [scalarOp, ht, hj, hs, hlimit]

end Plain

theorem leNat_leBytes_of_lt {n v : Nat} (h : v < 256 ^ n) : leNat (leBytes n v) = v := by rw [leNat_leBytes, Nat.mod_eq_of_lt h]

theorem inRange_counter {o : ObjDef} (h : o.counter = true) (v : Nat) : inRange o v = (v == 0) := by simp [inRange, h]

theorem inRange_integer {o : ObjDef} (h : o.counter = false) (ht : o.type ≠ .f32) (v : Nat) :
    inRange o v = decide (o.vmin ≤ v ∧ v ≤ o.vmax) := by
  cases hty : o.type <;> simp_all [inRange]

section DecodeWrite
variable {p : Path} {key : Nat} {o : ObjDef} {value : Bytes}

theorem decodeWrite_plain (h : key ∉ specialKeys) (hs : o.type.scalar = true) (offset : Nat) :
    decodeWrite p o key offset value = scalarWrite p o key offset value := by
  unfold decodeWrite
  cases ht : o.type <;> simp_all [commandOf_plain h, ObjType.scalar]

theorem scalarWrite_op_plain (h : key ∉ specialKeys) (offset : Nat) (d : Dev) :
    (scalarWrite p o key offset value).op d = (ST.ok, wr key (leNat value) d) := scalarOp_plain h p _ d

theorem scalarWrite_ok (h : key ∉ specialKeys) (hl : value.length = o.type.bytes) (hv : inRange o (leNat value) = true) :
    (scalarWrite p o key 0 value).bad = ST.ok := by
  simp [scalarWrite, hl, hv, valueOk_plain h]

theorem scalarWrite_length (hl : o.type.bytes < value.length) : (scalarWrite p o key 0 value).bad = ST.length := by
  simp [scalarWrite, hl]

theorem scalarWrite_invalid (hl : value.length ≤ o.type.bytes) (hv : value.length < o.type.bytes ∨ inRange o (leNat value) = false) :
    (scalarWrite p o key 0 value).bad = ST.invalid := by
  rcases hv with hv | hv
  · simp [scalarWrite, Nat.not_lt.2 hl, Nat.ne_of_lt hv]
  · simp [scalarWrite, Nat.not_lt.2 hl, hv]

end DecodeWrite

/-! ## DOMAINs whose bytes are only kept -/

/-- The DOMAINs whose chapter gives the write its own meaning. -/
def domainKeys : List Nat := [OD.fttBulkInsert, OD.updateData, OD.ownerRecordInstall, OD.attestNonce]

section DomainWrite
variable {p : Path} {key offset : Nat} {o : ObjDef} {value : Bytes} {d : Dev}

theorem decodeWrite_dom_length (ht : o.type = .dom) (hlong : o.size1 < offset + value.length) :
    (decodeWrite p o key offset value).bad = ST.length := by
  simp [decodeWrite, ht, domainWrite, hlong]

section Fits
variable (ht : o.type = .dom) (h : key ∉ domainKeys) (hfit : offset + value.length ≤ o.size1)
include ht h hfit

theorem decodeWrite_dom_open (hz : o.size0 = 0) :
    decodeWrite p o key offset value = { bad := ST.ok, unit := noUnit, op := emptyOrWhole o key offset value } := by
  simp only [domainKeys, List.mem_cons, List.not_mem_nil, or_false, not_or] at h
  simp [decodeWrite, ht, domainWrite, h, Nat.not_lt.2 hfit, hz]

theorem decodeWrite_dom_fixed (hz : o.size0 ≠ 0) :
    decodeWrite p o key offset value = { bad := ST.ok, unit := unitOfKey key, op := patchOp key offset value } := by
  simp only [domainKeys, List.mem_cons, List.not_mem_nil, or_false, not_or] at h
  simp [decodeWrite, ht, domainWrite, h, Nat.not_lt.2 hfit, hz]

end Fits

theorem emptyOrWhole_whole (h : value = [] ∨ value.length = o.size1) : emptyOrWhole o key 0 value d = (ST.ok, wrBytes key value d) := by
  simp [emptyOrWhole, h]

theorem emptyOrWhole_part (h : value ≠ []) (hs : value.length ≠ o.size1) (hold : (rdBytes d key).getD [] = []) :
    emptyOrWhole o key 0 value d = (ST.invalid, d) := by
  simp [emptyOrWhole, h, hs, hold, bufWrite]

/-- A piece inside a buffer replaces its bytes. -/
theorem bufWrite_inside {b : Bytes} (h : offset ≤ b.length) :
    bufWrite b offset value = b.take offset ++ value ++ b.drop (offset + value.length) := by
  rw [bufWrite, Nat.sub_eq_zero_of_le h, List.replicate_zero, List.append_nil]

theorem patchOp_plain (h : key ∉ jobKeys) :
    patchOp key offset value d = (ST.ok, wrBytes key (bufWrite (rdFull d key) offset value) d) := by
  simp [patchOp, h]

end DomainWrite
end Sys2Proof.Machine
end

section
/-!
PROOFS. Writes of scalars, counters, read-only objects and operator keys.
-/

namespace Sys2Proof.Machine

open Claims (Untouched Turned OutOfState ObjectsOnly Permitted Accepted)

/-! ## Scalars and counters -/

theorem ownerStatus_counter (d : Dev) (key : Nat) : ownerStatus d key true = ST.ok := by simp [ownerStatus]

section PlainWrite
variable {p : Path} {index sub key : Nat} {value : Bytes} {s : State} {o : ObjDef}
  (hkey : 256 * index + sub = key) (hdue : s.m.hv.update.due = false) (h : key ∉ specialKeys) (ho : lookupObj index sub = some o)
  (hs : o.type.scalar = true) (hp : Permitted s.m p key o.access)
include hkey hdue h ho hs hp

/-- An accepted value is kept, and enters the installation record where that has the object (R566, R575). -/
theorem writeObject_plain_ok (hown : ownerStatus s.m key o.counter = ST.ok) (hl : value.length = o.type.bytes)
    (hv : inRange o (leNat value) = true) : writeObject p index sub 0 value s.m =
      answer p ST.ok (writtenSize o) (keepInstalled key (wr key (leNat value) (dropHeld p s.m))) :=
  writeObject_done hkey hp hdue ho (decodeWrite_plain h hs 0) hown (scalarWrite_ok h hl hv)
    (scalarWrite_op_plain h 0 _) rfl

theorem plainWrite_ok (hc : Calm s) (hi : key ∉ installationKeys) (hown : ownerStatus s.m key o.counter = ST.ok)
    (hl : value.length = o.type.bytes) (hv : inRange o (leNat value) = true) :
    Completes (.registerWrite p index sub value) s (fun d =>
      d.hv.replyStatus = ST.ok ∧ rd d key = leNat value ∧ ObjectsOnly [key] s.m d) := by
  have hw := writeObject_plain_ok hkey hdue h ho hs hp hown hl hv
  rw [keepInstalled_of_not_mem hi] at hw
  refine completes_onDev hc rfl hw (reply_seq ..) ⟨reply_status .., ?_, ?_, fun k hk => ?_⟩
  · rw [answer, rd_reply, rd_wr_same]
  · rw [answer, reply_frame]
    rfl
  · rw [answer, rd_reply, rd_wr_other _ _ (by simpa [eq_comm] using hk), rd_dropHeld]

theorem plainWrite_bad (hc : Calm s) {st : Status} (hst : st ≠ ST.ok) (hbad : (scalarWrite p o key 0 value).bad = st) :
    Turned (.registerWrite p index sub value) s st := by
  subst hbad
  exact turned_answer hc rfl (writeObject_bad hkey hp hdue ho (decodeWrite_plain h hs 0) hst)

end PlainWrite

/-- The dictionary has the rows of the statement, each plain and outside the installation record. -/
theorem scalarRows_rows : ∀ x ∈ Claims.scalarRows, x.1 ∉ specialKeys ∧ x.1 ∉ installationKeys ∧ 1 ≤ x.1 % 256 ∧
    x.2.2.2.2 < 256 ^ x.2.1 ∧
    (objDef x.1).any (fun o => o.type.scalar && decide (o.type ≠ .f32) && decide (o.type.bytes = x.2.1) && decide (o.access = x.2.2.1) &&
      decide (o.vmin = x.2.2.2.1) && decide (o.vmax = x.2.2.2.2) && !o.counter) = true := by decide +kernel

theorem counterKeys_rows : ∀ key ∈ Claims.counterKeys, key ∉ specialKeys ∧ key ∉ installationKeys ∧ 1 ≤ key % 256 ∧
    (objDef key).any (fun o => decide (o.type = .u64) && decide (o.access = .rw) && o.counter) = true := by decide +kernel

/-- Scalars in and out of range, and values of another length (R566). -/
theorem writes_scalarRow {p : Path} {s : State} (hc : Calm s) (hdue : s.m.hv.update.due = false)
    {key size lo hi : Nat} {acc : Access} (hx : (key, size, acc, lo, hi) ∈ Claims.scalarRows) (v : Nat) :
    (Accepted s.m p key acc → lo ≤ v → v ≤ hi → Completes (.registerWrite p (key / 256) (key % 256) (leBytes size v)) s (fun d =>
      d.hv.replyStatus = ST.ok ∧ rd d key = v ∧ ObjectsOnly [key] s.m d)) ∧
    (Permitted s.m p key acc → (v < lo ∨ hi < v) → v < 256 ^ size →
      Turned (.registerWrite p (key / 256) (key % 256) (leBytes size v)) s ST.invalid) ∧
    (∀ b : Bytes, Permitted s.m p key acc → (b.length < size → Turned (.registerWrite p (key / 256) (key % 256) b) s ST.invalid) ∧
      (size < b.length → Turned (.registerWrite p (key / 256) (key % 256) b) s ST.length)) := by
  obtain ⟨hplain, hinst, hsub, hhi, hrow⟩ := scalarRows_rows _ hx
  obtain ⟨o, ho, hrow⟩ := (Option.any_eq_true _ _).1 hrow
  have hl := lookupObj_of_key hsub ho
  simp only [Bool.and_eq_true, decide_eq_true_eq, Bool.not_eq_true'] at hrow
  obtain ⟨⟨⟨⟨⟨⟨hs, hf⟩, rfl⟩, rfl⟩, rfl⟩, rfl⟩, hcount⟩ := hrow
  have hlen := leBytes_length o.type.bytes v
  refine ⟨fun hp hlo hle => ?_, fun hp hout hlt => ?_, fun b hp => ⟨fun hshort => ?_, fun hlong => ?_⟩⟩
  · have hv : leNat (leBytes o.type.bytes v) = v := leNat_leBytes_of_lt (hle.trans_lt hhi)
    have hr : inRange o (leNat (leBytes o.type.bytes v)) = true := by
      rw [hv, inRange_integer hcount hf]
      exact decide_eq_true ⟨hlo, hle⟩
    have := plainWrite_ok (Nat.div_add_mod key 256) hdue hplain hl hs hp.toPermitted hc hinst (hcount ▸ hp.owner) hlen hr
    rwa [hv] at this
  · refine plainWrite_bad (Nat.div_add_mod key 256) hdue hplain hl hs hp hc (by decide) (scalarWrite_invalid hlen.le (.inr ?_))
    rw [leNat_leBytes_of_lt hlt, inRange_integer hcount hf]
    exact decide_eq_false (by omega)
  · exact plainWrite_bad (Nat.div_add_mod key 256) hdue hplain hl hs hp hc (by decide) (scalarWrite_invalid hshort.le (.inl hshort))
  · exact plainWrite_bad (Nat.div_add_mod key 256) hdue hplain hl hs hp hc (by decide) (scalarWrite_length hlong)

/-- A counter takes a write of zero alone, whatever its owner's state (R566). -/
theorem writes_counter {p : Path} {s : State} (hc : Calm s) (hdue : s.m.hv.update.due = false) {key : Nat}
    (hx : key ∈ Claims.counterKeys) (hp : Permitted s.m p key .rw) {v : Nat} (hlt : v < 2 ^ 64) :
    (v = 0 → Completes (.registerWrite p (key / 256) (key % 256) (leBytes 8 v)) s (fun d =>
      d.hv.replyStatus = ST.ok ∧ rd d key = 0 ∧ ObjectsOnly [key] s.m d)) ∧
    (v ≠ 0 → Turned (.registerWrite p (key / 256) (key % 256) (leBytes 8 v)) s ST.invalid) := by
  obtain ⟨hplain, hinst, hsub, hrow⟩ := counterKeys_rows key hx
  obtain ⟨o, ho, hrow⟩ := (Option.any_eq_true _ _).1 hrow
  have hl := lookupObj_of_key hsub ho
  simp only [Bool.and_eq_true, decide_eq_true_eq] at hrow
  obtain ⟨⟨ht, hacc⟩, hcount⟩ := hrow
  have hs : o.type.scalar = true := by rw [ht]; rfl
  have hlen : (leBytes 8 v).length = o.type.bytes := by rw [leBytes_length, ht]; rfl
  have hv : leNat (leBytes 8 v) = v := leNat_leBytes_of_lt hlt
  have hr : inRange o (leNat (leBytes 8 v)) = (v == 0) := by rw [hv, inRange_counter hcount]
  rw [← hacc] at hp
  refine ⟨fun hz => ?_, fun hnz => ?_⟩
  · subst hz
    exact plainWrite_ok (Nat.div_add_mod key 256) hdue hplain hl hs hp hc hinst (hcount ▸ ownerStatus_counter s.m key) hlen (hr.trans rfl)
  · exact plainWrite_bad (Nat.div_add_mod key 256) hdue hplain hl hs hp hc (by decide)
      (scalarWrite_invalid hlen.le (.inr (hr.trans (beq_false_of_ne hnz))))

/-! ## Objects that no path writes, and DOMAINs -/

section Objects
variable {p : Path} {index sub : Nat} {v : Bytes} {s : State} (hc : Calm s) (ha : answers s.m p = true)
  (hk : unknownSession s.m p = false)
include hc ha hk

theorem registerWrite_noObject (ho : lookupObj index sub = none) : Turned (.registerWrite p index sub v) s ST.noObject :=
  turned_answer hc rfl (writeObject_noObject ha hk ho)

theorem registerWrite_access {o : ObjDef} (hdue : s.m.hv.update.due = false) (ho : lookupObj index sub = some o)
    (hm : mayWrite s.m p o.access = false) : Turned (.registerWrite p index sub v) s ST.access :=
  turned_answer hc rfl (writeObject_eq ho rfl (runWrite_access ha hk hm) (by rw [answer, reply_update]; exact hdue))

end Objects

/-- The rows of the operator slots' keys: empty, or 2,592 bytes (R555, R566). -/
theorem operatorKey_rows : ∀ slot < 16, 256 * 0x6011 + (slot + 1) ∉ domainKeys ∧ 256 * 0x6011 + (slot + 1) ∉ installationKeys ∧
    (objDef (256 * 0x6011 + (slot + 1))).any (fun o => decide (o.type = .dom) && decide (o.access = .rws) && decide (o.size0 = 0) &&
      decide (o.size1 = 2592) && !o.counter) = true := by decide +kernel

/-- An operator slot's key is written empty or whole; that a part of a key is ST_INVALID is log entry 32. -/
theorem writes_operatorKey {p : Path} {s : State} (hc : Calm s) (hdue : s.m.hv.update.due = false) {slot : Nat} (hslot : slot < 16)
    (hp : Accepted s.m p (OD.operatorKey + slot) .rws) (v : Bytes) :
    ((v = [] ∨ v.length = 2592) → Completes (.registerWrite p 0x6011 (slot + 1) v) s (fun d => d.hv.replyStatus = ST.ok ∧
      rdBytes d (OD.operatorKey + slot) = some v ∧ (∀ k, k ≠ OD.operatorKey + slot → rdBytes d k = rdBytes s.m k) ∧ d.od = s.m.od ∧
      (∀ n, (mfind d.hv.sessions n).isSome = (mfind s.m.hv.sessions n).isSome))) ∧
    (v ≠ [] → v.length < 2592 → (rdBytes s.m (OD.operatorKey + slot)).getD [] = [] →
      Turned (.registerWrite p 0x6011 (slot + 1) v) s ST.invalid) ∧
    (2592 < v.length → Turned (.registerWrite p 0x6011 (slot + 1) v) s ST.length) := by
  obtain ⟨hdom, hinst, hrow⟩ := operatorKey_rows slot hslot
  have hkey : 256 * 0x6011 + (slot + 1) = OD.operatorKey + slot := by rw [show OD.operatorKey = 256 * 0x6011 + 1 from rfl]; omega
  obtain ⟨o, ho, hrow⟩ := (Option.any_eq_true _ _).1 hrow
  simp only [Bool.and_eq_true, decide_eq_true_eq, Bool.not_eq_true'] at hrow
  obtain ⟨⟨⟨⟨ht, hacc⟩, hz⟩, hsize⟩, hcount⟩ := hrow
  rw [← lookupObj_of_pos (by omega)] at ho
  rw [hkey] at hdom hinst
  rw [← hacc] at hp
  rw [← hsize]
  refine ⟨fun hv => ?_, fun hne hlt hold => ?_, fun hlong => ?_⟩
  · have hfit : 0 + v.length ≤ o.size1 := by rcases hv with rfl | hv <;> simp [*]
    have hw := writeObject_done hkey hp.toPermitted hdue ho (decodeWrite_dom_open ht hdom hfit hz) (hcount ▸ hp.owner) rfl
      (emptyOrWhole_whole hv) rfl
    rw [keepInstalled_of_not_mem hinst] at hw
    refine completes_onDev hc rfl hw (reply_seq ..) ⟨reply_status .., ?_, fun k hk => ?_, reply_od ..,
      fun n => reply_sessions_open ..⟩
    · rw [answer, rdBytes_reply, rdBytes_wrBytes, if_pos rfl]
    · rw [answer, rdBytes_reply, rdBytes_wrBytes, if_neg hk.symm]
      rfl
  · exact turned_answer hc rfl (writeObject_invalid hkey hp.toPermitted hdue ho (decodeWrite_dom_open ht hdom (by omega) hz) rfl
      (emptyOrWhole_part hne (by omega) hold))
  · have hbad : (decodeWrite p o (OD.operatorKey + slot) 0 v).bad = ST.length := decodeWrite_dom_length ht (by omega)
    have hw := writeObject_bad hkey hp.toPermitted hdue ho rfl (by rw [hbad]; decide)
    rw [hbad] at hw
    exact turned_answer hc rfl hw

end Sys2Proof.Machine
end

section
/-!
PROOFS. Staged values, the installation objects, and the statement about writes of objects.
-/

namespace Sys2Proof.Machine

open Claims (Untouched Turned OutOfState ObjectsOnly Permitted Accepted)

/-! ## WRITE: staged values (R545, R548) -/

section WriteReq
variable {p : Path} {index sub offset : Nat} {more : Bool} {value : Bytes} {d : Dev} {o : ObjDef}
  (ha : answers d p = true) (hk : unknownSession d p = false)
include ha hk

theorem writeReq_reserved : writeReq p index sub offset more true value d = answer p ST.invalid 0 (dropHeld p d) := by
  simp [writeReq, ha, hk]

variable (hn : value.length ≤ 16384) (ho : lookupObj index sub = some o)
include hn ho

theorem writeReq_more : writeReq p index sub offset true false value d = stagePiece p o (256 * index + sub) offset value d := by
  simp [writeReq, ha, hk, Nat.not_lt.2 hn, ho]

theorem writeReq_last : writeReq p index sub offset false false value d = lastPiece p index sub offset value d := by
  simp [writeReq, ha, hk, Nat.not_lt.2 hn, ho]

end WriteReq

section Stages
variable {p : Path} {index sub key offset : Nat} {value : Bytes} {d : Dev} {o : ObjDef}

/-- A stage with one entry more. -/
def addStage (x : Stage) (d : Dev) : Dev := { d with hv := { d.hv with stages := d.hv.stages ++ [x] } }

theorem addStage_untouched {d d' : Dev} (h : Untouched d d') (x : Stage) : Untouched d (addStage x d') := by
  rw [Untouched, addStage, h]

theorem stageOf_addStage (b : Bytes) : stageOf (addStage ⟨clientOf p, key, b⟩ (dropHeld p d)) (clientOf p) key = some b := by
  simp only [stageOf, addStage, dropHeld]
  rw [find?_filter_append _ (by simp +contextual) (by simp)]
  rfl

theorem stageOf_dropHeld : stageOf (dropHeld p d) (clientOf p) key = none := by
  have hn : (d.hv.stages.filter (fun x => decide (x.client ≠ clientOf p))).find?
      (fun x => decide (x.client = clientOf p) && x.key == key) = none :=
    find?_filter_none _ (by simp +contextual)
  rw [stageOf, dropHeld, hn, Option.map_none]

theorem stageOf_of_stages {d d' : Dev} (h : d'.hv.stages = d.hv.stages) (who : Client) : stageOf d' who key = stageOf d who key := by
  rw [stageOf, h, stageOf]

theorem stagePiece_access (hm : mayWrite d p o.access = false) :
    stagePiece p o key offset value d = answer p ST.access (writtenSize o) (dropHeld p d) := by
  simp [stagePiece, hm]

section Permitted
variable {old : Bytes} (hm : mayWrite d p o.access = true) (hold : (stageOf d (clientOf p) key).getD [] = old)
include hm hold

theorem stagePiece_length (h : 1048576 < old.length + value.length) :
    stagePiece p o key offset value d = answer p ST.length (writtenSize o) (dropHeld p d) := by
  simp [stagePiece, hm, hold, h]

theorem stagePiece_state (hfit : old.length + value.length ≤ 1048576) (h : offset ≠ old.length) :
    stagePiece p o key offset value d = refuseState p key (writtenSize o) (dropHeld p d) := by
  simp [stagePiece, hm, hold, Nat.not_lt.2 hfit, h]

theorem stagePiece_ok (hfit : old.length + value.length ≤ 1048576) (h : offset = old.length) (hp : keepsState p = true) :
    stagePiece p o key offset value d =
      answer p ST.ok (writtenSize o) (addStage ⟨clientOf p, key, old ++ value⟩ (dropHeld p d)) := by
  simp [stagePiece, hm, hold, Nat.not_lt.2 hfit, h, hp, addStage]

end Permitted

theorem lastPiece_unstaged (h : stageOf d (clientOf p) (256 * index + sub) = none) :
    lastPiece p index sub offset value d = writeObject p index sub offset value d := by
  simp [lastPiece, h]

theorem lastPiece_state {b : Bytes} (h : stageOf d (clientOf p) (256 * index + sub) = some b) (hoff : offset ≠ b.length) :
    lastPiece p index sub offset value d = refuseState p (256 * index + sub) 0 (dropHeld p d) := by
  simp [lastPiece, h, hoff]

theorem lastPiece_whole {b : Bytes} (h : stageOf d (clientOf p) (256 * index + sub) = some b) (hoff : offset = b.length)
    (hfit : b.length + value.length ≤ 1048576) :
    lastPiece p index sub offset value d = writeObject p index sub 0 (b ++ value) d := by
  simp [lastPiece, h, hoff, Nat.not_lt.2 hfit]

end Stages

/-- Two commands whose effects on the device agree have one outcome. -/
theorem exec_eq_of_effect {c c' : Instr} {s : State} {f f' : Dev → Dev} (hc : exec c s = onDev f s) (hc' : exec c' s = onDev f' s)
    (h : f s.m = f' s.m) : exec c s = exec c' s := by
  simp only [hc, hc', onDev, h]

section StagedWrites
variable {p : Path} {index sub off : Nat} {v : Bytes} {o : ObjDef} {s : State} (hc : Calm s) (ha : answers s.m p = true)
  (hk : unknownSession s.m p = false)
include hc ha hk

theorem write_reserved : Turned (.write p index sub off false true v) s ST.invalid :=
  turned_answer hc rfl (writeReq_reserved ha hk)

variable (hn : v.length ≤ 16384) (ho : lookupObj index sub = some o)
include hn ho

theorem stage_access (hm : mayWrite s.m p o.access = false) : Turned (.write p index sub off true false v) s ST.access :=
  turned_answer hc rfl ((writeReq_more ha hk hn ho).trans (stagePiece_access hm))

section Pieces
variable {old : Bytes} (hold : (stageOf s.m (clientOf p) (256 * index + sub)).getD [] = old)
include hold

theorem stage_length (hm : mayWrite s.m p o.access = true) (h : 1048576 < old.length + v.length) :
    Turned (.write p index sub off true false v) s ST.length :=
  turned_answer hc rfl ((writeReq_more ha hk hn ho).trans (stagePiece_length hm hold h))

/-- A piece that does not continue the stage is out of state, and the stage ends (R548). -/
theorem stage_state (hm : mayWrite s.m p o.access = true) (hfit : old.length + v.length ≤ 1048576) (hoff : off ≠ old.length)
    (hkey : 256 * index + sub < 2 ^ 28) : OutOfState (.write p index sub off true false v) s (256 * index + sub) ∧
      Completes (.write p index sub off true false v) s (fun d => stageOf d (clientOf p) (256 * index + sub) = none) := by
  have hw := (writeReq_more (offset := off) ha hk hn ho).trans (stagePiece_state hm hold hfit hoff)
  refine ⟨outOfState_refuseState hc rfl hw hkey, completes_onDev hc rfl hw (reply_seq ..) ?_⟩
  exact (stageOf_of_stages (reply_stages ..) _).trans stageOf_dropHeld

theorem stage_ok (hm : mayWrite s.m p o.access = true) (hfit : old.length + v.length ≤ 1048576) (hoff : off = old.length)
    (hp : pathSession p ≠ 0 ∨ ∃ n, p = .slot n) : Completes (.write p index sub off true false v) s (fun d =>
      d.hv.replyStatus = ST.ok ∧ Untouched s.m d ∧ stageOf d (clientOf p) (256 * index + sub) = some (old ++ v)) := by
  have hw := (writeReq_more (offset := off) ha hk hn ho).trans (stagePiece_ok hm hold hfit hoff (keepsState_iff.2 hp))
  refine completes_onDev hc rfl hw (reply_seq ..) ⟨reply_status .., ?_, ?_⟩
  · exact untouched_reply (addStage_untouched (dropHeld_untouched p s.m) _) _
  · exact (stageOf_of_stages (reply_stages ..) _).trans (stageOf_addStage _)

end Pieces

theorem lastPiece_outOfState {b : Bytes} (h : stageOf s.m (clientOf p) (256 * index + sub) = some b) (hoff : off ≠ b.length)
    (hkey : 256 * index + sub < 2 ^ 28) : OutOfState (.write p index sub off false false v) s (256 * index + sub) :=
  outOfState_refuseState hc rfl ((writeReq_last ha hk hn ho).trans (lastPiece_state h hoff)) hkey

end StagedWrites

/-! ## The installation objects (R575) -/

theorem staticAddress_row : OD.staticAddress ∉ domainKeys ∧ OD.staticAddress ∉ jobKeys ∧
    (lookupObj 0x1100 3).any (fun o => decide (o.type = .dom) && decide (o.access = .rws) && decide (o.size0 = 16) &&
      decide (o.size1 = 16) && !o.counter) = true := by decide +kernel

/-- Bytes of a DOMAIN are replaced, the others left (R566). -/
theorem write_staticAddress {p : Path} {s : State} (hc : Calm s) (hdue : s.m.hv.update.due = false)
    (hp : Accepted s.m p OD.staticAddress .rws) (hst : stageOf s.m (clientOf p) OD.staticAddress = none)
    (hlen : (rdFull s.m OD.staticAddress).length = 16) {off : Nat} {v : Bytes} (hfit : off + v.length ≤ 16) :
    Completes (.write p 0x1100 3 off false false v) s (fun d => d.hv.replyStatus = ST.ok ∧ d.od = s.m.od ∧
      rdFull d OD.staticAddress =
        (rdFull s.m OD.staticAddress).take off ++ v ++ (rdFull s.m OD.staticAddress).drop (off + v.length)) := by
  obtain ⟨hdom, hjob, hrow⟩ := staticAddress_row
  obtain ⟨o, ho, hrow⟩ := (Option.any_eq_true _ _).1 hrow
  simp only [Bool.and_eq_true, decide_eq_true_eq, Bool.not_eq_true'] at hrow
  obtain ⟨⟨⟨⟨ht, hacc⟩, hz⟩, hsize⟩, hcount⟩ := hrow
  rw [← hacc] at hp
  have hw := writeObject_done rfl hp.toPermitted hdue ho (decodeWrite_dom_fixed ht hdom (hsize ▸ hfit) (by omega)) (hcount ▸ hp.owner) rfl
    (patchOp_plain hjob) rfl
  have hreq := (writeReq_last (offset := off) hp.answers hp.known (by omega) ho).trans ((lastPiece_unstaged hst).trans hw)
  refine completes_onDev hc rfl hreq (by rw [answer, reply_seq, keepInstalled_seq]; rfl) ⟨reply_status .., ?_, ?_⟩
  · rw [answer, reply_od, keepInstalled_od]
    rfl
  · rw [← bufWrite_inside (by omega)]
    refine rdFull_of_rdBytes ?_
    rw [answer, rdBytes_reply, rdBytes_keepInstalled, rdBytes_wrBytes, if_pos rfl, rdFull_dropHeld]

section InstallationWrite
variable {p : Path} {index sub : Nat} {v : Bytes} {s : State}

theorem exec_installationWrite_cases : exec (.installationWrite p index sub v) s =
    onDev (fun d => if installationKeys.contains (256 * index + sub) then writeObject p index sub 0 v d else d) s := rfl

theorem exec_installationWrite (h : 256 * index + sub ∈ installationKeys) :
    exec (.installationWrite p index sub v) s = onDev (writeObject p index sub 0 v) s := by
  simp only [exec_installationWrite_cases, List.contains_iff_mem.2 h, if_true]

theorem installationWrite_other (hc : Calm s) (h : 256 * index + sub ∉ installationKeys) :
    Becomes (.installationWrite p index sub v) s s.m := by
  have hx : exec (.installationWrite p index sub v) s = onDev id s := by
    rw [exec_installationWrite_cases, Bool.eq_false_iff.2 (mt List.contains_iff_mem.1 h)]
    rfl
  exact hx.trans (onDev_calm hc.holds id hc.reached)

end InstallationWrite

theorem plcaBurst_row : OD.plcaBurst ∉ specialKeys ∧ OD.plcaBurst ∈ installationKeys ∧
    (lookupObj 0x1100 5).any (fun o => decide (o.type = .u8) && decide (o.access = .rw) && decide (o.vmin = 0) &&
      decide (o.vmax = 255) && !o.counter) = true := by decide +kernel

/-- An installation object's value is kept in the installation record where a sealing key can seal it. -/
theorem installationWrite_plcaBurst {p : Path} {s : State} (hc : Calm s) (hdue : s.m.hv.update.due = false)
    (hp : Accepted s.m p OD.plcaBurst .rw) (hb : rdBytes s.m OD.plcaBurst = none) {n : Nat} (hn : n < 256) :
    Completes (.installationWrite p 0x1100 5 (leBytes 1 n)) s (fun d => d.hv.replyStatus = ST.ok ∧ rd d OD.plcaBurst = n ∧
      (∀ k, k ≠ OD.plcaBurst → rd d k = rd s.m k) ∧
      (s.m.sec.sealKey ≠ none → mfind d.installed OD.plcaBurst = some n ∧ d.sec.installSealed = true) ∧
      (s.m.sec.sealKey = none → d.installed = s.m.installed ∧ d.sec = s.m.sec)) := by
  obtain ⟨hplain, hinst, hrow⟩ := plcaBurst_row
  obtain ⟨o, ho, hrow⟩ := (Option.any_eq_true _ _).1 hrow
  simp only [Bool.and_eq_true, decide_eq_true_eq, Bool.not_eq_true'] at hrow
  obtain ⟨⟨⟨⟨ht, hacc⟩, hmin⟩, hmax⟩, hcount⟩ := hrow
  rw [← hacc] at hp
  have hv : leNat (leBytes 1 n) = n := leNat_leBytes_of_lt hn
  have hr : inRange o (leNat (leBytes 1 n)) = true := by
    rw [hv, inRange_integer hcount (by rw [ht]; decide)]
    exact decide_eq_true (by omega)
  have hw := writeObject_plain_ok rfl hdue hplain ho (by rw [ht]; rfl) hp.toPermitted (hcount ▸ hp.owner)
    (by rw [leBytes_length, ht]; rfl) hr
  rw [hv] at hw
  refine completes_onDev hc (exec_installationWrite hinst) hw (by rw [answer, reply_seq, keepInstalled_seq]; rfl)
    ⟨reply_status .., ?_, fun k hk => ?_, fun hseal => ?_, fun hseal => ?_⟩
  · rw [answer, rd_reply, rd_keepInstalled, rd_wr_same]
  · rw [answer, rd_reply, rd_keepInstalled, rd_wr_other _ _ hk.symm, rd_dropHeld]
  · rw [answer, reply_installed, reply_sec, keepInstalled_scalar (d := wr _ n (dropHeld p s.m)) hinst hseal hb, rd_wr_same]
    exact ⟨by rw [mfind_mset, if_pos rfl], rfl⟩
  · rw [answer, reply_installed, reply_sec, keepInstalled_of_unsealed (d := wr _ n (dropHeld p s.m)) hseal]
    exact ⟨rfl, rfl⟩

/-- Settles O54: a write is refused by its rights, then by its encoding, or its value is kept; a staged value is applied by its last
piece as one write. That a part of an operator's key is ST_INVALID is log entry 32. -/
theorem writesOfObjects : Obligations.WritesOfObjects := by
  intro p s hc ha hk hdue
  refine ⟨fun x hx v => writes_scalarRow hc hdue hx v, fun key hx hp v hlt => writes_counter hc hdue hx hp hlt,
    fun index sub v hsub => ⟨fun o ho hacc => ?_, fun ho => ?_⟩, fun v slot hslot hp => writes_operatorKey hc hdue hslot hp v,
    fun off v hp hst hlen hfit => write_staticAddress hc hdue hp hst hlen hfit, fun index sub off v o ho hsub hn => ?_,
    fun n hn hp hb => installationWrite_plcaBurst hc hdue hp hb hn,
    fun index sub v => ⟨exec_installationWrite, installationWrite_other hc⟩⟩
  · exact registerWrite_access hc ha hk hdue ((lookupObj_of_pos hsub).trans ho) (mayWrite_readOnly hacc)
  · exact registerWrite_noObject hc ha hk ((lookupObj_of_pos hsub).trans ho)
  · have hl := (lookupObj_of_pos hsub).trans ho
    have hlast : ∀ off, writeReq p index sub off false false v s.m = lastPiece p index sub off v s.m := fun off =>
      writeReq_last ha hk hn hl
    exact ⟨stage_access hc ha hk hn hl, stage_length hc ha hk hn hl rfl,
      fun hm hfit hoff => stage_state hc ha hk hn hl rfl hm hfit hoff (objDef_key_lt ho),
      fun b hb hoff => lastPiece_outOfState hc ha hk hn hl hb hoff (objDef_key_lt ho), stage_ok hc ha hk hn hl rfl,
      fun b hb hoff hfit => exec_eq_of_effect rfl rfl ((hlast off).trans (lastPiece_whole hb hoff hfit)),
      fun hb => exec_eq_of_effect rfl rfl ((hlast 0).trans (lastPiece_unstaged hb)), write_reserved hc ha hk⟩

end Sys2Proof.Machine
end

section
/-!
SUPPORT. Commands and their effects: a calm device becomes what the effect makes of it, and an access that is held leaves it as it was.
-/

namespace Sys2Proof.Machine

/-- A command on a calm device becomes what its effect makes of it, if that leaves the sequencer as it was. -/
theorem becomes_onDev {c : Instr} {s : State} {f : Dev → Dev} {d : Dev} (hc : Calm s) (he : exec c s = onDev f s) (hf : f s.m = d)
    (hq : d.seq = s.m.seq) : Becomes c s d := by
  subst hf
  exact he.trans (onDev_calm hc.holds f (by rw [hq]; exact hc.reached))

/-- What a command makes of the device is all that it completes with. -/
theorem completes_at {c : Instr} {s : State} {P : Dev → Prop} {d : Dev} (h : Completes c s P) (hb : Becomes c s d) : P d := by
  obtain ⟨d', he, hP⟩ := h
  have hd : d' = d := by simpa using he.symm.trans hb
  exact hd ▸ hP

/-- A command that reaches a shadowed line while the sequencer is COMMITTING waits whole (R434; log entry 128). -/
theorem onDev_held {f : Dev → Dev} {s : State} (h : (f s.m).seq.reached = true) : onDev f s = .next s := by
  simp [onDev, h]

end Sys2Proof.Machine
end

section
/-!
PROOFS. The event and trace FIFOs (R54-R59, R536): publishing as the statement words it, and the statement about it.
-/

namespace Sys2Proof.Machine

open Claims (published traceWords)

/-- Publishing as R56 and R57 word it. -/
theorem publish_eq (port : Nat) (trace : Bool) (depth : Nat) (p : List W64) (f : Fifo) :
    f.publish port trace depth p = published port trace depth p f := by
  by_cases h : f.dropPkts = 0
  · simp [Fifo.publish, published, Claims.held, Fifo.used, h]
  · simp [Fifo.publish, published, Claims.held, Fifo.used, gapMarker, h]

theorem tracePacket_eq {ws : List W64} (h : 1 ≤ ws.length) : tracePacket ws = traceWords ws := by
  cases ws with
  | nil => simp at h
  | cons w ws => simp [tracePacket, traceWords, word]

section TakeRaised
variable {port : Nat} {pre post : List (Nat × Event)}

theorem takeRaised_none (h : ∀ q ∈ pre, q.1 ≠ port) : takeRaised port pre = none := by
  induction pre with
  | nil => rfl
  | cons q pre ih =>
    rw [List.forall_mem_cons] at h
    simp [takeRaised, h.1, ih h.2]

theorem takeRaised_first (h : ∀ q ∈ pre, q.1 ≠ port) (e : Event) :
    takeRaised port (pre ++ (port, e) :: post) = some (e, pre ++ post) := by
  induction pre with
  | nil => simp [takeRaised]
  | cons q pre ih =>
    rw [List.forall_mem_cons] at h
    simp [takeRaised, h.1, ih h.2]

end TakeRaised

section Publish
variable {port : Nat} {d : Dev}

theorem packetPublish_event (hport : port < 10) {e : Event} {rest : List (Nat × Event)} (h : takeRaised port d.ev.raised = some (e, rest)) :
    packetPublish port none d = { d with ev := { d.ev with
      raised := rest
      events := mput Fifo.empty d.ev.events port (published port false 512 (eventPacket e) (mget Fifo.empty d.ev.events port)) } } := by
  simp [packetPublish, Nat.not_le.2 hport, h, publish_eq]

theorem packetPublish_nothing (h : takeRaised port d.ev.raised = none) : packetPublish port none d = d := by
  simp [packetPublish, h]

theorem packetPublish_trace (hport : port < 10) {ws : List W64} (h1 : 1 ≤ ws.length) (h16 : ws.length ≤ 16)
    (hon : (rd d OD.traceEnable).testBit port = true) :
    packetPublish port (some ws) d = { d with ev := { d.ev with
      traces := mput Fifo.empty d.ev.traces port (published port true 4096 (traceWords ws) (mget Fifo.empty d.ev.traces port)) } } := by
  simp [packetPublish, Nat.not_le.2 hport, h1, h16, hon, publish_eq, tracePacket_eq]

theorem packetPublish_captureOff (ws : List W64) (hoff : (rd d OD.traceEnable).testBit port = false) :
    packetPublish port (some ws) d = d := by
  simp [packetPublish, hoff]

end Publish

/-- One FIFO written: the others stay. -/
theorem mget_fifo_mput {m : Map Fifo} {port q : Nat} (x : Fifo) :
    mget Fifo.empty (mput Fifo.empty m port x) q = if q = port then x else mget Fifo.empty m q := by
  rw [mget_mput]
  exact if_congr eq_comm rfl rfl

/-- Settles O19: a packet enters its FIFO whole or is dropped and counted. That the full flag is exact is log entry 106. -/
theorem packetPublishing : Obligations.PacketPublishing := by
  intro port s hc hport
  refine ⟨fun pre e post hr hpre _ => ?_, fun h => ?_, fun ws h1 h16 => ⟨fun hon => ?_, fun hoff => ?_⟩⟩
  · have ht : takeRaised port s.m.ev.raised = some (e, pre ++ post) := by
      rw [hr, List.append_assoc]
      exact takeRaised_first hpre e
    exact completes_onDev hc rfl (packetPublish_event hport ht) rfl ⟨rfl, fun q => mget_fifo_mput _, rfl⟩
  · exact becomes_onDev hc rfl (packetPublish_nothing (takeRaised_none h)) rfl
  · exact completes_onDev hc rfl (packetPublish_trace hport h1 h16 hon) rfl ⟨fun q => mget_fifo_mput _, rfl⟩
  · exact becomes_onDev hc rfl (packetPublish_captureOff ws hoff) rfl

end Sys2Proof.Machine
end

section
/-!
SUPPORT. The reported t_step_max (R43, R44, R46): what reporting it writes, raises and leaves.
-/

namespace Sys2Proof.Machine

open Claims (maxKeys)

theorem reportMax_unread {d : Dev} (h : largestReading d = none) : reportMax d = d := by
  unfold reportMax
  rw [h]

/-- The word that reports a maximum read by monitor i: the monitor's own, or that of a number above it. -/
def reportedWord (i : Nat) (x : ℚ) (d : Dev) : Nat :=
  if reportedMax x d = x then rd d (monitorKey i) else (f32OfRat (reportedMax x d)).toNat

/-- The objects once a maximum is reported. -/
def reportedObjects (i : Nat) (x : ℚ) (d : Dev) : Dev :=
  let e := wr OD.stepMaxSource i (wr OD.stepMax (reportedWord i x d) d)
  if ratBits (rd d OD.stepMaxPeak) < reportedMax x d then wr OD.stepMaxPeak (reportedWord i x d) e else e

/-- EV_2112 where the maximum passes the limit while it is armed. -/
def crossing (i : Nat) (x : ℚ) (d : Dev) : List (Nat × Event) :=
  if ratBits (rd d OD.stepLimit) < reportedMax x d ∧ d.pow.limitArmed = true
  then [(hivanPort, { id := 0x2112, inst := 0, detail0 := i % 2 ^ 28, details := [] })] else []

/-- Armed again below the limit only. -/
def rearmed (x : ℚ) (d : Dev) : Bool :=
  decide (reportedMax x d < ratBits (rd d OD.stepLimit)) ||
    (d.pow.limitArmed && decide (reportedMax x d = ratBits (rd d OD.stepLimit)))

theorem reportMax_eq {d : Dev} {i : Nat} {x : ℚ} (h : largestReading d = some (i, x)) :
    reportMax d = { d with
      od := (reportedObjects i x d).od
      ev := { d.ev with raised := d.ev.raised ++ crossing i x d }
      pow := { d.pow with limitArmed := rearmed x d } } := by
  have hpeak : rd (wr OD.stepMaxSource i (wr OD.stepMax (reportedWord i x d) d)) OD.stepMaxPeak = rd d OD.stepMaxPeak := by
    simp [rd_wr]
  have hlimit : rd (reportedObjects i x d) OD.stepLimit = rd d OD.stepLimit := by
    unfold reportedObjects
    split <;> simp [rd_wr]
  have hrest : reportedObjects i x d = { d with od := (reportedObjects i x d).od } := by
    unfold reportedObjects
    split <;> rfl
  have hdone : reportMax d = (let e := reportedObjects i x d
      let f := if ratBits (rd e OD.stepLimit) < reportedMax x d ∧ e.pow.limitArmed then raise hivanPort 0x2112 0 i [] e else e
      { f with pow := { f.pow with limitArmed := decide (reportedMax x d < ratBits (rd e OD.stepLimit)) ||
        (f.pow.limitArmed && decide (reportedMax x d = ratBits (rd e OD.stepLimit))) } }) := by
    unfold reportMax
    rw [h]
    simp only [reportedObjects, ← hpeak]
    rfl
  rw [hdone]
  simp only [hlimit]
  rw [hrest]
  by_cases hc : ratBits (rd d OD.stepLimit) < reportedMax x d ∧ d.pow.limitArmed = true
  · simp only [hc, and_self, if_true, crossing]
    rfl
  · simp only [hc, if_false, crossing, List.append_nil]
    rfl

section Objects
variable (i : Nat) (x : ℚ) (d : Dev)

theorem rd_reportedObjects (k : Nat) : rd (reportedObjects i x d) k =
    if k = OD.stepMaxPeak ∧ ratBits (rd d OD.stepMaxPeak) < reportedMax x d then reportedWord i x d
    else if k = OD.stepMaxSource then i else if k = OD.stepMax then reportedWord i x d else rd d k := by
  unfold reportedObjects
  dsimp only
  split <;> simp_all [rd_wr, eq_comm]

theorem rd_reportedObjects_other {k : Nat} (h : k ∉ maxKeys) : rd (reportedObjects i x d) k = rd d k := by
  simp only [maxKeys, List.mem_cons, List.not_mem_nil, or_false, not_or] at h
  simp [rd_reportedObjects, h]

end Objects

section Report
variable (d : Dev)

/-- Reporting changes objects, what is raised, and the arming. -/
theorem reportMax_frame : reportMax d = { d with
    od := (reportMax d).od
    ev := { d.ev with raised := (reportMax d).ev.raised }
    pow := { d.pow with limitArmed := (reportMax d).pow.limitArmed } } := by
  cases h : largestReading d with
  | none => rw [reportMax_unread h]
  | some r => rw [reportMax_eq h]

@[simp] theorem reportMax_seq : (reportMax d).seq = d.seq := by rw [reportMax_frame]
@[simp] theorem reportMax_hv : (reportMax d).hv = d.hv := by rw [reportMax_frame]
@[simp] theorem reportMax_mem : (reportMax d).mem = d.mem := by rw [reportMax_frame]
@[simp] theorem reportMax_rail : (reportMax d).pow.rail = d.pow.rail := by rw [reportMax_frame]
@[simp] theorem reportMax_loweredTo : (reportMax d).pow.loweredTo = d.pow.loweredTo := by rw [reportMax_frame]

theorem rd_reportMax_other {k : Nat} (hk : k ∉ maxKeys) : rd (reportMax d) k = rd d k := by
  cases h : largestReading d with
  | none => rw [reportMax_unread h]
  | some r =>
    rw [reportMax_eq h]
    exact rd_reportedObjects_other r.1 r.2 d hk

/-- What was raised stays raised. -/
theorem mem_reportMax_raised {e : Nat × Event} (he : e ∈ d.ev.raised) : e ∈ (reportMax d).ev.raised := by
  cases h : largestReading d with
  | none => rwa [reportMax_unread h]
  | some r =>
    rw [reportMax_eq h]
    exact List.mem_append_left _ he

end Report

/-- A lowering reports the model at its target, where that is above the readings (R44). -/
theorem reportMax_lowering {d : Dev} {i v : Nat} {x t y : ℚ} (hr : largestReading d = some (i, x)) (ht : hottestDie d = some t)
    (hl : loweringTo d = some v) (hv : 0 < v) (hy : y = guideModel (mkRat v 1000) t * mkRat d.pow.ratioNum d.pow.ratioDen)
    (hxy : x < y) : rd (reportMax d) OD.stepMax = (f32OfRat y).toNat ∧ rd (reportMax d) OD.stepMaxSource = i := by
  have hmax : reportedMax x d = y := by
    rw [reportedMax, ht, hl]
    simp only [hv, if_true, ← hy]
    exact max_eq_right hxy.le
  have hword : reportedWord i x d = (f32OfRat y).toNat := by rw [reportedWord, hmax, if_neg hxy.ne']
  have hrd (k : Nat) : rd (reportMax d) k = rd (reportedObjects i x d) k := by rw [reportMax_eq hr]; rfl
  simp [hrd, rd_reportedObjects, hword]

/-! ## What the readings are -/

/-- The largest of some values in the order of a list, the first where several are. -/
def largestOf (f : Nat → Option ℚ) (l : List Nat) : Option (Nat × ℚ) :=
  l.foldl (fun m i => match f i, m with
    | some x, some (_, y) => if y < x then some (i, x) else m
    | some x, none => some (i, x)
    | none, _ => m) none

theorem largestReading_eq (d : Dev) : largestReading d = largestOf (fun i => measured d (monitorKey i)) (List.range 40) := rfl

theorem largestOf_range {f : Nat → Option ℚ} {x : Nat → ℚ} {n : Nat} (h : ∀ i ≤ n, f i = some (x i)) :
    ∃ j ≤ n, largestOf f (List.range (n + 1)) = some (j, x j) ∧ (∀ i ≤ n, x i ≤ x j) ∧ ∀ i < j, x i < x j := by
  induction n with
  | zero => exact ⟨0, le_rfl, by simp [largestOf, List.range_succ, h 0 le_rfl], by simp, by simp⟩
  | succ n ih =>
    obtain ⟨j, hj, he, hle, hlt⟩ := ih fun i hi => h i (by omega)
    have hstep : largestOf f (List.range (n + 1 + 1)) = if x j < x (n + 1) then some (n + 1, x (n + 1)) else some (j, x j) := by
      rw [largestOf, List.range_succ, List.foldl_append, ← largestOf, he]
      simp only [List.foldl_cons, List.foldl_nil, h (n + 1) le_rfl]
    by_cases hnew : x j < x (n + 1)
    · refine ⟨n + 1, le_rfl, by rw [hstep, if_pos hnew], fun i hi => ?_, fun i hi => (hle i (by omega)).trans_lt hnew⟩
      rcases Nat.lt_or_eq_of_le hi with hi | rfl
      · exact (hle i (by omega)).trans hnew.le
      · exact le_rfl
    · refine ⟨j, by omega, by rw [hstep, if_neg hnew], fun i hi => ?_, hlt⟩
      rcases Nat.lt_or_eq_of_le hi with hi | rfl
      · exact hle i (by omega)
      · exact not_lt.1 hnew

theorem monitorKey_inj {i j : Nat} (hi : i < 40) (hj : j < 40) (h : monitorKey i = monitorKey j) : i = j := by
  simp only [monitorKey, OD.paceMonitor, OD.paceMonitorLink] at h
  split at h <;> split at h <;> omega

/-- The objects of the temperature points and of the rails, from which the guide model of a die is taken. -/
def DieKey (k : Nat) : Prop :=
  (OD.temperature ≤ k ∧ k < OD.temperature + 96) ∨ (OD.railVoltage ≤ k ∧ k < OD.railVoltage + 36)

section SameDies
variable {d d' : Dev} (h : ∀ k, DieKey k → rd d' k = rd d k)
include h

theorem dieTemp_congr {die : Nat} (hdie : die < 6) : dieTemp d' die = dieTemp d die := by
  unfold dieTemp
  congr 1
  refine List.filterMap_congr fun p hp => ?_
  have hp96 : p < 96 := by
    unfold diePoints at hp
    split at hp <;> obtain ⟨k, hk, rfl⟩ := List.mem_map.1 hp <;> have := List.mem_range.1 hk <;> omega
  rw [measured, measured, h (OD.temperature + p) (.inl (by omega))]

theorem hottestDie_congr : hottestDie d' = hottestDie d := by
  unfold hottestDie
  congr 1
  exact List.filterMap_congr fun die hdie => dieTemp_congr h (List.mem_range.1 hdie)

theorem dieModel_congr {die : Nat} (hdie : die < 6) : dieModel d' die = dieModel d die := by
  have hv : dieVolts d' die = dieVolts d die := by
    rw [dieVolts, dieVolts, measured, measured, h _ (.inr (by split <;> omega))]
  unfold dieModel
  rw [hv, dieTemp_congr h hdie]

end SameDies

theorem largestReading_congr {d d' : Dev} (h : ∀ i < 40, rd d' (monitorKey i) = rd d (monitorKey i)) :
    largestReading d' = largestReading d := by
  rw [largestReading_eq, largestReading_eq]
  refine List.foldl_ext _ _ _ fun m i hi => ?_
  simp only [measured, h i (List.mem_range.1 hi)]

/-! ## Objects that are no readings -/

/-- The objects of pace and supply that hold no reading. -/
def paceKeys : List Nat :=
  [OD.supplySetpoint, OD.supplyMeasured, OD.setpointInForce, OD.thermalCap, OD.powerCap, OD.monitorFailed, OD.stepLimit] ++ maxKeys

theorem dieKey_not_pace : ∀ k ∈ paceKeys, ¬DieKey k := by
  unfold DieKey
  decide

theorem monitorKey_not_pace : ∀ i < 40, monitorKey i ∉ paceKeys := by decide

theorem monitorKey_not_die : ∀ i < 40, ¬DieKey (monitorKey i) := by
  unfold DieKey
  decide

section Pace
variable {j : Nat} (hj : j ∈ paceKeys) (v : Nat) (d : Dev)
include hj

theorem rd_wr_die {k : Nat} (hk : DieKey k) : rd (wr j v d) k = rd d k :=
  rd_wr_other v d fun he => dieKey_not_pace j hj (he ▸ hk)

theorem rd_wr_monitor {i : Nat} (hi : i < 40) : rd (wr j v d) (monitorKey i) = rd d (monitorKey i) :=
  rd_wr_other v d fun he => monitorKey_not_pace i hi (he ▸ hj)

end Pace

end Sys2Proof.Machine
end

section
/-!
PROOFS. The supply setpoint written, its ramp, and the tick (R10, R38-R40, R44, R62).
-/

namespace Sys2Proof.Machine

open Claims (maxKeys inForce Accepted ObjectsOnly ReportOnly)

theorem setpointNow_eq (d : Dev) : setpointNow d = inForce d := rfl

/-- The device once the caps are applied, before t_step_max is reported anew. -/
def capped (d : Dev) : Dev := wr OD.setpointInForce (inForce d) d

theorem applyCaps_eq (d : Dev) : applyCaps d = reportMax (capped d) := rfl

theorem rd_applyCaps (d : Dev) {k : Nat} (hk : k ∉ maxKeys) :
    rd (applyCaps d) k = if OD.setpointInForce = k then inForce d else rd d k := by
  rw [applyCaps_eq, rd_reportMax_other _ hk, capped, rd_wr]

/-- Applying the caps changes objects, what is raised, and the arming of EV_2112. -/
theorem applyCaps_frame (d : Dev) : applyCaps d = { d with
    od := (applyCaps d).od
    ev := { d.ev with raised := (applyCaps d).ev.raised }
    pow := { d.pow with limitArmed := (applyCaps d).pow.limitArmed } } := reportMax_frame (capped d)

@[simp] theorem applyCaps_seq (d : Dev) : (applyCaps d).seq = d.seq := by rw [applyCaps_frame]

/-! ## SUPPLY_SETPOINT_WRITE -/

/-- The effect of SUPPLY_SETPOINT_WRITE. -/
def setpointEffect (p : Path) (mv : Nat) : Dev → Dev :=
  runScalar OD.supplySetpoint p mv (mv % 5 == 0) noUnit (fun d => (ST.ok, applyCaps (wr OD.supplySetpoint mv d)))

theorem exec_supplySetpointWrite (p : Path) (mv : Nat) (s : State) :
    exec (.supplySetpointWrite p mv) s = onDev (setpointEffect p mv) s := rfl

/-- The object's row of the dictionary. -/
def setpointRow : ObjDef := ⟨0x2100, 1, 1, .u16, .rws, 750, 620, 880, 0, 0, 0, false⟩

theorem objDef_supplySetpoint : objDef OD.supplySetpoint = some setpointRow := by decide +kernel

/-- The device at an accepted write, before the caps are applied. -/
def setpointKept (p : Path) (mv : Nat) (d : Dev) : Dev := wr OD.supplySetpoint mv (dropHeld p d)

section Write
variable {p : Path} {mv : Nat} {d : Dev}

/-- The value's own check and the row's range are R38's. -/
theorem setpoint_inRange (mv : Nat) :
    ((mv % 5 == 0) && inRange setpointRow mv) = decide (620 ≤ mv ∧ mv ≤ 880 ∧ mv % 5 = 0) := by
  have hrange : inRange setpointRow mv = decide (620 ≤ mv ∧ mv ≤ 880) := inRange_integer rfl (by decide) mv
  rw [hrange, Bool.eq_iff_iff]
  simp only [Bool.and_eq_true, beq_iff_eq, decide_eq_true_eq]
  tauto

theorem setpointEffect_access (ha : answers d p = true) (hk : unknownSession d p = false) (hm : authed d p = false) :
    setpointEffect p mv d = answer p ST.access 2 (dropHeld p d) := by
  simp only [setpointEffect, runScalar, objDef_supplySetpoint]
  exact runWrite_access ha hk hm

theorem setpointEffect_invalid (ha : answers d p = true) (hk : unknownSession d p = false) (hm : authed d p = true)
    (hbad : mv < 620 ∨ 880 < mv ∨ mv % 5 ≠ 0) : setpointEffect p mv d = answer p ST.invalid 2 (dropHeld p d) := by
  have hno : ¬(620 ≤ mv ∧ mv ≤ 880 ∧ mv % 5 = 0) := by omega
  simp only [setpointEffect, runScalar, objDef_supplySetpoint, setpoint_inRange, decide_eq_false hno]
  exact runWrite_bad ha hk hm (by decide)

theorem setpointEffect_ok (h : Accepted d p OD.supplySetpoint .rws) (hlo : 620 ≤ mv) (hhi : mv ≤ 880) (h5 : mv % 5 = 0) :
    setpointEffect p mv d = answer p ST.ok 2 (applyCaps (setpointKept p mv d)) := by
  have hyes : decide (620 ≤ mv ∧ mv ≤ 880 ∧ mv % 5 = 0) = true := decide_eq_true ⟨hlo, hhi, h5⟩
  simp only [setpointEffect, runScalar, objDef_supplySetpoint, setpoint_inRange, hyes, if_true]
  have hdone := runWrite_done (size := 2) (acc := .rws) (counter := false) (unit := noUnit) h.answers h.known h.right h.unlocked h.owner
    (op := fun d => (ST.ok, applyCaps (wr OD.supplySetpoint mv d))) rfl
  rwa [keepInstalled_of_not_mem (by decide)] at hdone

theorem inForce_setpointKept (p : Path) (mv : Nat) (d : Dev) : inForce (setpointKept p mv d) =
    min (min mv (rd d OD.thermalCap)) (min (rd d OD.powerCap) d.pow.phaseCap) := by
  simp only [inForce, setpointKept, rd_wr, rd_dropHeld]
  rfl

end Write

theorem rd_answer (p : Path) (st : Status) (n k : Nat) (d : Dev) : rd (answer p st n d) k = rd d k := rd_reply ..

/-- A refused write leaves every object. -/
theorem completes_refused {p : Path} {mv : Nat} {st : Status} {s : State} (hc : Calm s)
    (h : setpointEffect p mv s.m = answer p st 2 (dropHeld p s.m)) :
    Completes (.supplySetpointWrite p mv) s (fun d => d.hv.replyStatus = st ∧ ObjectsOnly [] s.m d) := by
  refine completes_onDev hc (exec_supplySetpointWrite ..) h (reply_seq ..) ⟨reply_status .., ?_, fun k _ => rd_answer ..⟩
  rw [answer, reply_frame]
  rfl

theorem supplySetpointWritePart : Claims.SupplySetpointWritePart := by
  refine ⟨by decide +kernel, fun p mv s hc ha hk => ⟨fun h hlo hhi h5 => ?_, fun hm hbad => ?_, fun hm => ?_⟩⟩
  · refine completes_onDev hc (exec_supplySetpointWrite ..) (setpointEffect_ok h hlo hhi h5) ?_ ⟨reply_status .., ?_, ?_, ?_, ?_⟩
    · rw [answer, reply_seq, applyCaps_seq]
      rfl
    · rw [rd_answer, rd_applyCaps _ (by decide), if_neg (by decide), setpointKept, rd_wr_same]
    · rw [rd_answer, rd_applyCaps _ (by decide), if_pos rfl, inForce_setpointKept]
    · rw [answer, reply_frame, applyCaps_frame]
      rfl
    · intro k hk
      simp only [List.mem_append, List.mem_cons, List.not_mem_nil, or_false, not_or] at hk
      obtain ⟨⟨hset, hforce⟩, hmax⟩ := hk
      rw [rd_answer, rd_applyCaps _ hmax, if_neg (Ne.symm hforce), setpointKept, rd_wr_other _ _ (Ne.symm hset), rd_dropHeld]
  · exact completes_refused hc (setpointEffect_invalid ha hk hm hbad)
  · exact completes_refused hc (setpointEffect_access ha hk hm)

/-! ## A lowering is reported at once (R44) -/

/-- An accepted write that lowers the rails. -/
theorem setpointWrite_reportsLowering {p : Path} {mv i : Nat} {x t y : ℚ} {s : State} (hc : Calm s)
    (h : Accepted s.m p OD.supplySetpoint .rws) (hlo : 620 ≤ mv) (hhi : mv ≤ 880) (h5 : mv % 5 = 0)
    (hr : largestReading s.m = some (i, x)) (ht : hottestDie s.m = some t) (hlow : s.m.pow.loweredTo = none) {v : Nat}
    (hv : v = min (min mv (rd s.m OD.thermalCap)) (min (rd s.m OD.powerCap) s.m.pow.phaseCap)) (hpos : 0 < v)
    (hrail : v < s.m.pow.rail) (hy : y = guideModel (mkRat v 1000) t * mkRat s.m.pow.ratioNum s.m.pow.ratioDen) (hxy : x < y) :
    Completes (.supplySetpointWrite p mv) s (fun d => rd d OD.stepMax = (f32OfRat y).toNat ∧ rd d OD.stepMaxSource = i) := by
  have hdies (k : Nat) (hk : DieKey k) : rd (capped (setpointKept p mv s.m)) k = rd s.m k := by
    rw [capped, rd_wr_die (by decide) _ _ hk, setpointKept, rd_wr_die (by decide) _ _ hk, rd_dropHeld]
  have hmonitors (i : Nat) (hi : i < 40) : rd (capped (setpointKept p mv s.m)) (monitorKey i) = rd s.m (monitorKey i) := by
    rw [capped, rd_wr_monitor (by decide) _ _ hi, setpointKept, rd_wr_monitor (by decide) _ _ hi, rd_dropHeld]
  have hforce : setpointNow (capped (setpointKept p mv s.m)) = v := by
    rw [hv, ← inForce_setpointKept p mv s.m]
    simp only [setpointNow_eq, inForce, capped, rd_wr]
    rfl
  have hdown : loweringTo (capped (setpointKept p mv s.m)) = some v := by
    have hp : (capped (setpointKept p mv s.m)).pow = s.m.pow := rfl
    rw [loweringTo, hforce, hp, if_pos hrail, hlow, Option.getD_none]
    exact congrArg some (Nat.min_eq_left hrail.le)
  refine completes_onDev hc (exec_supplySetpointWrite ..) (setpointEffect_ok h hlo hhi h5) ?_ ?_
  · rw [answer, reply_seq, applyCaps_seq]
    rfl
  · rw [rd_answer, rd_answer]
    exact reportMax_lowering ((largestReading_congr hmonitors).trans hr) ((hottestDie_congr hdies).trans ht) hdown hpos hy hxy

/-! ## SETPOINT_RAMP -/

/-- Where a move toward a target takes the rails (R39). -/
def rampTo (target delta rail : Nat) : Nat := if rail < target then min target (rail + delta) else max target (rail - delta)

/-- What has come down since the last window, once the rails stand at r (R44). -/
def loweredAt (r : Nat) (d : Dev) : Option Nat :=
  if r < d.pow.rail then some (min r (d.pow.loweredTo.getD r)) else d.pow.loweredTo

/-- The device with the rails at r, before t_step_max is reported anew. -/
def railAt (r : Nat) (d : Dev) : Dev :=
  wr OD.supplyMeasured r { d with pow := { d.pow with rail := r, loweredTo := loweredAt r d } }

theorem moveRail_eq (target delta : Nat) (d : Dev) :
    moveRail target delta d = reportMax (railAt (rampTo target delta d.pow.rail) d) := rfl

theorem rd_railAt (r k : Nat) (d : Dev) : rd (railAt r d) k = if OD.supplyMeasured = k then r else rd d k := rd_wr _ _ _ _

theorem inForce_railAt (r : Nat) (d : Dev) : inForce (railAt r d) = inForce d := by
  simp only [inForce, rd_railAt]
  rfl

/-- The effect of SETPOINT_RAMP. -/
def rampEffect (delta : Nat) (d : Dev) : Dev :=
  if d.pow.rail = 0 ∨ !works d OD.readyThermal then d else moveRail (setpointNow d) delta d

theorem exec_setpointRamp (delta : Nat) (s : State) : exec (.setpointRamp delta) s = onDev (rampEffect delta) s := rfl

section Ramp
variable {delta : Nat} {s : State}

theorem rampEffect_moves (hrail : s.m.pow.rail ≠ 0) (hw : works s.m OD.readyThermal = true) :
    rampEffect delta s.m = reportMax (railAt (rampTo (inForce s.m) delta s.m.pow.rail) s.m) := by
  rw [rampEffect, if_neg (by simp [hrail, hw]), moveRail_eq, setpointNow_eq]

theorem setpointRamp_completes (hc : Calm s) (hrail : s.m.pow.rail ≠ 0) (hw : works s.m OD.readyThermal = true) {P : Dev → Prop}
    (hP : P (reportMax (railAt (rampTo (inForce s.m) delta s.m.pow.rail) s.m))) : Completes (.setpointRamp delta) s P :=
  completes_onDev hc (exec_setpointRamp ..) (rampEffect_moves hrail hw) (reportMax_seq _) hP

theorem setpointRamp_rest (hc : Calm s) (h : s.m.pow.rail = 0 ∨ works s.m OD.readyThermal = false) :
    Becomes (.setpointRamp delta) s s.m :=
  becomes_onDev hc (exec_setpointRamp ..) (if_pos (by simpa using h)) rfl

/-- The lowest target of a lowering is the setpoint in force, if nothing before was lowered further. -/
theorem loweringTo_railAt {d : Dev} (hdown : inForce d < d.pow.rail) (hlow : ∀ l, d.pow.loweredTo = some l → inForce d ≤ l) :
    loweringTo (railAt (rampTo (inForce d) delta d.pow.rail) d) = some (inForce d) := by
  have hto : rampTo (inForce d) delta d.pow.rail = max (inForce d) (d.pow.rail - delta) := if_neg (by omega)
  rw [hto, loweringTo, setpointNow_eq, inForce_railAt]
  show (if inForce d < max (inForce d) (d.pow.rail - delta)
    then some (min (inForce d) ((loweredAt _ d).getD (max (inForce d) (d.pow.rail - delta)))) else loweredAt _ d) = _
  unfold loweredAt
  cases hl : d.pow.loweredTo with
  | none => split <;> split <;> simp <;> omega
  | some l =>
    have := hlow l hl
    split <;> split <;> simp <;> omega

/-- The ramp of a lowering. -/
theorem setpointRamp_reportsLowering {i : Nat} {x t y : ℚ} (hc : Calm s) (hrail : s.m.pow.rail ≠ 0)
    (hw : works s.m OD.readyThermal = true) (hr : largestReading s.m = some (i, x)) (ht : hottestDie s.m = some t)
    (hpos : 0 < inForce s.m) (hdown : inForce s.m < s.m.pow.rail) (hlow : ∀ l, s.m.pow.loweredTo = some l → inForce s.m ≤ l)
    (hy : y = guideModel (mkRat (inForce s.m) 1000) t * mkRat s.m.pow.ratioNum s.m.pow.ratioDen) (hxy : x < y) :
    Completes (.setpointRamp delta) s (fun d => rd d OD.stepMax = (f32OfRat y).toNat ∧ rd d OD.stepMaxSource = i) := by
  exact setpointRamp_completes hc hrail hw (reportMax_lowering
    ((largestReading_congr fun _ hi => rd_wr_monitor (by decide) _ _ hi).trans hr)
    ((hottestDie_congr fun _ hk => rd_wr_die (by decide) _ _ hk).trans ht) (loweringTo_railAt hdown hlow) hpos hy hxy)

end Ramp

theorem loweringIsReportedAtOncePart : Claims.LoweringIsReportedAtOncePart :=
  ⟨fun _ _ _ _ _ _ _ hc h hlo hhi h5 hr ht hlow hpos hrail hy hxy =>
    setpointWrite_reportsLowering hc h hlo hhi h5 hr ht hlow rfl hpos hrail hy hxy,
   fun _ _ _ _ _ _ hc hrail hw hr ht hpos hdown hlow hy hxy =>
    setpointRamp_reportsLowering hc hrail hw hr ht hpos hdown hlow hy hxy⟩

/-- One ramp step (R39). -/
theorem setpointRamp_clause (delta : Nat) (s : State) (hc : Calm s) (hrail : s.m.pow.rail ≠ 0)
    (hw : works s.m OD.readyThermal = true) : Completes (.setpointRamp delta) s (fun d =>
      d.pow.rail = (if s.m.pow.rail < inForce s.m then min (inForce s.m) (s.m.pow.rail + delta)
        else max (inForce s.m) (s.m.pow.rail - delta)) ∧
      d.pow.loweredTo = (if d.pow.rail < s.m.pow.rail then some (min d.pow.rail (s.m.pow.loweredTo.getD d.pow.rail))
        else s.m.pow.loweredTo) ∧
      rd d OD.supplyMeasured = d.pow.rail ∧ (∀ k, k ∉ OD.supplyMeasured :: maxKeys → rd d k = rd s.m k) ∧
      d = { s.m with od := d.od, ev := d.ev, pow := { s.m.pow with
        rail := d.pow.rail, loweredTo := d.pow.loweredTo, limitArmed := d.pow.limitArmed } }) := by
  refine setpointRamp_completes hc hrail hw ⟨?_, ?_, ?_, fun k hk => ?_, ?_⟩
  · rw [reportMax_rail]
    rfl
  · rw [reportMax_loweredTo, reportMax_rail]
    rfl
  · rw [rd_reportMax_other _ (by decide), reportMax_rail, rd_railAt, if_pos rfl]
    rfl
  · obtain ⟨hk, hmax⟩ := not_or.1 (List.mem_cons.not.1 hk)
    rw [rd_reportMax_other _ hmax, rd_railAt, if_neg (Ne.symm hk)]
  · rw [reportMax_frame]
    rfl

/-! ## TICK -/

/-- The tick has been counted; the time under a thermal cap has not. -/
def ticked (d : Dev) : Dev := inc OD.tickCount { d with tick := d.tick + 1 }

/-- The effect of TICK. -/
def tickEffect (d : Dev) : Dev := if rd (ticked d) OD.thermalCap < 880 then inc OD.thermalCapTime (ticked d) else ticked d

theorem exec_tick (s : State) : exec .tick s = onDev tickEffect s := rfl

theorem rd_ticked (k : Nat) (d : Dev) :
    rd (ticked d) k = if OD.tickCount = k then (rd d OD.tickCount + 1) % 2 ^ 64 else rd d k := rd_inc _ _ _

theorem tickEffect_capped {d : Dev} (h : rd d OD.thermalCap < 880) : tickEffect d = inc OD.thermalCapTime (ticked d) :=
  if_pos (by rwa [rd_ticked, if_neg (by decide)])

theorem tickEffect_uncapped {d : Dev} (h : ¬rd d OD.thermalCap < 880) : tickEffect d = ticked d :=
  if_neg (by rwa [rd_ticked, if_neg (by decide)])

/-- A microsecond (R62, R610). -/
theorem tick_clause (s : State) (hc : Calm s) : Completes .tick s (fun d => d.tick = s.m.tick + 1 ∧
    rd d OD.tickCount = (rd s.m OD.tickCount + 1) % 2 ^ 64 ∧
    rd d OD.thermalCapTime = (if rd s.m OD.thermalCap < 880 then (rd s.m OD.thermalCapTime + 1) % 2 ^ 64
      else rd s.m OD.thermalCapTime) ∧
    (∀ k, k ≠ OD.tickCount → k ≠ OD.thermalCapTime → rd d k = rd s.m k) ∧ d = { s.m with tick := d.tick, od := d.od }) := by
  by_cases h : rd s.m OD.thermalCap < 880
  · refine completes_onDev hc (exec_tick s) (tickEffect_capped h) rfl ⟨rfl, ?_, ?_, fun k h1 h2 => ?_, rfl⟩
    · simp [rd_inc, rd_ticked]
    · simp [rd_inc, rd_ticked, h]
    · simp [rd_inc, rd_ticked, h1.symm, h2.symm]
  · refine completes_onDev hc (exec_tick s) (tickEffect_uncapped h) rfl ⟨rfl, ?_, ?_, fun k h1 _ => ?_, rfl⟩
    · simp [rd_ticked]
    · simp [rd_ticked, h]
    · simp [rd_ticked, h1.symm]

end Sys2Proof.Machine
end

section
/-!
PROOFS. A window of the pace monitors (R43-R46), and the statement about the supply setpoint.
-/

namespace Sys2Proof.Machine

open Claims (maxKeys limitEvent inForce)

/-! ## What a reading leaves -/

/-- What the reading of a monitor can do: it changes no other monitor's mark, lifts no mark, and takes back no event. -/
structure ReadingOf (i : Nat) (d d' : Dev) : Prop where
  seq : d'.seq = d.seq
  marks : ∀ j, monitorFailed d' j = monitorFailed d j ∨ (j = i ∧ monitorFailed d' j = true)
  raised : ∀ e ∈ d.ev.raised, e ∈ d'.ev.raised

namespace ReadingOf
variable {i : Nat} {d d' d'' : Dev}

theorem refl (i : Nat) (d : Dev) : ReadingOf i d d := ⟨rfl, fun _ => .inl rfl, fun _ h => h⟩

theorem trans (h : ReadingOf i d d') (h' : ReadingOf i d' d'') : ReadingOf i d d'' where
  seq := h'.seq.trans h.seq
  marks j := by
    rcases h'.marks j with e | e
    · rw [e]
      exact h.marks j
    · exact .inr e
  raised e he := h'.raised e (h.raised e he)

theorem of_same (hs : d'.seq = d.seq) (hm : rd d' OD.monitorFailed = rd d OD.monitorFailed)
    (he : ∀ e ∈ d.ev.raised, e ∈ d'.ev.raised) : ReadingOf i d d' :=
  ⟨hs, fun j => .inl (by rw [monitorFailed, monitorFailed, hm]), he⟩

/-- A mark once set stays. -/
theorem stays (h : ReadingOf i d d') {j : Nat} (hj : monitorFailed d j = true) : monitorFailed d' j = true :=
  (h.marks j).elim (fun e => e.trans hj) And.right

theorem other (h : ReadingOf i d d') {j : Nat} (hj : j ≠ i) : monitorFailed d' j = monitorFailed d j :=
  (h.marks j).elim id fun e => absurd e.1 hj

end ReadingOf

/-- Whether a window's reading of a monitor differs from the guide model, or is no number (R45). -/
def deviating (i : Nat) (w : W32) (d : Dev) : Bool :=
  match ratOf w, dieModel (wr (monitorKey i) w.toNat d) (monitorDie i) with
  | some x, some m => deviates x m
  | none, _ => true
  | _, none => false

/-- Successive deviations of a monitor, this reading's among them. -/
def deviations (i : Nat) (w : W32) (d : Dev) : Nat := if deviating i w d then mget 0 d.pow.deviating i + 1 else 0

/-- The reading kept, and its deviation counted. -/
def readingCounted (i : Nat) (w : W32) (d : Dev) : Dev :=
  { wr (monitorKey i) w.toNat d with pow := { d.pow with deviating := mput 0 d.pow.deviating i (deviations i w d) } }

theorem monitorReading_none {i : Nat} {d : Dev} (h : monitorFailed d i = false) : monitorReading i none d = failMonitor i d := by
  unfold monitorReading
  rw [h]
  rfl

theorem monitorReading_some {i : Nat} {d : Dev} (h : monitorFailed d i = false) (w : W32) : monitorReading i (some w) d =
    if !deviating i w d then readingCounted i w d
    else if 3 ≤ deviations i w d then failMonitor i (readingCounted i w d)
    else raise (monitorPort i) 0x2110 i 0 [] (readingCounted i w d) := by
  unfold monitorReading
  rw [h]
  rfl

section Reading
variable {i : Nat} (hi : i < 40) (d : Dev)
include hi

theorem readingOf_wr (v : Nat) : ReadingOf i d (wr (monitorKey i) v d) :=
  .of_same rfl (rd_wr_other v d fun he => monitorKey_not_pace i hi (he ▸ by decide)) fun _ h => h

theorem readingOf_putReplacement : ReadingOf i d (putReplacement i d) := by
  unfold putReplacement
  split
  · exact readingOf_wr hi d _
  · exact .refl i d

omit hi in
theorem readingOf_raise (id : Nat) : ReadingOf i d (raise (monitorPort i) id i 0 [] d) :=
  .of_same rfl rfl fun _ h => List.mem_append_left _ h

omit hi in
theorem monitorFailed_mark (j : Nat) : monitorFailed (wr OD.monitorFailed (Nat.lor (rd d OD.monitorFailed) (2 ^ i)) d) j =
    (monitorFailed d j || decide (i = j)) := by
  rw [monitorFailed, rd_wr_same]
  exact (Nat.testBit_or ..).trans (by rw [Nat.testBit_two_pow, monitorFailed])

omit hi in
theorem readingOf_mark : ReadingOf i d (wr OD.monitorFailed (Nat.lor (rd d OD.monitorFailed) (2 ^ i)) d) := by
  refine ⟨rfl, fun j => ?_, fun _ h => h⟩
  rw [monitorFailed_mark]
  by_cases h : i = j
  · exact .inr ⟨h.symm, by simp [h]⟩
  · exact .inl (by simp [h])

theorem readingOf_failMonitor : ReadingOf i d (failMonitor i d) :=
  (readingOf_mark d).trans ((readingOf_raise _ 0x2111).trans (readingOf_putReplacement hi _))

/-- A failed monitor is marked, with EV_2111. -/
theorem failMonitor_marks : monitorFailed (failMonitor i d) i = true ∧
    (monitorPort i, ({ id := 0x2111, inst := i, detail0 := 0, details := [] } : Event)) ∈ (failMonitor i d).ev.raised := by
  have hput := readingOf_putReplacement hi (raise (monitorPort i) 0x2111 i 0 []
    (wr OD.monitorFailed (Nat.lor (rd d OD.monitorFailed) (2 ^ i)) d))
  refine ⟨hput.stays ?_, hput.raised _ (List.mem_append_right _ (by simp))⟩
  exact (monitorFailed_mark d i).trans (by simp)

theorem readingOf_monitorReading (r : Option W32) : ReadingOf i d (monitorReading i r d) := by
  cases h : monitorFailed d i with
  | true =>
    unfold monitorReading
    rw [if_pos h]
    exact readingOf_putReplacement hi d
  | false =>
    cases r with
    | none =>
      rw [monitorReading_none h]
      exact readingOf_failMonitor hi d
    | some w =>
      have hcount : ReadingOf i d (readingCounted i w d) := (readingOf_wr hi d w.toNat).trans (.of_same rfl rfl fun _ h => h)
      rw [monitorReading_some h]
      split_ifs
      · exact hcount
      · exact hcount.trans (readingOf_failMonitor hi _)
      · exact hcount.trans (readingOf_raise _ 0x2110)

end Reading

/-! ## The readings of a window in turn -/

/-- The readings of a window, before the maximum is reported. -/
def readings (l : List (Option W32 × Nat)) (d : Dev) : Dev := l.foldl (fun d r => monitorReading r.2 r.1 d) d

section Readings
variable {l : List (Option W32 × Nat)} {i : Nat}

theorem readings_seq (h : ∀ q ∈ l, q.2 < 40) (d : Dev) : (readings l d).seq = d.seq := by
  induction l generalizing d with
  | nil => rfl
  | cons q l ih =>
    rw [List.forall_mem_cons] at h
    exact (ih h.2 _).trans (readingOf_monitorReading h.1 d q.1).seq

theorem readings_stays (h : ∀ q ∈ l, q.2 < 40) {d : Dev} (hi : monitorFailed d i = true) : monitorFailed (readings l d) i = true := by
  induction l generalizing d with
  | nil => exact hi
  | cons q l ih =>
    rw [List.forall_mem_cons] at h
    exact ih h.2 ((readingOf_monitorReading h.1 d q.1).stays hi)

theorem readings_raised (h : ∀ q ∈ l, q.2 < 40) {d : Dev} {e : Nat × Event} (he : e ∈ d.ev.raised) :
    e ∈ (readings l d).ev.raised := by
  induction l generalizing d with
  | nil => exact he
  | cons q l ih =>
    rw [List.forall_mem_cons] at h
    exact ih h.2 ((readingOf_monitorReading h.1 d q.1).raised e he)

/-- The readings of other monitors leave a monitor's mark. -/
theorem readings_other (h : ∀ q ∈ l, q.2 < 40 ∧ i ≠ q.2) (d : Dev) : monitorFailed (readings l d) i = monitorFailed d i := by
  induction l generalizing d with
  | nil => rfl
  | cons q l ih =>
    rw [List.forall_mem_cons] at h
    exact (ih h.2 _).trans ((readingOf_monitorReading h.1.1 d q.1).other h.1.2)

/-- A count of zero, wherever it stands in the window, fails its monitor. -/
theorem readings_zero {a b : List (Option W32 × Nat)} (ha : ∀ q ∈ a, q.2 < 40 ∧ i ≠ q.2) (hi : i < 40) (hb : ∀ q ∈ b, q.2 < 40)
    {d : Dev} (hd : monitorFailed d i = false) : monitorFailed (readings (a ++ (none, i) :: b) d) i = true ∧
      (monitorPort i, ({ id := 0x2111, inst := i, detail0 := 0, details := [] } : Event)) ∈
        (readings (a ++ (none, i) :: b) d).ev.raised := by
  have hsplit : readings (a ++ (none, i) :: b) d = readings b (failMonitor i (readings a d)) := by
    rw [← monitorReading_none ((readings_other ha d).trans hd)]
    exact List.foldl_append ..
  obtain ⟨hm, he⟩ := failMonitor_marks hi (readings a d)
  rw [hsplit]
  exact ⟨readings_stays hb hm, readings_raised hb he⟩

end Readings

/-! ## MONITOR_WINDOW -/

/-- The effect of MONITOR_WINDOW. -/
def windowEffect (rs : List (Option W32)) (d : Dev) : Dev :=
  reportMax (keepRatio (windowRead (readings (rs.take 40).zipIdx d)))

theorem exec_monitorWindow (rs : List (Option W32)) (s : State) : exec (.monitorWindow rs) s = onDev (windowEffect rs) s := rfl

theorem zipIdx_lt (rs : List (Option W32)) : ∀ q ∈ (rs.take 40).zipIdx, q.2 < 40 := by
  intro q hq
  have := List.snd_lt_of_mem_zipIdx hq
  rw [List.length_take] at this
  omega

theorem keepRatio_frame (d : Dev) : keepRatio d = { d with
    pow := { d.pow with ratioNum := (keepRatio d).pow.ratioNum, ratioDen := (keepRatio d).pow.ratioDen } } := by
  unfold keepRatio
  split
  · rfl
  · split
    · split <;> rfl
    · rfl

theorem windowEffect_seq (rs : List (Option W32)) (d : Dev) : (windowEffect rs d).seq = d.seq := by
  rw [windowEffect, reportMax_seq, keepRatio_frame]
  exact readings_seq (zipIdx_lt rs) d

/-- A count of zero fails its monitor (R45). -/
theorem monitorWindow_zero {i : Nat} {rs : List (Option W32)} {s : State} (hc : Calm s) (hi : i < 40) (hz : rs[i]? = some none)
    (hm : (rd s.m OD.monitorFailed).testBit i = false) : Completes (.monitorWindow rs) s (fun d =>
      (rd d OD.monitorFailed).testBit i = true ∧
      (monitorPort i, ({ id := 0x2111, inst := i, detail0 := 0, details := [] } : Event)) ∈ d.ev.raised) := by
  obtain ⟨a, b, rfl, rfl⟩ : ∃ a b, rs = a ++ none :: b ∧ a.length = i := by
    obtain ⟨hlen, hget⟩ := List.getElem?_eq_some_iff.1 hz
    refine ⟨rs.take i, rs.drop (i + 1), ?_, by simp; omega⟩
    rw [← hget, List.cons_getElem_drop_succ, List.take_append_drop]
  have hzip : ((a ++ none :: b).take 40).zipIdx =
      a.zipIdx ++ (none, a.length) :: (b.take (39 - a.length)).zipIdx (a.length + 1) := by
    rw [List.take_append, List.take_of_length_le hi.le, show 40 - a.length = 39 - a.length + 1 by omega, List.take_succ_cons,
      List.zipIdx_append, List.zipIdx_cons, Nat.zero_add]
  have hbefore : ∀ q ∈ a.zipIdx, q.2 < 40 ∧ a.length ≠ q.2 := by
    intro q hq
    have := List.snd_lt_of_mem_zipIdx hq
    omega
  have hafter : ∀ q ∈ (b.take (39 - a.length)).zipIdx (a.length + 1), q.2 < 40 := fun q hq =>
    zipIdx_lt _ q (hzip ▸ List.mem_append_right _ (List.mem_cons_of_mem _ hq))
  have hread := readings_zero hbefore hi hafter hm
  rw [← hzip] at hread
  refine completes_onDev hc (exec_monitorWindow ..) rfl (windowEffect_seq ..) ⟨?_, ?_⟩
  · rw [windowEffect, rd_reportMax_other _ (by decide), keepRatio_frame]
    exact hread.1
  · refine mem_reportMax_raised _ ?_
    rw [keepRatio_frame]
    exact hread.2

/-! ## A window in which every monitor counts, and no die has a model -/

theorem monitorDie_lt {i : Nat} (hi : i < 40) : monitorDie i < 6 := by
  unfold monitorDie
  split <;> omega

/-- A reading that no model contradicts is kept. -/
theorem monitorReading_quiet {i : Nat} {w : W32} {x : ℚ} {d : Dev} (hi : i < 40) (h : monitorFailed d i = false)
    (hw : ratOf w = some x) (hm : dieModel d (monitorDie i) = none) : monitorReading i (some w) d = readingCounted i w d := by
  have hmodel : dieModel (wr (monitorKey i) w.toNat d) (monitorDie i) = none :=
    (dieModel_congr (fun k hk => rd_wr_other _ d fun he => monitorKey_not_die i hi (by rwa [he])) (monitorDie_lt hi)).trans hm
  have hdev : deviating i w d = false := by rw [deviating, hw, hmodel]
  rw [monitorReading_some h, hdev]
  rfl

/-- The first n monitors have been read. -/
structure ReadUpTo (r : Nat → W32) (n : Nat) (d d' : Dev) : Prop where
  kept : ∀ i < n, rd d' (monitorKey i) = (r i).toNat
  others : ∀ k, (∀ i < n, k ≠ monitorKey i) → rd d' k = rd d k
  rest : d' = { d with od := d'.od, pow := { d.pow with deviating := d'.pow.deviating } }

section Quiet
variable {r : Nat → W32} {x : Nat → ℚ} {d : Dev} (hx : ∀ i < 40, ratOf (r i) = some (x i)) (hm : rd d OD.monitorFailed = 0)
  (hd : ∀ die < 6, dieModel d die = none)
include hx hm hd

theorem readUpTo_readings {n : Nat} (hn : n ≤ 40) :
    ReadUpTo r n d (readings ((List.range n).map fun i => (some (r i), i)) d) := by
  induction n with
  | zero => exact ⟨by simp, fun _ _ => rfl, rfl⟩
  | succ n ih =>
    obtain ⟨hkept, hothers, hrest⟩ := ih (by omega)
    generalize he : readings ((List.range n).map fun i => (some (r i), i)) d = e at hkept hothers hrest
    have hn40 : n < 40 := by omega
    have hpace (k : Nat) (hk : k ∈ paceKeys) : rd e k = rd d k :=
      hothers k fun i hi h => monitorKey_not_pace i (by omega) (h ▸ hk)
    have hfail : monitorFailed e n = false := by rw [monitorFailed, hpace _ (by decide), hm, Nat.zero_testBit]
    have hmodel : dieModel e (monitorDie n) = none :=
      (dieModel_congr (fun k hk => hothers k fun i hi h => monitorKey_not_die i (by omega) (h ▸ hk)) (monitorDie_lt hn40)).trans
        (hd _ (monitorDie_lt hn40))
    have hstep : readings ((List.range (n + 1)).map fun i => (some (r i), i)) d = readingCounted n (r n) e := by
      rw [← monitorReading_quiet hn40 hfail (hx n hn40) hmodel, ← he, List.range_succ, List.map_append]
      exact List.foldl_append ..
    have hrd (k : Nat) : rd (readingCounted n (r n) e) k = if monitorKey n = k then (r n).toNat else rd e k := rd_wr _ _ _ _
    rw [hstep]
    refine ⟨fun i hi => ?_, fun k hk => ?_, ?_⟩
    · rw [hrd]
      split
      · next h => rw [monitorKey_inj hn40 (by omega) h]
      · next h => exact hkept i (Nat.lt_of_le_of_ne (by omega) fun h' => h (h' ▸ rfl))
    · rw [hrd, if_neg (Ne.symm (hk n (by omega)))]
      exact hothers k fun i hi => hk i (by omega)
    · rw [readingCounted, hrest]
      rfl

end Quiet

theorem zipIdx_window (r : Nat → W32) :
    (((List.range 40).map fun i => some (r i)).take 40).zipIdx = (List.range 40).map fun i => (some (r i), i) := by
  apply List.ext_getElem <;> simp

theorem rearmed_eq (x : ℚ) (d : Dev) (h : reportedMax x d = x) : rearmed x d =
    (if x < ratBits (rd d OD.stepLimit) then true else if ratBits (rd d OD.stepLimit) < x then false else d.pow.limitArmed) := by
  rw [rearmed, h]
  rcases lt_trichotomy x (ratBits (rd d OD.stepLimit)) with hl | hl | hl
  · simp [hl]
  · simp [← hl]
  · simp [hl, hl.not_gt, hl.ne']

/-- Where nothing lowered raises the maximum, the monitor's own reading is reported. -/
theorem reportMax_measured {d : Dev} {i : Nat} {x : ℚ} (h : largestReading d = some (i, x)) (hmax : reportedMax x d = x) (hi : i < 40) :
    rd (reportMax d) OD.stepMaxSource = i ∧ rd (reportMax d) OD.stepMax = rd d (monitorKey i) ∧
    rd (reportMax d) OD.stepMaxPeak =
      (if ratBits (rd d OD.stepMaxPeak) < x then rd d (monitorKey i) else rd d OD.stepMaxPeak) ∧
    (reportMax d).ev.raised = d.ev.raised ++
      (if ratBits (rd d OD.stepLimit) < x ∧ d.pow.limitArmed = true then [limitEvent i] else []) ∧
    (reportMax d).pow.limitArmed = (if x < ratBits (rd d OD.stepLimit) then true
      else if ratBits (rd d OD.stepLimit) < x then false else d.pow.limitArmed) := by
  have hword : reportedWord i x d = rd d (monitorKey i) := if_pos hmax
  have hrd (k : Nat) : rd (reportMax d) k = rd (reportedObjects i x d) k := by rw [reportMax_eq h]; rfl
  have hmod : i % 2 ^ 28 = i := Nat.mod_eq_of_lt (by omega)
  simp only [hrd, rd_reportedObjects, hword, hmax]
  rw [reportMax_eq h, ← rearmed_eq x d hmax]
  refine ⟨by simp, by simp, by simp, ?_, rfl⟩
  simp only [crossing, hmax, hmod, limitEvent]

/-- A window without zero counts (R43, R44, R46). -/
theorem monitorWindow_clause {r : Nat → W32} {x : Nat → ℚ} {s : State} (hc : Calm s) (hx : ∀ i < 40, ratOf (r i) = some (x i))
    (hm : rd s.m OD.monitorFailed = 0) (hd : ∀ die < 6, dieModel s.m die = none) (hrail : s.m.pow.rail ≤ inForce s.m) :
    Completes (.monitorWindow ((List.range 40).map (fun i => some (r i)))) s (fun d =>
      (∀ i < 40, rd d (monitorKey i) = (r i).toNat) ∧
      ∃ j < 40, (∀ i < 40, x i ≤ x j) ∧ (∀ i < j, x i < x j) ∧ rd d OD.stepMaxSource = j ∧
        rd d OD.stepMax = (r j).toNat ∧
        rd d OD.stepMaxPeak = (if ratBits (rd s.m OD.stepMaxPeak) < x j then (r j).toNat else rd s.m OD.stepMaxPeak) ∧
        d.ev.raised = s.m.ev.raised ++
          (if ratBits (rd s.m OD.stepLimit) < x j ∧ s.m.pow.limitArmed = true then [limitEvent j] else []) ∧
        d.pow.limitArmed = (if x j < ratBits (rd s.m OD.stepLimit) then true
          else if ratBits (rd s.m OD.stepLimit) < x j then false else s.m.pow.limitArmed) ∧
        d.pow.loweredTo = none ∧ d.mem = s.m.mem ∧ d.hv = s.m.hv) := by
  obtain ⟨hkept, hothers, hrest⟩ := readUpTo_readings hx hm hd le_rfl
  rw [← zipIdx_window] at hkept hothers hrest
  generalize he : readings (((List.range 40).map fun i => some (r i)).take 40).zipIdx s.m = e at hkept hothers hrest
  let f := windowRead e
  have hpace (k : Nat) (hk : k ∈ paceKeys) : rd f k = rd s.m k := hothers k fun i hi h => monitorKey_not_pace i hi (h ▸ hk)
  have hf : f = { s.m with od := e.od, pow := { s.m.pow with loweredTo := none, deviating := e.pow.deviating } } := by
    rw [show f = windowRead e from rfl, windowRead, hrest]
  have hpow : f.pow = { s.m.pow with loweredTo := none, deviating := e.pow.deviating } := by rw [hf]
  have hmeasured (i : Nat) (hi : i ≤ 39) : measured f (monitorKey i) = some (x i) := by
    have hi40 : i < 40 := by omega
    rw [measured, show rd f (monitorKey i) = (r i).toNat from hkept i hi40, BitVec.ofNat_toNat, BitVec.setWidth_eq]
    exact hx i hi40
  obtain ⟨j, hj, hlargest, hle, hlt⟩ := largestOf_range hmeasured
  have hj40 : j < 40 := by omega
  rw [← largestReading_eq] at hlargest
  have hratio : keepRatio f = f := by
    have hmodel : dieModel f (monitorDie j) = none :=
      (dieModel_congr (fun k hk => hothers k fun i hi h => monitorKey_not_die i hi (h ▸ hk)) (monitorDie_lt hj40)).trans
        (hd _ (monitorDie_lt hj40))
    rw [keepRatio, hlargest]
    simp only [hmodel]
  have hforce : inForce f = inForce s.m := by
    simp only [inForce, hpace _ (show OD.supplySetpoint ∈ paceKeys by decide), hpace _ (show OD.thermalCap ∈ paceKeys by decide),
      hpace _ (show OD.powerCap ∈ paceKeys by decide), hpow]
  have hmax : reportedMax (x j) f = x j := by
    have hdown : loweringTo f = none := by
      rw [loweringTo, setpointNow_eq, hforce, hpow]
      exact if_neg (Nat.not_lt.2 hrail)
    rw [reportedMax, hdown]
    cases hottestDie f <;> rfl
  obtain ⟨hsource, hmaximum, hpeak, hraised, harmed⟩ := reportMax_measured hlargest hmax hj40
  have heffect : windowEffect ((List.range 40).map fun i => some (r i)) s.m = reportMax f := by rw [windowEffect, he, hratio]
  refine completes_onDev hc (exec_monitorWindow ..) heffect ?_
    ⟨fun i hi => ?_, j, hj40, fun i hi => hle i (by omega), hlt, hsource, ?_, ?_, ?_, ?_, ?_, ?_, ?_⟩
  · rw [reportMax_seq, hf]
  · have hi' : monitorKey i ∉ maxKeys := fun h => monitorKey_not_pace i hi (List.mem_append_right _ h)
    rw [rd_reportMax_other _ hi']
    exact hkept i hi
  · exact hmaximum.trans (hkept j hj40)
  · rw [hpeak, hpace _ (by decide), show rd f (monitorKey j) = (r j).toNat from hkept j hj40]
  · rw [hraised, hpace _ (by decide), hf]
  · rw [harmed, hpace _ (by decide), hf]
  · rw [reportMax_loweredTo, hpow]
  · rw [reportMax_mem, hf]
  · rw [reportMax_hv, hf]

theorem rampWindowAndTickPart : Claims.RampWindowAndTickPart :=
  ⟨fun delta s hc => ⟨setpointRamp_clause delta s hc, setpointRamp_rest hc⟩,
   fun _ _ _ hc hx hm hd hrail => monitorWindow_clause hc hx hm hd hrail,
   fun _ _ _ hc hi hz hm => monitorWindow_zero hc hi hz hm,
   tick_clause⟩

/-- Settles O18: the setpoint written, its ramp, the monitors' windows and a tick (R38-R40, R43-R46, R62). That a lowering is reported at
once, and that SupplyMeasured follows the rails, is log entry 104. -/
theorem supplySetpoint : Obligations.SupplySetpoint :=
  ⟨supplySetpointWritePart, loweringIsReportedAtOncePart, rampWindowAndTickPart⟩

end Sys2Proof.Machine
end

section
/-!
PROOFS. Refutations of the statements about power and about the start of functions, each by a state on which one clause fails.
-/

namespace Sys2Proof.Machine

/-- A powered module whose sequencer is COMMITTING: the record of a queued matrix operation, at 64, lies in a shadow region. -/
def committingWithOperation : State :=
  { State.reset with m := { Dev.reset with
    pow := { PowerState.reset with pwrEn := true, pwrGood := true, hotSwap := true }
    seq := { StepState.reset with st := .committing, regions := [⟨0, 4096, 8192, 16384, false⟩] }
    units := [(0, { queue := [{ words := List.replicate 14 0 ++ [64], by_ := ⟨0, 0, 0, 0, 0, 0⟩ }], run := none })] } }

/-- The fence of its power-down completes the operation, and so writes the record. -/
theorem pwrEnRelease_reaches : (pwrEnRelease committingWithOperation.m).seq.reached = true := by decide +kernel

theorem pwrEnRelease_waits : Becomes .pwrEnRelease committingWithOperation committingWithOperation.m :=
  onDev_held pwrEnRelease_reaches

/-- Refutes O46: PWR_EN_RELEASE does not always begin a power-down. The fence of a power-down completes the queued operations (R612,
R519); where the sequencer is COMMITTING and the record of one of them lies in a shadow region, the write of that record is held
(R434), and the command waits with it (log entry 128). The clauses with GoesOff lack a premise that no such write is held. -/
theorem not_powerAndThermal : ¬ Obligations.PowerAndThermal := by
  rintro ⟨-, -, -, -, -, -, -, -, -, -, -, release⟩
  have begins := (release committingWithOperation ⟨rfl, rfl⟩).1 rfl rfl
  obtain ⟨-, off⟩ := completes_at begins pwrEnRelease_waits
  exact absurd off.down (by decide)

/-- A module whose HBM function is in its start, with no line initialised yet, when the die that holds line 0 stops answering. -/
def initialisingWithLostDie : State :=
  { State.reset with m := dieLoss 0 0 true { Dev.reset with od := [(OD.readyHbm, RS.init + 1 * 2 ^ 8)] } }

theorem hbmInitialised_becomes :
    Becomes .hbmInitialised initialisingWithLostDie (hbmInitialised initialisingWithLostDie.m) :=
  onDev_calm rfl hbmInitialised (by decide)

/-- The range of the lost die still reads as poison. -/
theorem hbmInitialised_poisoned : poisoned (hbmInitialised initialisingWithLostDie.m).mem 0 = true := by decide +kernel

/-- Refutes O47: after HBM_INITIALISED not every line of HBM is free of poison. The range of a lost die reads as poison until software
writes its lines again (R267), and the initialisation of R629 ends no such poison in the model; the clause lacks a premise that no
die is lost. -/
theorem not_startOfFunctions : ¬ Obligations.StartOfFunctions := by
  rintro ⟨-, -, -, -, -, initialised, -⟩
  have writes := (initialised initialisingWithLostDie ⟨rfl, rfl⟩).1 (by decide) (by decide) rfl
  obtain ⟨-, clean, -⟩ := completes_at writes hbmInitialised_becomes
  have free : poisoned (hbmInitialised initialisingWithLostDie.m).mem 0 = false := clean 0 (by decide)
  simp [hbmInitialised_poisoned] at free

end Sys2Proof.Machine
end

section
/-!
SUPPORT. Events that are added to those raised before, what a function's report does to its object, and a command whose effect leaves no
access held.
-/

namespace Sys2Proof.Machine

open Claims (Raises Reports)

/-- A command on a calm device has its effect, if that effect holds no access. -/
theorem completes_unheld {c : Instr} {s : State} {f : Dev → Dev} {P : Dev → Prop} (hc : Calm s) (he : exec c s = onDev f s)
    (hr : (f s.m).seq.reached = s.m.seq.reached) (hP : P (f s.m)) : Completes c s P :=
  ⟨f s.m, he.trans (onDev_calm hc.holds f (hr.trans hc.reached)), hP⟩

theorem mget_mset {α : Type} {d x : α} {m : Map α} {i j : Nat} : mget d (mset m i x) j = if i = j then x else mget d m j := by
  rw [mget, mfind_mset]
  split <;> rfl

/-! ## Events -/

section Raises
variable {es : List (Nat × Event)} {d d' d'' : Dev}

theorem raises_of_ev (h : d'.ev = d.ev) : Raises [] d d' := ⟨[], by simp [h], by simp⟩

theorem Raises.later (h : Raises es d d') (h' : Raises [] d' d'') : Raises es d d'' := by
  obtain ⟨l, hl, hes⟩ := h
  obtain ⟨l', hl', -⟩ := h'
  exact ⟨l ++ l', by rw [hl', hl, List.append_assoc], fun e he => List.mem_append_left _ (hes e he)⟩

theorem Raises.earlier (h : Raises [] d d') (h' : Raises es d' d'') : Raises es d d'' := by
  obtain ⟨l, hl, -⟩ := h
  obtain ⟨l', hl', hes⟩ := h'
  exact ⟨l ++ l', by rw [hl', hl, List.append_assoc], fun e he => List.mem_append_right _ (hes e he)⟩

theorem raises_raise (port id inst detail0 : Nat) (d : Dev) (h : detail0 < 2 ^ 28) :
    Raises [Claims.ev port id inst detail0 []] d (raise port id inst detail0 [] d) :=
  ⟨[Claims.ev port id inst detail0 []], by rw [raise, Nat.mod_eq_of_lt h]; rfl, by simp⟩

end Raises

/-! ## Readiness -/

/-- The word of a readiness object (R571). -/
def readyWord (state reason count : Nat) : Nat := state + reason * 2 ^ 8 + count * 2 ^ 16

section ReadyWord
variable {state reason count : Nat} (hs : state < 8) (hr : reason < 256)
include hs

theorem readyWord_state : nfld (readyWord state reason count) 2 0 = state := by
  simp only [nfld, readyWord, Nat.shiftRight_zero]
  omega

include hr

theorem readyWord_reason : nfld (readyWord state reason count) 15 8 = reason := by
  simp only [nfld, readyWord, Nat.shiftRight_eq_div_pow]
  omega

theorem readyWord_count : nfld (readyWord state reason count) 31 16 = count % 2 ^ 16 := by
  simp only [nfld, readyWord, Nat.shiftRight_eq_div_pow]
  omega

end ReadyWord

theorem readyState_lt (d : Dev) (f : FunctionKey) : readyState d f < 8 := Nat.mod_lt _ (by decide)
theorem readyCount_lt (d : Dev) (f : FunctionKey) : readyCount d f < 2 ^ 16 := Nat.mod_lt _ (by decide)

section SetReady
variable (f state reason : Nat) (d : Dev)

/-- TRANSITIONS after a report of a state (R571). -/
def countAfter : Nat := if readyState d f = state then readyCount d f else (readyCount d f + 1) % 2 ^ 16

/-- A report of a state and a reason: the object's word, and EV_2001 where the state changes. -/
theorem setReady_eq : setReady f state reason d =
    if readyState d f = state then wr f (readyWord state reason (countAfter f state d)) d
    else raise (readyPort f) 0x2001 0 (readyState d f * 2 ^ 24 + f) [readyWord state reason (countAfter f state d)]
      (wr f (readyWord state reason (countAfter f state d)) d) := by
  simp only [setReady, countAfter]
  split <;> rfl

theorem rd_setReady (k : Nat) : rd (setReady f state reason d) k =
    if f = k then readyWord state reason (countAfter f state d) else rd d k := by
  rw [setReady_eq]
  split
  · exact rd_wr ..
  · exact (rd_raise ..).trans (rd_wr ..)

theorem setReady_frame : setReady f state reason d =
    { d with od := (setReady f state reason d).od, ev := (setReady f state reason d).ev } := by
  rw [setReady_eq]
  split <;> rfl

theorem raises_setReady : Raises [] d (setReady f state reason d) := by
  rw [setReady_eq]
  split
  · exact raises_of_ev rfl
  · exact ⟨_, rfl, by simp⟩

/-- A function's report is what R571 and R572 say of it. -/
theorem reports_setReady (hs : state < 8) (hr : reason < 256) (hf : f < 2 ^ 24) : Reports f state reason d (setReady f state reason d) := by
  have hrd : rd (setReady f state reason d) f = readyWord state reason (countAfter f state d) := by rw [rd_setReady, if_pos rfl]
  have hcount : countAfter f state d < 2 ^ 16 := by
    have := readyCount_lt d f
    unfold countAfter
    split <;> omega
  refine ⟨?_, ?_, ?_, fun hne => ?_⟩
  · rw [readyState, hrd, readyWord_state hs]
  · rw [readyReason, hrd, readyWord_reason hs hr]
  · rw [readyCount, hrd, readyWord_count hs hr, Nat.mod_eq_of_lt hcount, countAfter]
  · rw [hrd, setReady_eq, if_neg hne]
    have := readyState_lt d f
    have hd : (readyState d f * 2 ^ 24 + f) % 2 ^ 28 = readyState d f * 2 ^ 24 + f := Nat.mod_eq_of_lt (by omega)
    exact ⟨[Claims.ev (readyPort f) 0x2001 0 (readyState d f * 2 ^ 24 + f) [readyWord state reason (countAfter f state d)]],
      by rw [raise, hd]; rfl, by simp⟩

end SetReady

/-- A report after something that left the function's object as it was and only added events. -/
theorem Reports.earlier {f : FunctionKey} {state reason : Nat} {d d' d'' : Dev} (hf : rd d' f = rd d f) (hev : Raises [] d d')
    (h : Reports f state reason d' d'') : Reports f state reason d d'' := by
  have hstate : readyState d' f = readyState d f := by rw [readyState, hf, readyState]
  have hcount : readyCount d' f = readyCount d f := by rw [readyCount, hf, readyCount]
  obtain ⟨h1, h2, h3, h4⟩ := h
  rw [hstate, hcount] at h3
  rw [hstate] at h4
  exact ⟨h1, h2, h3, fun hne => Raises.earlier hev (h4 hne)⟩

end Sys2Proof.Machine
end

section
/-!
PROOFS. The link state of an edge port in the PCIe role, and PERST_N (R388, R628).
-/

namespace Sys2Proof.Machine

open Claims (Raises Reports)

theorem exec_edgeLinkStateChange (e state r w : Nat) (h : Bool) (s : State) :
    exec (.edgeLinkStateChange e state (r, w) h) s = onDev (edgeLink e state r w h) s := rfl

/-! ## EdgeLinkState (R393, R394) -/

section SetEdgeLink
variable (e v : Nat) (d : Dev)

theorem rd_setEdgeLink (k : Nat) : rd (setEdgeLink e v d) k = if OD.edgeLinkState + e = k then v else rd d k := by
  unfold setEdgeLink
  dsimp only
  split
  · exact (rd_raise ..).trans (rd_wr ..)
  · exact rd_wr ..

theorem setEdgeLink_frame : setEdgeLink e v d = { d with od := (setEdgeLink e v d).od, ev := (setEdgeLink e v d).ev } := by
  unfold setEdgeLink
  dsimp only
  split <;> rfl

theorem raises_setEdgeLink : Raises [] d (setEdgeLink e v d) := by
  unfold setEdgeLink
  dsimp only
  split
  · exact ⟨_, rfl, by simp⟩
  · exact raises_of_ev rfl

/-- A link that goes down or comes up raises EV_3120. -/
theorem setEdgeLink_changes (h : (nfld (rd d (OD.edgeLinkState + e)) 2 0 = 2) ≠ (nfld v 2 0 = 2)) :
    Raises [Claims.ev (8 + e) 0x3120 e 0 []] d (setEdgeLink e v d) := by
  unfold setEdgeLink
  dsimp only
  rw [if_pos h]
  exact Raises.earlier (raises_of_ev rfl) (raises_raise _ _ _ _ _ (by decide))

end SetEdgeLink

/-! ## A change of the link state -/

/-- What a change of an edge port's link state makes of the device: the word of EdgeLinkState, D3hot, AER, and the port's report. -/
def edgeLinkTo (e word : Nat) (d3hot : Bool) (aer : Map Nat) (state reason : Nat) (d : Dev) : Dev :=
  let x := setEdgeLink e word d
  setReady (edgeFn e) state reason { x with pow := { x.pow with d3hot := mput false x.pow.d3hot e d3hot, aer := aer } }

section EdgeLinkTo
variable {e : Nat} (he : e < 2) (word : Nat) (d3hot : Bool) (aer : Map Nat) (state reason : Nat) (d : Dev)

theorem edgeFn_ne_edgeLinkState : edgeFn e ≠ OD.edgeLinkState + e := by
  show 0x200401 + e ≠ 0x312003 + e
  omega

theorem rd_edgeLinkTo : rd (edgeLinkTo e word d3hot aer state reason d) (OD.edgeLinkState + e) = word := by
  rw [edgeLinkTo, rd_setReady, if_neg edgeFn_ne_edgeLinkState]
  exact (rd_setEdgeLink e word d _).trans (if_pos rfl)

theorem edgeLinkTo_pow : (edgeLinkTo e word d3hot aer state reason d).pow =
    { d.pow with d3hot := mput false d.pow.d3hot e d3hot, aer := aer } := by
  rw [edgeLinkTo, setReady_frame, setEdgeLink_frame]

theorem edgeLinkTo_seq : (edgeLinkTo e word d3hot aer state reason d).seq = d.seq := by
  rw [edgeLinkTo, setReady_frame, setEdgeLink_frame]

include he in
theorem reports_edgeLinkTo (hs : state < 8) (hr : reason < 256) :
    Reports (edgeFn e) state reason d (edgeLinkTo e word d3hot aer state reason d) := by
  have hf : edgeFn e < 2 ^ 24 := by
    show 0x200401 + e < 2 ^ 24
    omega
  rw [edgeLinkTo]
  refine Reports.earlier ?_ (Raises.later (raises_setEdgeLink e word d) (raises_of_ev ?_)) (reports_setReady (edgeFn e) _ _ _ hs hr hf)
  case refine_2 => rfl
  exact (rd_setEdgeLink e word d _).trans (if_neg edgeFn_ne_edgeLinkState.symm)

theorem edgeLinkTo_changes (h : (nfld (rd d (OD.edgeLinkState + e)) 2 0 = 2) ≠ (nfld word 2 0 = 2)) :
    Raises [Claims.ev (8 + e) 0x3120 e 0 []] d (edgeLinkTo e word d3hot aer state reason d) :=
  Raises.later (setEdgeLink_changes e word d h) (Raises.later (raises_of_ev rfl) (raises_setReady _ _ _ _))

end EdgeLinkTo

theorem linkFormed_iff {r w : Nat} : linkFormed r w = true ↔ 1 ≤ r ∧ r ≤ 6 ∧ w ∈ [4, 8, 16] := by
  simp [linkFormed, and_assoc]

/-- The word of a link that is up, at a rate and width of R388. -/
theorem linkWord_eq {r w : Nat} (h : 1 ≤ r ∧ r ≤ 6 ∧ w ∈ [4, 8, 16]) : linkWord r w = 2 + r * 2 ^ 3 + w * 2 ^ 6 := by
  obtain ⟨-, hr, hw⟩ := h
  have : w < 32 := by
    simp only [List.mem_cons, List.not_mem_nil, or_false] at hw
    omega
  rw [linkWord, Nat.mod_eq_of_lt (by omega), Nat.mod_eq_of_lt this]

theorem linkWord_up (r w : Nat) : nfld (linkWord r w) 2 0 = 2 := by
  simp only [nfld, linkWord, Nat.shiftRight_zero]
  omega

section EdgeLink
variable {e r w : Nat} {h : Bool} {d : Dev}

theorem edgeLink_otherRole (hrole : edgeRoleOf d e ≠ 1) (state : Nat) : edgeLink e state r w h d = d := by
  rw [edgeLink, if_pos (.inr (.inl hrole))]

theorem edgeLink_refused (hno : ¬(1 ≤ r ∧ r ≤ 6 ∧ w ∈ [4, 8, 16]) ∨ mget false d.pow.perst e = true) : edgeLink e 2 r w h d = d := by
  have : mget false d.pow.perst e = true ∨ (!linkFormed r w) = true := by
    rw [Bool.not_eq_true', ← Bool.not_eq_true, linkFormed_iff]
    exact hno.symm
  rw [edgeLink, if_pos (.inr (.inr (.inr (.inr ⟨rfl, this⟩))))]

variable (he : e < 2) (hrole : edgeRoleOf d e = 1)
include he hrole

theorem edgeLink_up (hformed : 1 ≤ r ∧ r ≤ 6 ∧ w ∈ [4, 8, 16]) (hdie : works d (linkDieFn e) = true)
    (hperst : mget false d.pow.perst e = false) :
    edgeLink e 2 r w h d = edgeLinkTo e (linkWord r w) h d.pow.aer RS.ready 0 d := by
  have hlink := linkFormed_iff.2 hformed
  rw [edgeLink, if_neg (by simp [hrole, hdie, hperst, hlink, he]), edgeLinkTo]
  simp only [if_pos, decide_true, Bool.true_and]
  rw [setEdgeLink_frame]

theorem edgeLink_down : edgeLink e 0 r w h d = edgeLinkTo e 0 false (mput 0 d.pow.aer e 0) RS.init 1 d := by
  rw [edgeLink, if_neg (by simp [hrole, he]), edgeLinkTo]
  simp only [show ¬(0 : Nat) = 2 by decide, if_false, decide_false, Bool.false_and]
  rw [setEdgeLink_frame]

end EdgeLink

section EdgeClauses
variable {e r w : Nat} {h : Bool} {s : State} (hc : Calm s) (he : e < 2) (hrole : edgeRoleOf s.m e = 1)
include hc he hrole

theorem edgeLinkStateChange_up (hformed : 1 ≤ r ∧ r ≤ 6 ∧ w ∈ [4, 8, 16]) (hdie : works s.m (linkDieFn e) = true)
    (hperst : mget false s.m.pow.perst e = false) : Completes (.edgeLinkStateChange e 2 (r, w) h) s (fun d =>
      rd d (OD.edgeLinkState + e) = 2 + r * 2 ^ 3 + w * 2 ^ 6 ∧ Reports (edgeFn e) RS.ready 0 s.m d ∧
      mget false d.pow.d3hot e = h ∧ mget 0 d.pow.aer e = mget 0 s.m.pow.aer e ∧
      (nfld (rd s.m (OD.edgeLinkState + e)) 2 0 ≠ 2 → Raises [Claims.ev (8 + e) 0x3120 e 0 []] s.m d)) := by
  refine completes_onDev hc (exec_edgeLinkStateChange ..) (edgeLink_up he hrole hformed hdie hperst) (edgeLinkTo_seq ..)
    ⟨?_, reports_edgeLinkTo he _ _ _ _ _ _ (by decide) (by decide), ?_, ?_, fun hdown => edgeLinkTo_changes _ _ _ _ _ _ ?_⟩
  · rw [rd_edgeLinkTo, linkWord_eq hformed]
  · rw [edgeLinkTo_pow, mget_mput, if_pos rfl]
  · rw [edgeLinkTo_pow]
  · simp [hdown, linkWord_up]

theorem edgeLinkStateChange_down : Completes (.edgeLinkStateChange e 0 (r, w) h) s (fun d =>
    rd d (OD.edgeLinkState + e) = 0 ∧ Reports (edgeFn e) RS.init 1 s.m d ∧
    mget false d.pow.d3hot e = false ∧ mget 0 d.pow.aer e = 0 ∧
    (nfld (rd s.m (OD.edgeLinkState + e)) 2 0 = 2 → Raises [Claims.ev (8 + e) 0x3120 e 0 []] s.m d)) := by
  refine completes_onDev hc (exec_edgeLinkStateChange ..) (edgeLink_down he hrole) (edgeLinkTo_seq ..)
    ⟨rd_edgeLinkTo .., reports_edgeLinkTo he _ _ _ _ _ _ (by decide) (by decide), ?_, ?_,
      fun hup => edgeLinkTo_changes _ _ _ _ _ _ ?_⟩
  · rw [edgeLinkTo_pow, mget_mput, if_pos rfl]
  · rw [edgeLinkTo_pow, mget_mput, if_pos rfl]
  · simp [hup, show nfld 0 2 0 = 0 by decide]

end EdgeClauses

/-! ## PERST_N -/

/-- The effect of FUNDAMENTAL_RESET on a port in the PCIe role. -/
def perstTo (e : Nat) (asserted : Bool) (d : Dev) : Dev := { d with pow := { d.pow with perst := mput false d.pow.perst e asserted } }

theorem perst_perstTo (e : Nat) (asserted : Bool) (d : Dev) : mget false (perstTo e asserted d).pow.perst e = asserted := by
  rw [perstTo, mget_mput, if_pos rfl]

/-- The effect of FUNDAMENTAL_RESET. -/
def resetEffect (e : Nat) (asserted : Bool) (d : Dev) : Dev :=
  if 2 ≤ e ∨ edgeRoleOf d e ≠ 1 then d else perstTo e asserted (if asserted then edgeLink e 0 0 0 false d else d)

theorem exec_fundamentalReset (e : Nat) (asserted : Bool) (s : State) :
    exec (.fundamentalReset e asserted) s = onDev (resetEffect e asserted) s := rfl

section Perst
variable {e : Nat} {s : State} (hc : Calm s)
include hc

theorem fundamentalReset_otherRole (hrole : edgeRoleOf s.m e ≠ 1) (b : Bool) : Becomes (.fundamentalReset e b) s s.m :=
  becomes_onDev hc (exec_fundamentalReset e b s) (if_pos (.inr hrole)) rfl

variable (he : e < 2) (hrole : edgeRoleOf s.m e = 1)
include he hrole

theorem fundamentalReset_asserted : Completes (.fundamentalReset e true) s (fun d => mget false d.pow.perst e = true ∧
    rd d (OD.edgeLinkState + e) = 0 ∧ Reports (edgeFn e) RS.init 1 s.m d) := by
  have heffect : resetEffect e true s.m = perstTo e true (edgeLinkTo e 0 false (mput 0 s.m.pow.aer e 0) RS.init 1 s.m) := by
    rw [resetEffect, if_neg (by simp [hrole, he]), if_pos rfl, edgeLink_down he hrole]
  obtain ⟨hstate, hreason, hcount, hevent⟩ := reports_edgeLinkTo he 0 false (mput 0 s.m.pow.aer e 0) RS.init 1 s.m (by decide) (by decide)
  exact completes_onDev hc (exec_fundamentalReset ..) heffect (edgeLinkTo_seq ..)
    ⟨perst_perstTo .., rd_edgeLinkTo .., hstate, hreason, hcount, hevent⟩

theorem fundamentalReset_released : Completes (.fundamentalReset e false) s (fun d => mget false d.pow.perst e = false ∧
    d.od = s.m.od) := by
  have heffect : resetEffect e false s.m = perstTo e false s.m := if_neg (by simp [hrole, he])
  exact completes_onDev hc (exec_fundamentalReset ..) heffect rfl ⟨perst_perstTo .., rfl⟩

end Perst

end Sys2Proof.Machine
end

section
/-!
SUPPORT. Operations in the list of outstanding ones, the pages that an access reaches, and what a check at a link die records
(R296-R300, R321, R359).
-/

namespace Sys2Proof.Machine

open Claims (Raises)

/-! ## Global addresses (R286) -/

section Address
variable {dev a : Nat}

theorem gLocal_gAddr (ha : a < 2 ^ 49) : gLocal (gAddr dev a) = a := by
  rw [gLocal, gAddr]
  omega

theorem gDev_gAddr (hdev : dev < 2 ^ 15) (ha : a < 2 ^ 49) : gDev (gAddr dev a) = dev := by
  rw [gDev, gAddr]
  omega

end Address

/-! ## Outstanding operations -/

section Ops
variable (id k : Nat) (op : FabOp) (d : Dev)

theorem findOp_setOp : findOp (setOp id op d) k = if id = k then some op else findOp d k := mfind_mset

theorem findOp_removeOp : findOp (removeOp id op d) k = if id = k then none else findOp d k := mfind_mdel

theorem findOp_removeOp_same : findOp (removeOp id op d) id = none := (findOp_removeOp ..).trans (if_pos rfl)

theorem findOp_setOp_same : findOp (setOp id op d) id = some op := (findOp_setOp ..).trans (if_pos rfl)

end Ops

/-- An operation whose final status is fixed is decided once it has begun (R321). -/
theorem decided_of_fixed {op : FabOp} (hb : op.begun = true) (hf : op.fixed = true) : decided op = true := by simp [decided, hb, hf]

theorem finishOp_decided {id : Nat} {op : FabOp} {e : Nat} {d : Dev} (hop : findOp d id = some op) (hd : decided op = true)
    (hu : op.use_ = .hostWrite e) : finishOp id d = endHostWrite id e op d := by
  simp [finishOp, hop, hd, hu]

theorem finishOp_undecided {id : Nat} {op : FabOp} {d : Dev} (hop : findOp d id = some op) (hd : decided op = false) :
    finishOp id d = d := by
  simp [finishOp, hop, hd]

/-! ## Pages (R296-R298) -/

/-- Where a byte of a context goes; its own address where no page matches. -/
def translated (t : List FttEntry) (ctx a : Nat) : Nat := (fttTranslate t ctx a).getD a

section Pages
variable {t : List FttEntry} {ctx a n : Nat} {right : FttEntry → Bool}

theorem translated_eq {e : FttEntry} (h : fttLookup t ctx a = some e) : translated t ctx a = e.tgt * 65536 + a % 2 ^ pageBits e.size := by
  simp [translated, fttTranslate, h]

/-- An extent within 64 KiB is checked at its first byte. -/
theorem fttDenied_within (hn : 1 ≤ n) (hfit : a % 65536 + n ≤ 65536) : fttDenied t ctx right a n =
    match fttLookup t ctx a with
    | some e => if right e then none else some a
    | none => some a := by
  have hcount : (a + n - 1) / 65536 + 1 - a / 65536 = 1 := by omega
  have hfirst : Nat.max a (65536 * (a / 65536)) = a := Nat.max_eq_left (by omega)
  rw [fttDenied, if_neg (by omega), hcount]
  simp only [List.range_one, List.findSome?_cons, List.findSome?_nil, Nat.add_zero, hfirst]
  split <;> rename_i h <;> revert h <;> cases fttLookup t ctx a <;> simp_all

theorem fttDenied_granted {e : FttEntry} (hn : 1 ≤ n) (hfit : a % 65536 + n ≤ 65536) (h : fttLookup t ctx a = some e)
    (hr : right e = true) : fttDenied t ctx right a n = none := by
  rw [fttDenied_within hn hfit, h]
  simp [hr]

theorem fttDenied_lacking (hn : 1 ≤ n) (hfit : a % 65536 + n ≤ 65536) (h : ∀ e, fttLookup t ctx a = some e → right e = false) :
    fttDenied t ctx right a n = some a := by
  rw [fttDenied_within hn hfit]
  cases he : fttLookup t ctx a with
  | none => rfl
  | some e => simp [h e he]

end Pages

/-- While no command of the table is pending, a link die checks against its first copy (R302). -/
theorem fttView_settled {d : Dev} (h : d.tw.fttPending = none) : fttView d = (d.tw.ftt0, d) := by
  simp [fttView, h]

/-- No limit holds for a peer of this generation (R359). -/
theorem peerBreaks_p3 {d : Dev} {x : FabDesc} {tgt : Nat} {count : Bool} (h : peerGen d (gDev tgt) = 3) :
    peerBreaks d x tgt count = false := by
  simp [peerBreaks, h]

theorem payloadOf_p3 {d : Dev} {dev : Nat} (h : peerGen d dev = 3) : payloadOf d dev = 256 := by
  simp [payloadOf, h]

/-- An extent with room at its address is one piece. -/
theorem cutExtent_whole {room : Nat → Nat} {a n : Nat} (hn : 1 ≤ n) (h : n ≤ room a) : cutExtent room n a n = [(a, n)] := by
  obtain ⟨m, rfl⟩ : ∃ m, n = m + 1 := ⟨n - 1, by omega⟩
  have hnone : ∀ fuel b, cutExtent room fuel b 0 = [] := fun fuel b => by cases fuel <;> simp [cutExtent]
  rw [cutExtent, if_neg (by omega)]
  simp only [show Nat.min (m + 1) (room a) = m + 1 from Nat.min_eq_left h, Nat.sub_self, hnone]

/-! ## What a failed check records -/

section Denial
variable (ctx a : Nat) (d : Dev)

theorem raiseRated_frame (key gap port id inst detail0 : Nat) (l : List Nat) (d : Dev) :
    raiseRated key gap port id inst detail0 l d = { d with ev := (raiseRated key gap port id inst detail0 l d).ev } := by
  unfold raiseRated
  split <;> rfl

theorem raises_raiseRated (key gap port id inst detail0 : Nat) (l : List Nat) (d : Dev) :
    Raises [] d (raiseRated key gap port id inst detail0 l d) := by
  unfold raiseRated
  split
  · exact ⟨_, rfl, by simp⟩
  · exact raises_of_ev rfl

theorem recordDenial_frame : recordDenial ctx a d = { d with od := (recordDenial ctx a d).od, ev := (recordDenial ctx a d).ev } := by
  rw [recordDenial, raiseRated_frame]
  rfl

theorem raises_recordDenial : Raises [] d (recordDenial ctx a d) :=
  Raises.earlier (raises_of_ev rfl) (raises_raiseRated ..)

theorem rd_recordDenial (k : Nat) : rd (recordDenial ctx a d) k =
    if OD.lastDenialPage = k then a / 65536 * 65536 else if OD.lastDenialContext = k then ctx
    else if OD.fttDenials = k then (rd d OD.fttDenials + 1) % 2 ^ 64 else rd d k := by
  have h : rd (recordDenial ctx a d) k =
      rd (wr OD.lastDenialPage (a / 65536 * 65536) (wr OD.lastDenialContext ctx (inc OD.fttDenials d))) k := by
    rw [recordDenial, raiseRated_frame]
    rfl
  rw [h, rd_wr, rd_wr, rd_inc]

end Denial

end Sys2Proof.Machine
end

section
/-!
PROOFS. A host's accesses that no function takes, that go to the mailbox, or that reach a member through BAR2; and what completes a
host's reads (R133, R304, R388-R392). That a function in D3hot takes no access, and the bits of AER, are log entry 122; the cutting of
a host's writes is log entry 40.
-/

namespace Sys2Proof.Machine

open Claims (Raises HostOp Counted)

theorem exec_hostBar0Access (e o n : Nat) (w : Option Bytes) (s : State) :
    exec (.hostBar0Access e o n w) s = onDev (hostBar0 e o n w s.log) s := rfl

theorem exec_hostBar2Access (e o n : Nat) (w : Option Bytes) (s : State) :
    exec (.hostBar2Access e o n w) s = onDev (hostBar2 e o n w) s := rfl

theorem exec_hostReadComplete (k : Nat) (s : State) : exec (.hostReadComplete k) s = onDev (hostReadComplete k) s := rfl

/-! ## What each BAR does with an access -/

/-- AER holds an Unsupported Request, and the host is told (R388, log entry 122). -/
def unsupportedNow (e : Nat) (d : Dev) : Dev := { d with
  sent := d.sent ++ [.unsupported e], pow := { d.pow with aer := mput 0 d.pow.aer e (Nat.lor (mget 0 d.pow.aer e) (2 ^ 20)) } }

theorem unsupportedRequest_eq (e : Nat) (d : Dev) : unsupportedRequest e d = unsupportedNow e d := rfl

section Bars
variable {e o n : Nat} {w : Option Bytes} {l : LogStore} {d : Dev}

theorem hostBar0_unlinked (h : hostLinked d e = false) : hostBar0 e o n w l d = d := by simp [hostBar0, h]

theorem hostBar2_unlinked (h : hostLinked d e = false) : hostBar2 e o n w d = d := by simp [hostBar2, h]

variable (h : hostLinked d e = true)
include h

theorem hostBar0_d3hot (hd : mget false d.pow.d3hot e = true) : hostBar0 e o n w l d = unsupportedNow e d := by
  simp [hostBar0, h, hd, unsupportedRequest_eq]

theorem hostBar2_d3hot (hd : mget false d.pow.d3hot e = true) : hostBar2 e o n w d = unsupportedNow e d := by
  simp [hostBar2, h, hd, unsupportedRequest_eq]

theorem hostBar0_noFunction (ho : o < 0x1000000 ∨ (0x2800000 ≤ o ∧ o < 0x3000000) ∨ 0x3010000 ≤ o) :
    hostBar0 e o n w l d = unsupportedNow e d := by
  have hcontrol : ¬(0x1000000 ≤ o ∧ o < 0x2800000) := by omega
  have hmail : ¬(0x3000000 ≤ o ∧ o < 0x3010000) := by omega
  simp [hostBar0, h, hcontrol, hmail, unsupportedRequest_eq]

theorem hostBar2_noFunction (ho : 2 ^ 53 ≤ o) : hostBar2 e o n w d = unsupportedNow e d := by
  rw [hostBar2, if_neg (by simp [h]), if_pos (.inl ho), unsupportedRequest_eq]

variable (hd : mget false d.pow.d3hot e = false)
include hd

theorem hostBar0_control (ho : 0x1000000 ≤ o ∧ o < 0x2800000) : hostBar0 e o n w l d = hostControl e (0x1F00000000000 + o) n w d := by
  simp [hostBar0, h, hd, ho]

theorem hostBar0_mailWrite {v : Bytes} (ho : 0x40 ≤ o) (hfit : o + v.length ≤ 0x8000) :
    hostBar0 e (0x3000000 + o) n (some v) l d = { d with hv := { d.hv with mailIn := bufWrite d.hv.mailIn (o - 0x40) v } } := by
  have hsub : 0x3000000 + o - 0x3000000 = o := by omega
  rw [hostBar0, if_neg (by simp [h]), if_neg (by simp [hd]), if_neg (by omega), if_pos (by omega)]
  simp only [hsub]
  rw [mailWrite, if_neg (by omega), if_pos ⟨ho, hfit⟩]

end Bars

/-! ## An access put in flight -/

/-- The operation that a host's access becomes. -/
def hostRec (e : Nat) (use : OpUse) (x : FabDesc) (pk : List PktRec) (st : Status) (data : Bytes) (after : List Nat) (d : Dev) : FabOp :=
  { desc := x, use_ := use, slot := 10244 + e, epoch := (ctxOf d x.ctx).epoch,
    seq := if use = .hostRead e then readTag d.tw.nextOp else mget 0 d.tw.seqs (10244 + e), sequenced := false,
    pkts := if st = ST.ok then pk else [], begun := true, status := st, fixed := decide (st ≠ ST.ok), bytes := 0, result := 0,
    data, multi := false, counted := false, after }

section HostRec
variable (e : Nat) (x : FabDesc) (pk : List PktRec) (st : Status) (data : Bytes) (after : List Nat) (d : Dev)

theorem hostOp_write : hostOp e (.hostWrite e) x pk st data after d = { d with tw := { d.tw with
    ops := mset d.tw.ops d.tw.nextOp (hostRec e (.hostWrite e) x pk st data after d), nextOp := d.tw.nextOp + 1,
    seqs := mput 0 d.tw.seqs (10244 + e) ((mget 0 d.tw.seqs (10244 + e) + 1) % 2 ^ 32) } } := rfl

theorem hostOp_read : hostOp e (.hostRead e) x pk st data after d = { d with tw := { d.tw with
    ops := mset d.tw.ops d.tw.nextOp (hostRec e (.hostRead e) x pk st data after d), nextOp := d.tw.nextOp + 1 } } := by
  simp [hostOp, hostRec, hostSlot]

/-- An access that a check has decided has no packets. -/
theorem hostOp_decided (use : OpUse) (hst : st ≠ ST.ok) : hostOp e use x pk st data after d = hostOp e use x [] st data after d := by
  simp only [hostOp, if_neg hst]

theorem findOp_hostOp_write : findOp (hostOp e (.hostWrite e) x pk st data after d) d.tw.nextOp =
    some (hostRec e (.hostWrite e) x pk st data after d) := by
  rw [hostOp_write]
  exact mfind_mset.trans (if_pos rfl)

theorem findOp_hostOp_read : findOp (hostOp e (.hostRead e) x pk st data after d) d.tw.nextOp =
    some (hostRec e (.hostRead e) x pk st data after d) := by
  rw [hostOp_read]
  exact mfind_mset.trans (if_pos rfl)

/-- A write in flight is as the statement has it. -/
theorem hostWrite_inFlight : HostOp (hostOp e (.hostWrite e) x pk ST.ok data after d) d.tw.nextOp e true ST.ok pk after
    (hostRec e (.hostWrite e) x pk ST.ok data after d) :=
  ⟨findOp_hostOp_write .., rfl, rfl, rfl, rfl, rfl, rfl⟩

/-- So is a read, in flight or already decided. -/
theorem hostRead_inFlight : HostOp (hostOp e (.hostRead e) x pk st data after d) d.tw.nextOp e false st (if st = ST.ok then pk else []) after
    (hostRec e (.hostRead e) x pk st data after d) :=
  ⟨findOp_hostOp_read .., rfl, rfl, rfl, rfl, rfl, rfl⟩

/-- A write that a check has decided ends at once (R390). -/
theorem finishOp_hostOp_failed (hst : st ≠ ST.ok) : finishOp d.tw.nextOp (hostOp e (.hostWrite e) x pk st data after d) =
    raise (8 + e) 0x3121 e st.toNat [] (inc OD.hostWriteFailures
      (removeOp d.tw.nextOp (hostRec e (.hostWrite e) x pk st data after d) (hostOp e (.hostWrite e) x pk st data after d))) := by
  rw [finishOp_decided (findOp_hostOp_write ..) (decided_of_fixed rfl (decide_eq_true hst)) rfl]
  exact if_neg hst

end HostRec

/-! ## Accesses that end at a check -/

/-- What a check at a link die may change before the access it decides: counts and events. -/
structure Checked (d d' : Dev) : Prop where
  frame : d' = { d with od := d'.od, ev := d'.ev }
  failures : rd d' OD.hostWriteFailures = rd d OD.hostWriteFailures
  raised : Raises [] d d'

theorem Checked.refl (d : Dev) : Checked d d := ⟨rfl, rfl, raises_of_ev rfl⟩

theorem checked_recordDenial (ctx a : Nat) (d : Dev) : Checked d (recordDenial ctx a d) :=
  ⟨recordDenial_frame .., by rw [rd_recordDenial, if_neg (by decide), if_neg (by decide), if_neg (by decide)], raises_recordDenial ..⟩

/-- What a host's write and a host's read come to where a check has decided them with a status. -/
structure Fails (e : Nat) (st : Status) (write read : Dev → Dev) (d : Dev) : Prop where
  written : ∃ d' x v after, Checked d d' ∧ write d = finishOp d.tw.nextOp (hostOp e (.hostWrite e) x [] st v after d')
  wasRead : ∃ d' x, Checked d d' ∧ read d = hostOp e (.hostRead e) x [] st [] (hostWrites d e) d'

section Failures
variable {e o n : Nat} {st : Status} {s : State} {v : Bytes}

theorem hostWrite_fails (hc : Calm s) (hst : st ≠ ST.ok) (h : Fails e st (hostBar2 e o n (some v)) (hostBar2 e o n none) s.m) :
    Completes (.hostBar2Access e o n (some v)) s (fun d => findOp d s.m.tw.nextOp = none ∧ Counted OD.hostWriteFailures true s.m d ∧
      d.mem = s.m.mem ∧ Raises [Claims.ev (8 + e) 0x3121 e st.toNat []] s.m d) := by
  obtain ⟨d', x, data, after, ⟨hframe, hfail, hraised⟩, heq⟩ := h.written
  have hid : s.m.tw.nextOp = d'.tw.nextOp := by rw [hframe]
  rw [hid, finishOp_hostOp_failed _ _ _ _ _ _ _ hst] at heq
  rw [hid]
  refine completes_onDev hc (exec_hostBar2Access ..) heq ?_ ⟨findOp_removeOp_same _ _ (hostOp e (.hostWrite e) x [] st data after d'), ?_, ?_, ?_⟩
  · rw [hframe]
    rfl
  · rw [Counted, rd_raise, rd_inc, if_pos rfl, if_pos rfl, ← hfail]
    rfl
  · rw [hframe]
    rfl
  · have hlt : st.toNat < 2 ^ 28 := by have := st.isLt; omega
    exact Raises.earlier hraised (Raises.earlier (raises_of_ev rfl) (raises_raise _ _ _ _ _ hlt))

theorem hostRead_fails (hc : Calm s) (h : Fails e st (hostBar2 e o n (some v)) (hostBar2 e o n none) s.m) :
    Completes (.hostBar2Access e o n none) s (fun d => d.mem = s.m.mem ∧
      ∃ op, HostOp d s.m.tw.nextOp e false st [] (hostWrites s.m e) op) := by
  obtain ⟨d', x, ⟨hframe, -, -⟩, heq⟩ := h.wasRead
  have hid : s.m.tw.nextOp = d'.tw.nextOp := by rw [hframe]
  have hop := hostRead_inFlight e x [] st [] (hostWrites s.m e) d'
  rw [ite_self] at hop
  refine completes_onDev hc (exec_hostBar2Access ..) heq ?_ ⟨?_, _, hid ▸ hop⟩
  · rw [hframe]
    rfl
  · rw [hframe]
    rfl

end Failures

/-! ## Accesses of a member (R390, R392) -/

section Window
variable {m a : Nat}

/-- The window of BAR2 that names a member, and the local part. -/
theorem bar2_member (ha : a < 2 ^ 49) : (2 ^ 49 * m + a) / 2 ^ 49 = m := by omega
theorem bar2_local (ha : a < 2 ^ 49) : (2 ^ 49 * m + a) % 2 ^ 49 = a := by omega
theorem bar2_inside (hm : m < 16) (ha : a < 2 ^ 49) : ¬2 ^ 53 ≤ 2 ^ 49 * m + a := by omega

end Window

section Bar2
variable {e m a n : Nat} {w : Option Bytes} {d : Dev} (hlinked : hostLinked d e = true) (hd : mget false d.pow.d3hot e = false)
  (hm : m < 16) (ha : a < 2 ^ 49)
include hlinked hd hm ha

/-- An unused entry, or a host context that is not LIVE, ends the access. -/
theorem hostBar2_refused {v : Bytes} (h : hostMember d m = 0xFFFF ∨ (ctxOf d (rd d OD.hostContext)).st ≠ .live) :
    Fails e (if hostMember d m = 0xFFFF then ST.access else ST.state)
      (hostBar2 e (2 ^ 49 * m + a) n (some v)) (hostBar2 e (2 ^ 49 * m + a) n none) d := by
  have hst : (if hostMember d m = 0xFFFF then ST.access else if (ctxOf d (rd d OD.hostContext)).st ≠ .live then ST.state else ST.ok) =
      if hostMember d m = 0xFFFF then ST.access else ST.state := by
    by_cases hdev : hostMember d m = 0xFFFF
    · simp [hdev]
    · simp [hdev, h.resolve_left hdev]
  have hbad : (if hostMember d m = 0xFFFF then ST.access else ST.state) ≠ ST.ok := by split <;> decide
  have hin : ¬(2 ^ 53 ≤ 2 ^ 49 * m + a ∨ mget false d.pow.d3hot e = true) := by
    rw [hd]
    simp only [Bool.false_eq_true, or_false]
    exact bar2_inside hm ha
  refine ⟨⟨d, hostDesc (rd d OD.hostContext) (gAddr (hostMember d m) a) 0, v, [], Checked.refl d, ?_⟩,
    d, hostDesc (rd d OD.hostContext) (gAddr (hostMember d m) a) 0, Checked.refl d, ?_⟩
  all_goals
    simp only [hostBar2, hlinked, Bool.not_true, Bool.false_eq_true, if_false, if_neg hin, bar2_member ha, bar2_local ha, hst, if_neg hbad]

theorem hostBar2_checked (hdev : hostMember d m < 2 ^ 15) (hlive : (ctxOf d (rd d OD.hostContext)).st = .live) :
    hostBar2 e (2 ^ 49 * m + a) n w d = hostRemote e (rd d OD.hostContext) (gAddr (hostMember d m) a) n w d := by
  have hin : ¬(2 ^ 53 ≤ 2 ^ 49 * m + a ∨ mget false d.pow.d3hot e = true) := by
    rw [hd]
    simp only [Bool.false_eq_true, or_false]
    exact bar2_inside hm ha
  have hmember : hostMember d m ≠ 0xFFFF := by omega
  simp only [hostBar2, hlinked, Bool.not_true, Bool.false_eq_true, if_false, if_neg hin, bar2_member ha, bar2_local ha, if_neg hmember, hlive,
    ne_eq, not_true_eq_false, if_true]

end Bar2

section Check
variable {ctx a n : Nat} {write : Bool} {d : Dev} (hp : d.tw.fttPending = none)
include hp

theorem hostCheck_denied {b : Nat} (h : fttDenied d.tw.ftt0 ctx (fun e => if write then e.wr else e.rd) a n = some b) :
    hostCheck ctx a n write d = (ST.access, translated d.tw.ftt0 ctx, recordDenial ctx b d) := by
  simp only [hostCheck, fttView_settled hp, h]
  rfl

theorem hostCheck_unmapped (h : fttDenied d.tw.ftt0 ctx (fun e => if write then e.wr else e.rd) a n = none)
    (hm : mapped (gLocal a) n = false) : hostCheck ctx a n write d = (ST.access, translated d.tw.ftt0 ctx, d) := by
  simp only [hostCheck, fttView_settled hp, h, hm]
  rfl

theorem hostCheck_ok (h : fttDenied d.tw.ftt0 ctx (fun e => if write then e.wr else e.rd) a n = none)
    (hm : mapped (gLocal a) n = true) (ht : mapped (gLocal (translated d.tw.ftt0 ctx a)) 1 = true)
    (hg : peerGen d (gDev (translated d.tw.ftt0 ctx a)) = 3) :
    hostCheck ctx a n write d = (ST.ok, translated d.tw.ftt0 ctx, d) := by
  rw [translated] at ht hg
  simp only [hostCheck, fttView_settled hp, h, hm, ht, peerBreaks_p3 hg]
  rfl

end Check

section Remote
variable {e ctx a n : Nat} {d d' : Dev} {st : Status}

/-- A check that fails decides a write and a read alike. -/
theorem hostRemote_fails {v : Bytes} (hst : st ≠ ST.ok)
    (h : ∀ write, ∃ tr d', Checked d d' ∧ hostCheck ctx a n write d = (st, tr, d')) :
    Fails e st (hostRemote e ctx a n (some v)) (hostRemote e ctx a n none) d := by
  obtain ⟨tr, dw, hcw, hw⟩ := h true
  obtain ⟨tr', dr, hcr, hr⟩ := h false
  have hid : d.tw.nextOp = dw.tw.nextOp := by rw [hcw.frame]
  have hwrites : hostWrites dr e = hostWrites d e := by rw [hcr.frame, hostWrites, hostWrites]
  refine ⟨⟨dw, hostDesc ctx a (BitVec.ofNat 64 (leNat (v.take 8))), v, if inControl (gLocal a) then hostWrites dw e else [], hcw, ?_⟩,
    dr, hostDesc ctx a 0, hcr, ?_⟩
  · simp only [hostRemote, Option.isSome_some, hw, if_neg hst, hid]
    rw [hostOp_decided _ _ _ _ _ _ _ _ hst]
  · simp only [hostRemote, Option.isSome_none, hr, hwrites]
    rw [hostOp_decided _ _ _ _ _ _ _ _ hst]

end Remote

section RemoteOk
variable {e ctx a n : Nat} {d : Dev} {v : Bytes}

theorem hostRemote_store (hck : hostCheck ctx a n true d = (ST.ok, translated d.tw.ftt0 ctx, d)) (hs : isStore a n = true) :
    hostRemote e ctx a n (some v) d = hostOp e (.hostWrite e) (hostDesc ctx a (BitVec.ofNat 64 (leNat (v.take 8))))
      [PktRec.new .store (translated d.tw.ftt0 ctx a) 0 n] ST.ok v (if inControl (gLocal a) then hostWrites d e else []) d := by
  simp only [hostRemote, Option.isSome_some, hck, hs, if_true]

variable (hn : 1 ≤ n) (hfit : a % 256 + n ≤ 256) (hg : peerGen d (gDev (translated d.tw.ftt0 ctx a)) = 3)
include hn hfit hg

theorem hostRemote_cut : cutExtent (fun y => toMultiple (payloadOf d (gDev (translated d.tw.ftt0 ctx y))) y) n a n = [(a, n)] := by
  refine cutExtent_whole hn ?_
  rw [payloadOf_p3 hg, toMultiple]
  omega

theorem hostRemote_write (hck : hostCheck ctx a n true d = (ST.ok, translated d.tw.ftt0 ctx, d)) (hs : isStore a n = false) :
    hostRemote e ctx a n (some v) d = hostOp e (.hostWrite e) (hostDesc ctx a (BitVec.ofNat 64 (leNat (v.take 8))))
      [PktRec.new .write (translated d.tw.ftt0 ctx a) 0 n] ST.ok v (if inControl (gLocal a) then hostWrites d e else []) d := by
  simp only [hostRemote, Option.isSome_some, hck, hs, if_true, Bool.false_eq_true, if_false, hostRemote_cut hn hfit hg, List.map_cons,
    List.map_nil, Nat.sub_self]

theorem hostRemote_read (hck : hostCheck ctx a n false d = (ST.ok, translated d.tw.ftt0 ctx, d)) :
    hostRemote e ctx a n none d = hostOp e (.hostRead e) (hostDesc ctx a 0)
      [PktRec.new .read (translated d.tw.ftt0 ctx a) 0 n] ST.ok [] (hostWrites d e) d := by
  simp only [hostRemote, Option.isSome_none, hck, hostRemote_cut hn hfit hg, List.map_cons, List.map_nil, Nat.sub_self]

end RemoteOk

/-- A whole access of a member's local address stays within the 64 KiB and the 256 bytes that it stays within there. -/
theorem isStore_gAddr {dev a n : Nat} : isStore (gAddr dev a) n = true ↔ n ∈ [1, 2, 4, 8] ∧ a % n = 0 := by
  have hmod : ∀ n ∈ [1, 2, 4, 8], gAddr dev a % n = a % n := by
    simp only [gAddr, List.mem_cons, List.not_mem_nil, or_false]
    rintro n (rfl | rfl | rfl | rfl) <;> omega
  rw [isStore, Bool.and_eq_true, List.contains_iff_mem, beq_iff_eq]
  exact and_congr_right fun h => by rw [hmod n h]

section Member
variable {e m a n : Nat} {s : State} (hc : Calm s) (hlinked : hostLinked s.m e = true) (hd : mget false s.m.pow.d3hot e = false)
  (hm : m < 16) (ha : a < 2 ^ 49) (hdev : hostMember s.m m < 2 ^ 15) (hlive : (ctxOf s.m (rd s.m OD.hostContext)).st = .live)
  (hp : s.m.tw.fttPending = none) (hn : 1 ≤ n) (hfit : a % 256 + n ≤ 256)
include hlinked hd hm ha hdev hlive hp hn hfit

omit hp hn hfit in
theorem hostBar2_fails {v : Bytes} {st : Status} (h : Fails e st
    (hostRemote e (rd s.m OD.hostContext) (gAddr (hostMember s.m m) a) n (some v))
    (hostRemote e (rd s.m OD.hostContext) (gAddr (hostMember s.m m) a) n none) s.m) :
    Fails e st (hostBar2 e (2 ^ 49 * m + a) n (some v)) (hostBar2 e (2 ^ 49 * m + a) n none) s.m := by
  obtain ⟨⟨d', x, v', after, hck, hw⟩, d'', x', hck', hr⟩ := h
  exact ⟨⟨d', x, v', after, hck, (hostBar2_checked hlinked hd hm ha hdev hlive).trans hw⟩,
    d'', x', hck', (hostBar2_checked hlinked hd hm ha hdev hlive).trans hr⟩

/-- No right at the page of the address. -/
theorem hostBar2_noRight {v : Bytes} (h : ∀ x, fttLookup s.m.tw.ftt0 (rd s.m OD.hostContext) (gAddr (hostMember s.m m) a) = some x →
    x.wr = false ∧ x.rd = false) :
    Fails e ST.access (hostBar2 e (2 ^ 49 * m + a) n (some v)) (hostBar2 e (2 ^ 49 * m + a) n none) s.m := by
  refine hostBar2_fails hlinked hd hm ha hdev hlive (hostRemote_fails (by decide) fun write => ?_)
  refine ⟨_, _, checked_recordDenial _ _ _, hostCheck_denied hp (fttDenied_lacking hn ?_ fun x hx => ?_)⟩
  · rw [gAddr]
    omega
  · obtain ⟨hw, hr⟩ := h x hx
    cases write <;> simp [hw, hr]

omit hn hfit in
/-- No bytes behind the local part (R288). -/
theorem hostBar2_unmapped {v : Bytes} (h : mapped a n = false) :
    Fails e ST.access (hostBar2 e (2 ^ 49 * m + a) n (some v)) (hostBar2 e (2 ^ 49 * m + a) n none) s.m := by
  refine hostBar2_fails hlinked hd hm ha hdev hlive (hostRemote_fails (by decide) fun write => ?_)
  cases hden : fttDenied s.m.tw.ftt0 (rd s.m OD.hostContext) (fun x => if write then x.wr else x.rd) (gAddr (hostMember s.m m) a) n with
  | some b => exact ⟨_, _, checked_recordDenial _ _ _, hostCheck_denied hp hden⟩
  | none => exact ⟨_, _, Checked.refl _, hostCheck_unmapped hp hden (by rwa [gLocal_gAddr ha])⟩

variable {x : FttEntry} (hx : fttLookup s.m.tw.ftt0 (rd s.m OD.hostContext) (gAddr (hostMember s.m m) a) = some x)
  (hmapped : mapped a n = true)
  (hg : peerGen s.m (gDev (x.tgt * 65536 + gAddr (hostMember s.m m) a % 2 ^ pageBits x.size)) = 3)
  (ht : mapped (gLocal (x.tgt * 65536 + gAddr (hostMember s.m m) a % 2 ^ pageBits x.size)) 1 = true)
include hx hmapped hg ht

omit hlinked hd hm hdev hlive in
theorem hostCheck_member {write : Bool} (hr : (if write then x.wr else x.rd) = true) :
    hostCheck (rd s.m OD.hostContext) (gAddr (hostMember s.m m) a) n write s.m =
      (ST.ok, translated s.m.tw.ftt0 (rd s.m OD.hostContext), s.m) := by
  rw [← translated_eq hx] at hg ht
  refine hostCheck_ok hp (fttDenied_granted hn ?_ hx hr) (by rwa [gLocal_gAddr ha]) ht hg
  rw [gAddr]
  omega

include hc

/-- A naturally aligned write of 1, 2, 4 or 8 bytes is one STORE (log entry 40). -/
theorem hostBar2_store {w : Bytes} (hw : x.wr = true) (hsize : n ∈ [1, 2, 4, 8]) (halign : a % n = 0) :
    Completes (.hostBar2Access e (2 ^ 49 * m + a) n (some w)) s (fun d => d.mem = s.m.mem ∧
      ∃ op, HostOp d s.m.tw.nextOp e true ST.ok
        [PktRec.new .store (x.tgt * 65536 + gAddr (hostMember s.m m) a % 2 ^ pageBits x.size) 0 n]
        (if inControl a then hostWrites s.m e else []) op ∧ word op.desc.words 2 = BitVec.ofNat 64 (leNat (w.take 8))) := by
  have hck := hostCheck_member ha hp hn hfit hx hmapped hg ht (write := true) hw
  have heq := (hostBar2_checked hlinked hd hm ha hdev hlive).trans
    (hostRemote_store (e := e) (v := w) hck (isStore_gAddr.2 ⟨hsize, halign⟩))
  rw [translated_eq hx, gLocal_gAddr ha] at heq
  exact completes_onDev hc (exec_hostBar2Access ..) heq rfl ⟨rfl, _, hostWrite_inFlight .., rfl⟩

/-- Any other write is written like copied data (log entry 40). -/
theorem hostBar2_write {w : Bytes} (hw : x.wr = true) (hno : ¬(n ∈ [1, 2, 4, 8] ∧ a % n = 0)) :
    Completes (.hostBar2Access e (2 ^ 49 * m + a) n (some w)) s (fun d => d.mem = s.m.mem ∧
      ∃ op, HostOp d s.m.tw.nextOp e true ST.ok
        [PktRec.new .write (x.tgt * 65536 + gAddr (hostMember s.m m) a % 2 ^ pageBits x.size) 0 n]
        (if inControl a then hostWrites s.m e else []) op ∧ op.data = w) := by
  have hck := hostCheck_member ha hp hn hfit hx hmapped hg ht (write := true) hw
  have hfit' : gAddr (hostMember s.m m) a % 256 + n ≤ 256 := by
    rw [gAddr]
    omega
  rw [← translated_eq hx] at hg
  have heq := (hostBar2_checked hlinked hd hm ha hdev hlive).trans
    (hostRemote_write (e := e) (v := w) hn hfit' hg hck (Bool.eq_false_iff.2 fun h => hno (isStore_gAddr.1 h)))
  rw [translated_eq hx, gLocal_gAddr ha] at heq
  exact completes_onDev hc (exec_hostBar2Access ..) heq rfl ⟨rfl, _, hostWrite_inFlight .., rfl⟩

theorem hostBar2_read (hr : x.rd = true) :
    Completes (.hostBar2Access e (2 ^ 49 * m + a) n none) s (fun d => d.mem = s.m.mem ∧
      ∃ op, HostOp d s.m.tw.nextOp e false ST.ok
        [PktRec.new .read (x.tgt * 65536 + gAddr (hostMember s.m m) a % 2 ^ pageBits x.size) 0 n] (hostWrites s.m e) op) := by
  have hck := hostCheck_member ha hp hn hfit hx hmapped hg ht (write := false) hr
  have hfit' : gAddr (hostMember s.m m) a % 256 + n ≤ 256 := by
    rw [gAddr]
    omega
  rw [← translated_eq hx] at hg
  have heq := (hostBar2_checked hlinked hd hm ha hdev hlive).trans (hostRemote_read (e := e) hn hfit' hg hck)
  rw [translated_eq hx] at heq
  refine completes_onDev hc (exec_hostBar2Access ..) heq ?_ ⟨?_, _, hostRead_inFlight ..⟩ <;> rw [hostOp_read]

end Member

/-! ## The end of a host's read (R390) -/

/-- The errors that AER holds after the answer to a read with a status (log entry 122). -/
def aerAfter (e : Nat) (st : Status) (aer : Map Nat) : Map Nat :=
  if st = ST.ok then aer else mput 0 aer e (Nat.lor (mget 0 aer e) (2 ^ (if st = ST.poison then 12 else 15)))

theorem answerHost_eq (e : Nat) (op : FabOp) (d : Dev) : answerHost e op d = { d with
    sent := d.sent ++ [.hostReply e (hostAnswer op.status) (if hostAnswer op.status = .abort then [] else op.data)],
    pow := { d.pow with aer := aerAfter e op.status d.pow.aer } } := by
  rw [answerHost, aerAfter]
  by_cases hok : op.status = ST.ok
  · simp [hostAnswer, hok, send]
  · by_cases hpoison : op.status = ST.poison
    · simp [hostAnswer, hpoison, show ¬ST.poison = ST.ok by decide, send, noteAer]
    · simp [hostAnswer, hok, hpoison, send, noteAer]

section ReadComplete
variable {e k : Nat} {op : FabOp} {s : State} (hc : Calm s) (hop : findOp s.m k = some op) (hu : op.use_ = .hostRead e)
include hc hop hu

theorem hostReadComplete_answers (hdec : decided op = true) (hafter : ∀ i ∈ op.after, findOp s.m i = none) :
    Completes (.hostReadComplete k) s (fun d => findOp d k = none ∧
      d.sent = s.m.sent ++ [.hostReply e (hostAnswer op.status) (if hostAnswer op.status = .abort then [] else op.data)] ∧
      d = { s.m with tw := d.tw, sent := d.sent, pow := { s.m.pow with aer := aerAfter e op.status s.m.pow.aer } }) := by
  have hall : op.after.all (fun i => (findOp s.m i).isNone) = true := List.all_eq_true.2 fun i hi => by simp [hafter i hi]
  have heffect : hostReadComplete k s.m = answerHost e op (removeOp k op s.m) := by
    simp [hostReadComplete, hop, hu, hdec, hall]
  rw [answerHost_eq] at heffect
  exact completes_onDev hc (exec_hostReadComplete ..) heffect rfl ⟨findOp_removeOp_same .., rfl, rfl⟩

theorem hostReadComplete_waits (h : decided op = false ∨ ∃ i ∈ op.after, findOp s.m i ≠ none) : Becomes (.hostReadComplete k) s s.m := by
  have hno : (decided op && op.after.all (fun i => (findOp s.m i).isNone)) = false := by
    rcases h with h | ⟨i, hi, hfound⟩
    · rw [h, Bool.false_and]
    · have hall : op.after.all (fun i => (findOp s.m i).isNone) = false :=
        List.all_eq_false.2 ⟨i, hi, by simp [Option.isNone_iff_eq_none, hfound]⟩
      rw [hall, Bool.and_false]
  refine becomes_onDev hc (exec_hostReadComplete ..) ?_ rfl
  simp [hostReadComplete, hop, hu, hno]

end ReadComplete

end Sys2Proof.Machine
end

section
/-!
SUPPORT. A host's access of this device's own control space: it is turned round at the link die, applied, and answered in one step
(R315, R321, R332, R390).
-/

namespace Sys2Proof.Machine

open Claims (Raises HostOp)

/-! ## Tables -/

section Tables
variable {α : Type} {m : Map α} {i : Nat} {x : α}

theorem mem_mset_self : (i, x) ∈ mset m i x := by
  induction m with
  | nil => simp [mset]
  | cons p m ih =>
    obtain ⟨k, v⟩ := p
    simp only [mset]
    split
    · exact List.mem_cons_of_mem _ ih
    · split <;> exact List.mem_cons_self

/-- A new key adds its own entry to what a test finds. -/
theorem any_mset (h : mfind m i = none) (q : Nat × α → Bool) : (mset m i x).any q = (q (i, x) || m.any q) := by
  induction m with
  | nil => simp [mset]
  | cons p m ih =>
    obtain ⟨k, v⟩ := p
    have hk : k ≠ i := fun hk => by simp [mfind, hk] at h
    rw [mfind, if_neg hk] at h
    simp only [mset, if_neg hk]
    split
    · rw [List.any_cons, ih h, List.any_cons, Bool.or_left_comm]
    · rfl

/-- Where a test picks out one key, the entry it finds has that key. -/
theorem find?_mset_key {q : Nat × α → Bool} (hx : q (i, x) = true) (h : ∀ p ∈ m, q p = true → p.1 = i) :
    ((mset m i x).find? q).map Prod.fst = some i := by
  cases hfind : (mset m i x).find? q with
  | none => exact absurd hx (List.find?_eq_none.1 hfind _ mem_mset_self)
  | some p =>
    rcases mset_mem (List.mem_of_find?_eq_some hfind) with rfl | hp
    · rfl
    · exact congrArg some (h p hp (List.find?_some hfind))

end Tables

/-! ## A packet turned round (R315) -/

/-- A packet as it leaves for the first time, turned round at the link die. -/
def onItsWay (tick : Nat) (p : PktRec) : PktRec := { p with st := .flying, port := 0, lastSent := tick, busyAt := none, firstSent := tick }

/-- The device once the one packet of an operation has left for the device itself. -/
def launched (id : Nat) (op : FabOp) (p : PktRec) (d : Dev) : Dev :=
  addOutstanding (devNo d) (setOp id { op with pkts := [onItsWay d.tick p] } d)

/-- An answer for a hot line is counted (R341). -/
def lineHot (p : Packet) (d : Dev) : Bool := d.tw.hotLines.contains (gLocal p.dst / 64)
def hotCounted (p : Packet) (d : Dev) : Dev := if lineHot p d then inc OD.hotSignalsSent d else d

section Frames
variable (id : Nat) (op : FabOp) (p : PktRec) (q : Packet) (d : Dev)

theorem hotCounted_frame : hotCounted q d = { d with od := (hotCounted q d).od } := by
  rw [hotCounted]
  split <;> rfl

theorem rd_hotCounted {k : Nat} (h : k ≠ OD.hotSignalsSent) : rd (hotCounted q d) k = rd d k := by
  rw [hotCounted]
  split
  · rw [rd_inc, if_neg h.symm]
  · rfl

end Frames

theorem sendPacket_self {id : Nat} {op : FabOp} {p : PktRec} {d : Dev} (hop : findOp d id = some op) (hp : op.pkts = [p])
    (hres : p.resent = false) (hu : op.use_ ≠ .queue) (hdev : gDev p.dst = devNo d) :
    sendPacket id 0 d = (let t := takeRequest (buildPacket d op p) none (launched id op p d); takeResponse t.1 t.2) := by
  have hread : readSource op p d = d := by simp [readSource, hu]
  have hmod : modPkt 0 (fun p => { p with
      st := .flying, port := 0, lastSent := d.tick, busyAt := none,
      firstSent := if p.resent then p.firstSent else d.tick }) op = { op with pkts := [onItsWay d.tick p] } := by
    simp [modPkt, hp, lmod, onItsWay, hres]
  simp only [sendPacket, hop, hp, List.getElem?_cons_zero, hres, hdev, hread, hmod, Bool.false_and, Bool.false_eq_true, and_false, if_false,
    if_true]
  rfl

/-- A request that no replay window holds back, sent for the first time, is served. -/
theorem takeRequest_plain {p : Packet} (hseq : pktSequenced p = false) (hretx : p.retx = false) (d : Dev) :
    takeRequest p none d = serveRequest p (lineHot p d) (hotCounted p d) := by
  simp only [takeRequest, noteHot, takeRequestHot, hseq, hretx, Bool.false_and, Bool.false_eq_true, if_false]
  rfl

theorem serveRequest_plain {p : Packet} {hot : Bool} {d d' : Dev} {st : Status} {v : Nat} {data : Bytes} {bad : List Nat}
    (hseq : pktSequenced p = false) (hcnt : p.cntEn = false) (happly : applyRequest p d = (st, v, data, bad, d')) :
    serveRequest p hot d = (respOf p st hot false v data bad, d') := by
  simp only [serveRequest, happly, hseq, hcnt, Bool.false_eq_true, false_and, if_false]

/-! ## The answer at its source (R321, R342) -/

/-- The source has taken notice of whether the line is hot (R342). -/
def hotNoted (r : Resp) (p : PktRec) (d : Dev) : Dev :=
  if r.hot then noteHotSource (p.port / 16) (gDev p.dst) (gLocal p.dst / 64) d else dropHot (gDev p.dst) (gLocal p.dst / 64) d

/-- The credit of a packet is back, and the source has taken notice of its line. -/
def credited (r : Resp) (p : PktRec) (d : Dev) : Dev := hotNoted r p (subOutstanding (gDev p.dst) d)

theorem noteHotSource_frame (ld dev line : Nat) (d : Dev) : noteHotSource ld dev line d = { d with
    od := (noteHotSource ld dev line d).od, tw := { d.tw with hot := (noteHotSource ld dev line d).tw.hot } } := by
  unfold noteHotSource
  dsimp only
  split <;> rfl

theorem credited_frame (r : Resp) (p : PktRec) (d : Dev) : credited r p d = { d with
    od := (credited r p d).od,
    tw := { d.tw with outstanding := (credited r p d).tw.outstanding, hot := (credited r p d).tw.hot } } := by
  rw [credited, hotNoted]
  split
  · rw [noteHotSource_frame]
    rfl
  · rfl

section Answer
variable {id : Nat} {op : FabOp} {p : PktRec} {r : Resp} {d : Dev} (hop : findOp d id = some op) (hp : op.pkts = [p])
include hop hp

theorem takeResponse_single (hr : respOp d r = some id) (hnames : respNames r p = true) : takeResponse r d = respPacket r id 0 d := by
  simp [takeResponse, hr, hop, hp, hnames]

theorem respPacket_ok (hfly : p.st = .flying) (hlost : r.lost = false) (hbusy : r.busy = false) (hst : r.status = ST.ok) :
    respPacket r id 0 d = setOp id (ackPacket r 0 op p (credited r p d)).1 (ackPacket r 0 op p (credited r p d)).2 := by
  simp [respPacket, hop, hp, hfly, hlost, hbusy, hst, credited, hotNoted]

end Answer

/-- The response to a packet names it. -/
theorem respNames_respOf {q : Packet} {p : PktRec} (h : q.dst = p.dst) (st : Status) (hot busy : Bool) (v : Nat) (data : Bytes)
    (bad : List Nat) : respNames (respOf q st hot busy v data bad) p = true := by
  have hk : (nfld p.dst 21 8 + 2 ^ 14 - nfld p.dst 21 8) % 2 ^ 14 = 0 := by omega
  simp only [respNames, namesAddr, respOf, h, hk]
  decide

section Turned
variable {id : Nat} {op : FabOp} {p : PktRec} {d d' : Dev} {data : Bytes}

/-- The response to the one packet of an operation, applied with status ST_OK. -/
def okResp (d : Dev) (op : FabOp) (p : PktRec) (data : Bytes) : Resp :=
  respOf (buildPacket d op p) ST.ok (lineHot (buildPacket d op p) d) false 0 data []

/-- An unsequenced request to the device itself: applied, and acknowledged at once. -/
theorem sendPacket_turned (hop : findOp d id = some op) (hp : op.pkts = [p]) (hres : p.resent = false) (hu : op.use_ ≠ .queue)
    (hdev : gDev p.dst = devNo d) (hkind : p.kind = .store ∨ p.kind = .read) (hunseq : op.sequenced = false)
    (hsole : ∀ o ∈ d.tw.ops, o.2.slot = op.slot → o.2.seq = op.seq → o.1 = id)
    (happly : applyRequest (buildPacket d op p) (hotCounted (buildPacket d op p) (launched id op p d)) = (ST.ok, 0, data, [], d'))
    (hops : d'.tw.ops = (launched id op p d).tw.ops) :
    sendPacket id 0 d =
      (let a := ackPacket (okResp d op p data) 0 { op with pkts := [onItsWay d.tick p] } (onItsWay d.tick p)
         (credited (okResp d op p data) (onItsWay d.tick p) d')
       setOp id a.1 a.2) := by
  have hseq : pktSequenced (buildPacket d op p) = false := by
    rcases hkind with h | h <;> simp [pktSequenced, buildPacket, h]
  have hcnt : (buildPacket d op p).cntEn = false := by
    rcases hkind with h | h <;> simp [buildPacket, h, hunseq]
  have hfound : findOp d' id = some { op with pkts := [onItsWay d.tick p] } := by
    rw [findOp, hops]
    exact findOp_setOp_same id _ d
  have hresp : respOp d' (okResp d op p data) = some id := by
    rw [respOp, hops]
    refine find?_mset_key ?_ fun o ho hq => ?_
    · simp [okResp, respOf, buildPacket]
    · simp only [Bool.and_eq_true, beq_iff_eq] at hq
      obtain ⟨⟨hslot, hseq⟩, -⟩ := hq
      exact hsole o ho hslot hseq
  rw [sendPacket_self hop hp hres hu hdev, takeRequest_plain hseq hres]
  simp only [serveRequest_plain hseq hcnt happly]
  refine (takeResponse_single hfound rfl hresp (respNames_respOf rfl ..)).trans ?_
  exact respPacket_ok hfound rfl rfl rfl rfl rfl

end Turned

/-! ## What a host's access waits for (R133, R338, R342) -/

section MaySend
variable {e : Nat} {d : Dev}

theorem maySend_hostOp {id : Nat} {op : FabOp} {p : PktRec} (hb : op.begun = true) (hf : op.fixed = false) (hst : p.st = .waiting)
    (hbusy : p.busyAt = none) (hslot : 8192 ≤ op.slot) :
    maySend d id op p = (op.after.all (fun i => (findOp d i).isNone) && !lacksRoom d p.dst) := by
  have hheld : creditHeld d op.slot id = false := by simp [creditHeld, show ¬op.slot < 8192 by omega]
  simp [maySend, hb, hf, hst, hbusy, hheld]

theorem hostSend_goes {id : Nat} {op : FabOp} {p : PktRec} (hop : findOp d id = some op) (hp : op.pkts = [p])
    (h : maySend d id op p = true) : hostSend id d = sendPacket id 0 d := by
  simp [hostSend, hop, hp, h]

theorem hostSend_waits {id : Nat} {op : FabOp} {p : PktRec} (hop : findOp d id = some op) (hp : op.pkts = [p])
    (h : maySend d id op p = false) : hostSend id d = d := by
  simp [hostSend, hop, hp, h]

/-- An operation whose packets all wait leaves the room that packets have. -/
theorem lacksRoom_withOp {op : FabOp} {ops : Map FabOp} {next : Nat} {seqs : Map Nat} (hfree : mfind d.tw.ops next = none)
    (hops : ops = mset d.tw.ops next op) (hp : ∀ p ∈ op.pkts, p.st = .waiting) (dst nextOp : Nat) :
    lacksRoom { d with tw := { d.tw with ops, nextOp, seqs } } dst = lacksRoom d dst := by
  have hnone : op.pkts.any (fun q => decide (q.st = .flying) && gDev q.dst == gDev dst && gLocal q.dst / 64 == gLocal dst / 64) = false :=
    List.any_eq_false.2 fun q hq => by simp [hp q hq]
  subst hops
  simp only [lacksRoom, any_mset hfree, hnone, Bool.false_or]
  rfl

end MaySend

end Sys2Proof.Machine
end

section
/-!
PROOFS. Doorbells (R303-R306, R310): posts by processors and by hosts, and the status a doorbell keeps. That a host's post is one
operation of its link die is log entry 40.
-/

namespace Sys2Proof.Machine

open Claims (Raises HostOp Counted BellRung posted OpIs)

theorem exec_doorbellPost (a : Agent) (core queue ctx : Nat) (desc : W64) (s : State) :
    exec (.doorbellPost a core queue ctx desc) s = onDev (doorbellPost a core queue ctx desc) s := rfl

theorem exec_doorbellStatusRead (a : Agent) (core queue ctx : Nat) (s : State) :
    exec (.doorbellStatusRead a core queue ctx) s = onDev (doorbellStatusRead a core queue ctx) s := rfl

/-! ## Queues -/

section Queues
variable (q : Nat) (x : FabQueue) (d : Dev)

theorem queueOf_setQueue (k : Nat) : queueOf (setQueue q x d) k = if q = k then x else queueOf d k := mget_mput

theorem queueOf_setQueue_same : queueOf (setQueue q x d) q = x := (queueOf_setQueue ..).trans (if_pos rfl)

theorem queueOf_setQueue_other {k : Nat} (h : k ≠ q) : queueOf (setQueue q x d) k = queueOf d k :=
  (queueOf_setQueue ..).trans (if_neg h.symm)

end Queues

/-! ## A post (R305, R306, R310) -/

/-- A doorbell after a post with a status: one more store is counted. -/
def withBell (key : Nat) (st : Status) (d : Dev) : Dev := { d with tw := { d.tw with
  bells := mset d.tw.bells key { status := st, count := ((mget Bell.empty d.tw.bells key).count + 1) % 2 ^ 48 } } }

section WithBell
variable (key : Nat) (st : Status) (d : Dev)

theorem mget_withBell (k : Nat) : mget Bell.empty (withBell key st d).tw.bells k =
    if key = k then { status := st, count := ((mget Bell.empty d.tw.bells key).count + 1) % 2 ^ 48 }
    else mget Bell.empty d.tw.bells k := mget_mset

end WithBell

section Post
variable {core queue ctx addr : Nat} {d : Dev}

theorem bellPost_accepted (huse : useAny d linkDies = ST.ok) (hacc : fabAccept d addr ctx (posted d addr ctx) = ST.ok)
    (hroom : (queueOf d (4 * core + queue)).accepted.length < 64) : bellPost core queue ctx addr d =
      withBell (64 * (4 * core + queue) + ctx) ST.ok (pushDesc (4 * core + queue) (posted d addr ctx) d) := by
  rw [posted] at hacc ⊢
  simp [bellPost, bellPostAs, doorbellStep, huse, hacc, firstBad, show ¬64 ≤ (queueOf d (4 * core + queue)).accepted.length by omega, withBell,
    pushDesc, setQueue]

theorem bellPost_full (huse : useAny d linkDies = ST.ok) (hacc : fabAccept d addr ctx (posted d addr ctx) = ST.ok)
    (hfull : 64 ≤ (queueOf d (4 * core + queue)).accepted.length) : bellPost core queue ctx addr d =
      withBell (64 * (4 * core + queue) + ctx) ST.state (raise (core / 512) 0x3003 core 0 [] (inc OD.doorbellRefusals d)) := by
  rw [posted] at hacc
  simp [bellPost, bellPostAs, doorbellStep, huse, hacc, firstBad, hfull, withBell, show ¬ST.state = ST.ok by decide, cdPort]

theorem bellPost_refused (h : firstBad (useAny d linkDies) (fabAccept d addr ctx (posted d addr ctx)) ≠ ST.ok) :
    bellPost core queue ctx addr d = withBell (64 * (4 * core + queue) + ctx)
      (firstBad (useAny d linkDies) (fabAccept d addr ctx (posted d addr ctx))) d := by
  rw [posted] at h ⊢
  simp [bellPost, bellPostAs, doorbellStep, h, withBell]

/-- Whatever becomes of a post, its doorbell counts it, and nothing but queues, objects and events differs besides. -/
theorem bellPost_cases (core queue ctx addr : Nat) (d : Dev) : ∃ st d1,
    bellPost core queue ctx addr d = withBell (64 * (4 * core + queue) + ctx) st d1 ∧
      d1 = { d with tw := { d.tw with queues := d1.tw.queues }, od := d1.od, ev := d1.ev } := by
  by_cases h : firstBad (useAny d linkDies) (fabAccept d addr ctx (posted d addr ctx)) = ST.ok
  · have huse : useAny d linkDies = ST.ok := by
      by_contra hu
      rw [firstBad, if_neg hu] at h
      exact hu h
    have hacc : fabAccept d addr ctx (posted d addr ctx) = ST.ok := by simpa only [firstBad, huse, if_true] using h
    by_cases hroom : (queueOf d (4 * core + queue)).accepted.length < 64
    · exact ⟨_, _, bellPost_accepted huse hacc hroom, rfl⟩
    · exact ⟨_, _, bellPost_full huse hacc (by omega), rfl⟩
  · exact ⟨_, _, bellPost_refused h, rfl⟩

end Post

/-! ## Posts by a processor -/

section Processor
variable {core queue ctx : Nat} {desc : W64} {s : State} (hc : Calm s) (hcore : core < 2048) (hqueue : queue < 4) (hctx : ctx < 64)
include hcore hqueue hctx

theorem bellNamed_of_lt : bellNamed core queue ctx = true := by simp [bellNamed, hcore, hqueue, hctx]

theorem doorbellPost_sequencer (d : Dev) :
    doorbellPost .sequencer core queue ctx desc d = busAnswer ST.ok 0 (bellPost core queue ctx desc.toNat d) := by
  simp [doorbellPost, bellNamed_of_lt hcore hqueue hctx]

omit hcore hqueue hctx in
/-- A post whose doorbell reads a status: only queues, objects and events differ besides. -/
theorem bellRung_withBell (st : Status) {d d1 : Dev}
    (h : d1 = { d with tw := { d.tw with queues := d1.tw.queues }, od := d1.od, ev := d1.ev }) :
    BellRung core queue ctx st d (busAnswer ST.ok 0 (withBell (64 * (4 * core + queue) + ctx) st d1)) := by
  have hbells : d1.tw.bells = d.tw.bells := by rw [h]
  refine ⟨?_, fun k hk => ?_, rfl, ?_⟩
  · refine (mget_withBell ..).trans ?_
    rw [if_pos rfl, hbells]
  · refine (mget_withBell ..).trans ?_
    rw [if_neg hk.symm, hbells]
  · rw [h]
    rfl

include hc

theorem doorbellPost_accepted (huse : useAny s.m linkDies = ST.ok)
    (hacc : fabAccept s.m desc.toNat ctx (posted s.m desc.toNat ctx) = ST.ok)
    (hroom : (queueOf s.m (4 * core + queue)).accepted.length < 64) :
    Completes (.doorbellPost .sequencer core queue ctx desc) s (fun d => BellRung core queue ctx ST.ok s.m d ∧
      (queueOf d (4 * core + queue)).accepted = (queueOf s.m (4 * core + queue)).accepted ++ [posted s.m desc.toNat ctx] ∧
      (∀ k, k ≠ 4 * core + queue → queueOf d k = queueOf s.m k) ∧ d.od = s.m.od) := by
  have heffect := doorbellPost_sequencer (desc := desc) hcore hqueue hctx s.m
  rw [bellPost_accepted huse hacc hroom] at heffect
  refine completes_onDev hc (exec_doorbellPost ..) heffect rfl ⟨bellRung_withBell ST.ok rfl, ?_, fun k hk => ?_, rfl⟩
  · exact congrArg FabQueue.accepted (queueOf_setQueue_same _ _ s.m)
  · exact queueOf_setQueue_other _ _ s.m hk

theorem doorbellPost_full (huse : useAny s.m linkDies = ST.ok)
    (hacc : fabAccept s.m desc.toNat ctx (posted s.m desc.toNat ctx) = ST.ok)
    (hfull : 64 ≤ (queueOf s.m (4 * core + queue)).accepted.length) :
    Completes (.doorbellPost .sequencer core queue ctx desc) s (fun d => BellRung core queue ctx ST.state s.m d ∧
      (∀ k, queueOf d k = queueOf s.m k) ∧ Counted OD.doorbellRefusals true s.m d ∧
      Raises [Claims.ev (core / 512) 0x3003 core 0 []] s.m d) := by
  have heffect := doorbellPost_sequencer (desc := desc) hcore hqueue hctx s.m
  rw [bellPost_full huse hacc hfull] at heffect
  refine completes_onDev hc (exec_doorbellPost ..) heffect rfl ⟨bellRung_withBell ST.state rfl, fun _ => rfl, ?_, ?_⟩
  · exact (rd_inc OD.doorbellRefusals OD.doorbellRefusals s.m).trans (if_pos rfl)
  · exact Raises.later (Raises.earlier (raises_of_ev rfl) (raises_raise _ _ _ 0 (inc OD.doorbellRefusals s.m) (by decide)))
      (raises_of_ev rfl)

theorem doorbellPost_refused (huse : useAny s.m linkDies = ST.ok)
    (hacc : fabAccept s.m desc.toNat ctx (posted s.m desc.toNat ctx) ≠ ST.ok) :
    Completes (.doorbellPost .sequencer core queue ctx desc) s (fun d =>
      BellRung core queue ctx (fabAccept s.m desc.toNat ctx (posted s.m desc.toNat ctx)) s.m d ∧
      (∀ k, queueOf d k = queueOf s.m k) ∧ d.od = s.m.od) := by
  have heffect := doorbellPost_sequencer (desc := desc) hcore hqueue hctx s.m
  have hfirst : firstBad (useAny s.m linkDies) (fabAccept s.m desc.toNat ctx (posted s.m desc.toNat ctx)) =
      fabAccept s.m desc.toNat ctx (posted s.m desc.toNat ctx) := by rw [firstBad, if_pos huse]
  rw [bellPost_refused (by rwa [hfirst]), hfirst] at heffect
  exact completes_onDev hc (exec_doorbellPost ..) heffect rfl ⟨bellRung_withBell _ rfl, fun _ => rfl, rfl⟩

theorem doorbellStatusRead_sequencer : Becomes (.doorbellStatusRead .sequencer core queue ctx) s
    (let b := mget Bell.empty s.m.tw.bells (64 * (4 * core + queue) + ctx)
     { s.m with hv := { s.m.hv with busStatus := ST.ok, bus := b.status.toNat + b.count * 2 ^ 16 } }) := by
  refine becomes_onDev hc (exec_doorbellStatusRead ..) ?_ rfl
  simp [doorbellStatusRead, bellNamed_of_lt hcore hqueue hctx, bellRead, busAnswer]

end Processor

theorem doorbellPart : Claims.DoorbellPart := by
  intro core queue ctx desc s hc hcore hqueue hctx
  refine ⟨fun huse => ⟨doorbellPost_accepted hc hcore hqueue hctx huse, doorbellPost_full hc hcore hqueue hctx huse,
    doorbellPost_refused hc hcore hqueue hctx huse, fun halign => if_pos halign⟩,
    doorbellStatusRead_sequencer hc hcore hqueue hctx, fun c hmem => ?_⟩
  simp only [List.mem_cons, List.not_mem_nil, or_false] at hmem
  rcases hmem with rfl | rfl
  · exact becomes_onDev hc (exec_doorbellPost ..) rfl rfl
  · exact becomes_onDev hc (exec_doorbellStatusRead ..) rfl rfl

/-! ## Control space reached through the bridge (R304, R306, R315) -/

section ControlSpace
variable {a : Nat}

theorem zone_doorbells (hlo : doorbellBase ≤ a) (hhi : a < 0x1F00002800000) : zone a = .doorbells := by
  have above : ∀ b ≤ doorbellBase, ¬a < b := fun b hb => by omega
  rw [zone, if_neg (above hbmEnd (by decide)), if_neg (above reserveEnd (by decide)), if_neg (above cxlBase (by decide)),
    if_neg (above cxlEnd (by decide)), if_neg (above dictBase (by decide)), if_neg (above counterBase (by decide)),
    if_neg (above 0x1F00001080000 (by decide)), if_neg (above doorbellBase (by decide)), if_pos hhi]

theorem zone_counters (hlo : counterBase ≤ a) (hhi : a < 0x1F00001080000) : zone a = .counters := by
  have above : ∀ b ≤ counterBase, ¬a < b := fun b hb => by omega
  rw [zone, if_neg (above hbmEnd (by decide)), if_neg (above reserveEnd (by decide)), if_neg (above cxlBase (by decide)),
    if_neg (above cxlEnd (by decide)), if_neg (above dictBase (by decide)), if_neg (above counterBase (by decide)), if_pos hhi]

end ControlSpace

theorem stillStarting_congr {d d' : Dev} (hm : rd d' OD.readyMemory = rd d OD.readyMemory) (hh : rd d' OD.readyHbm = rd d OD.readyHbm)
    (a : Nat) : stillStarting d' a = stillStarting d a := by
  simp only [stillStarting, readyState, hm, hh]

/-- A host's store to a doorbell posts through it (R306). -/
theorem applyRequest_doorbell {p : Packet} {d : Dev} {a : Nat} (ha : gLocal p.dst = a) (hstart : stillStarting d a = false)
    (hk : p.opk = .store) (hz : zone a = .doorbells) (hh : fromHost d p = true) (hl : p.len = 8) (hw : a % 16 = 0) :
    applyRequest p d =
      (ST.ok, 0, [], [], bellPost ((bellOf a).1 / 4) ((bellOf a).1 % 4) (bellOf a).2.1 p.operand.toNat d) := by
  subst ha
  simp [applyRequest, hstart, hk, hz, hh, hl, hw]

/-- A read of an arrival counter (R319). -/
theorem applyRequest_counter {p : Packet} {d : Dev} {k : Nat} (ha : gLocal p.dst = counterBase + 8 * k) (hk : k < 65536)
    (hstart : stillStarting d (counterBase + 8 * k) = false) (hr : p.opk = .read) (hl : p.len = 8) :
    applyRequest p d = (ST.ok, 0, leBytes 8 (counterAt d k), [], d) := by
  have hz : zone (counterBase + 8 * k) = .counters := zone_counters (Nat.le_add_right _ _) (by simp only [counterBase]; omega)
  have hin : inControl (counterBase + 8 * k) = true := decide_eq_true (Nat.le_trans (by decide) (Nat.le_add_right counterBase (8 * k)))
  have halign : (counterBase + 8 * k) % 8 = 0 := by simp only [counterBase]; omega
  simp [applyRequest, hstart, hr, ha, hz, hin, hl, ctlLoad, halign]

/-! ## A host's access of control space, in flight -/

section HostControl
variable (e a n : Nat) (v : Bytes) (d : Dev)

/-- The operation of a host's store to control space of this device. -/
def controlStore : FabOp := hostRec e (.hostWrite e) (hostDesc (rd d OD.hostContext) (gAddr (devNo d) a) (BitVec.ofNat 64 (leNat v)))
  [PktRec.new .store (gAddr (devNo d) a) 0 n] ST.ok [] (hostWrites d e) d

/-- The device with that operation in flight, its packet not sent. -/
def withStore : Dev := hostOp e (.hostWrite e) (hostDesc (rd d OD.hostContext) (gAddr (devNo d) a) (BitVec.ofNat 64 (leNat v)))
  [PktRec.new .store (gAddr (devNo d) a) 0 n] ST.ok [] (hostWrites d e) d

/-- The operation of a host's read of control space of this device, and the device with it in flight. -/
def controlRead : FabOp := hostRec e (.hostRead e) (hostDesc (rd d OD.hostContext) (gAddr (devNo d) a) 0)
  [PktRec.new .read (gAddr (devNo d) a) 0 n] ST.ok [] (hostWrites d e) d
def withRead : Dev := hostOp e (.hostRead e) (hostDesc (rd d OD.hostContext) (gAddr (devNo d) a) 0)
  [PktRec.new .read (gAddr (devNo d) a) 0 n] ST.ok [] (hostWrites d e) d

theorem hostControl_store : hostControl e a n (some v) d = finishOp d.tw.nextOp (hostSend d.tw.nextOp (withStore e a n v d)) := rfl

theorem hostControl_read : hostControl e a n none d = hostSend d.tw.nextOp (withRead e a n d) := rfl

theorem withStore_eq : withStore e a n v d = { d with tw := { d.tw with
    ops := mset d.tw.ops d.tw.nextOp (controlStore e a n v d), nextOp := d.tw.nextOp + 1,
    seqs := mput 0 d.tw.seqs (10244 + e) ((mget 0 d.tw.seqs (10244 + e) + 1) % 2 ^ 32) } } := hostOp_write ..

theorem withRead_eq : withRead e a n d = { d with tw := { d.tw with
    ops := mset d.tw.ops d.tw.nextOp (controlRead e a n d), nextOp := d.tw.nextOp + 1 } } := hostOp_read ..

theorem findOp_withStore (k : Nat) : findOp (withStore e a n v d) k =
    if d.tw.nextOp = k then some (controlStore e a n v d) else findOp d k := by
  rw [withStore_eq]
  exact mfind_mset

theorem findOp_withRead (k : Nat) : findOp (withRead e a n d) k = if d.tw.nextOp = k then some (controlRead e a n d) else findOp d k := by
  rw [withRead_eq]
  exact mfind_mset

end HostControl

/-! ## A host's post -/

section HostPost
variable {e core queue ctx : Nat} {desc : W64} {d : Dev}

theorem doorbellAt_eq : doorbellAt core queue ctx = doorbellBase + 16 * (64 * (4 * core + queue) + ctx) := by
  rw [doorbellAt]
  omega

variable (hcore : core < 2048) (hqueue : queue < 4) (hctx : ctx < 64)
include hcore hqueue hctx

theorem doorbellAt_lt : doorbellAt core queue ctx < 0x1F00002800000 := by
  rw [doorbellAt_eq, doorbellBase]
  omega

theorem zone_doorbellAt : zone (doorbellAt core queue ctx) = .doorbells :=
  zone_doorbells (by rw [doorbellAt_eq]; exact Nat.le_add_right _ _) (doorbellAt_lt hcore hqueue hctx)

omit hcore in
/-- The doorbell that an address names (R305). -/
theorem bellOf_doorbellAt : (bellOf (doorbellAt core queue ctx)).1 / 4 = core ∧ (bellOf (doorbellAt core queue ctx)).1 % 4 = queue ∧
    (bellOf (doorbellAt core queue ctx)).2.1 = ctx := by
  have hsub : doorbellBase + 16 * (64 * (4 * core + queue) + ctx) - doorbellBase = 16 * (64 * (4 * core + queue) + ctx) := by omega
  simp only [bellOf, doorbellAt_eq, hsub]
  omega

theorem gLocal_doorbellAt (dev : Nat) : gLocal (gAddr dev (doorbellAt core queue ctx)) = doorbellAt core queue ctx :=
  gLocal_gAddr (by have := doorbellAt_lt hcore hqueue hctx; omega)

theorem doorbellPost_host (hl : hostLinked d e = true) : doorbellPost (.host e) core queue ctx desc d =
    finishOp d.tw.nextOp (hostSend d.tw.nextOp (withStore e (doorbellAt core queue ctx) 8 (leBytes 8 desc.toNat) d)) := by
  rw [← hostControl_store]
  simp [doorbellPost, hl, bellNamed_of_lt hcore hqueue hctx]

end HostPost

theorem hostLinked_lt {e : Nat} {d : Dev} (h : hostLinked d e = true) : e < 2 := by
  simp only [hostLinked, Bool.and_eq_true, decide_eq_true_eq] at h
  exact h.1.1

/-- The bytes of a descriptor's address spell it (R6). -/
theorem operand_leBytes (desc : W64) : BitVec.ofNat 64 (leNat (leBytes 8 desc.toNat)) = desc := by
  rw [leNat_leBytes_of_lt (by have := desc.isLt; omega), BitVec.ofNat_toNat, BitVec.setWidth_eq]

/-! ## What a turned packet leaves -/

section Leaves
variable (r : Resp) (p : PktRec) (q : Packet) (id : Nat) (op : FabOp) (d : Dev)

@[simp] theorem credited_mem : (credited r p d).mem = d.mem := by rw [credited_frame]
@[simp] theorem credited_seq : (credited r p d).seq = d.seq := by rw [credited_frame]
@[simp] theorem credited_ops : (credited r p d).tw.ops = d.tw.ops := by rw [credited_frame]
@[simp] theorem credited_seqs : (credited r p d).tw.seqs = d.tw.seqs := by rw [credited_frame]
@[simp] theorem credited_bells : (credited r p d).tw.bells = d.tw.bells := by rw [credited_frame]

@[simp] theorem hotCounted_mem : (hotCounted q d).mem = d.mem := by rw [hotCounted_frame]
@[simp] theorem hotCounted_seq : (hotCounted q d).seq = d.seq := by rw [hotCounted_frame]
@[simp] theorem hotCounted_tw : (hotCounted q d).tw = d.tw := by rw [hotCounted_frame]

theorem findOp_launched (k : Nat) : findOp (launched id op p d) k =
    if id = k then some { op with pkts := [onItsWay d.tick p] } else findOp d k := findOp_setOp ..

end Leaves

section BellPost
variable (core queue ctx addr : Nat) (d : Dev)

@[simp] theorem bellPost_mem : (bellPost core queue ctx addr d).mem = d.mem := by
  obtain ⟨st, d1, h, h1⟩ := bellPost_cases core queue ctx addr d
  rw [h, h1]
  rfl

@[simp] theorem bellPost_seq : (bellPost core queue ctx addr d).seq = d.seq := by
  obtain ⟨st, d1, h, h1⟩ := bellPost_cases core queue ctx addr d
  rw [h, h1]
  rfl

@[simp] theorem bellPost_ops : (bellPost core queue ctx addr d).tw.ops = d.tw.ops := by
  obtain ⟨st, d1, h, h1⟩ := bellPost_cases core queue ctx addr d
  rw [h, h1]
  rfl

@[simp] theorem bellPost_seqs : (bellPost core queue ctx addr d).tw.seqs = d.tw.seqs := by
  obtain ⟨st, d1, h, h1⟩ := bellPost_cases core queue ctx addr d
  rw [h, h1]
  rfl

theorem bellPost_bells (k : Nat) : ∃ st, mget Bell.empty (bellPost core queue ctx addr d).tw.bells k =
    if 64 * (4 * core + queue) + ctx = k then
      { status := st, count := ((mget Bell.empty d.tw.bells (64 * (4 * core + queue) + ctx)).count + 1) % 2 ^ 48 }
    else mget Bell.empty d.tw.bells k := by
  obtain ⟨st, d1, h, h1⟩ := bellPost_cases core queue ctx addr d
  refine ⟨st, ?_⟩
  rw [h, mget_withBell, h1]

end BellPost

section AckStore
variable {r : Resp} {op : FabOp} {p : PktRec} {d : Dev} (hk : p.kind = .store)
include hk

theorem ackPacket_store_snd : (ackPacket r 0 op p d).2 = d := by simp [ackPacket, hk]
theorem ackPacket_store_use : (ackPacket r 0 op p d).1.use_ = op.use_ := by simp [ackPacket, hk, modPkt]
theorem ackPacket_store_status : (ackPacket r 0 op p d).1.status = op.status := by simp [ackPacket, hk, modPkt]

theorem ackPacket_store_decided (hb : op.begun = true) (hp : op.pkts = [p]) : decided (ackPacket r 0 op p d).1 = true := by
  simp [ackPacket, hk, modPkt, decided, allAcked, hb, hp, lmod]

/-- An acknowledged host write ends. -/
theorem finishOp_acknowledged {id e : Nat} (hb : op.begun = true) (hp : op.pkts = [p]) (hu : op.use_ = .hostWrite e) (hst : op.status = ST.ok) :
    finishOp id (setOp id (ackPacket r 0 op p d).1 (ackPacket r 0 op p d).2) =
      removeOp id (ackPacket r 0 op p d).1 (setOp id (ackPacket r 0 op p d).1 d) := by
  rw [finishOp_decided (findOp_setOp_same ..) (ackPacket_store_decided hk hb hp) ((ackPacket_store_use hk).trans hu), endHostWrite,
    if_pos ((ackPacket_store_status hk).trans hst), ackPacket_store_snd hk]

end AckStore

/-! ## A host's store, sent -/

section Sent
variable (e a n : Nat) (v : Bytes) (d : Dev)

/-- The packet of a host's store, and the device as it arrives at its own link die. -/
def storePkt : PktRec := PktRec.new .store (gAddr (devNo d) a) 0 n
def storePacket : Packet := buildPacket (withStore e a n v d) (controlStore e a n v d) (storePkt a n d)
def storeArrived : Dev :=
  hotCounted (storePacket e a n v d) (launched d.tw.nextOp (controlStore e a n v d) (storePkt a n d) (withStore e a n v d))

theorem storeArrived_tw : (storeArrived e a n v d).tw = (launched d.tw.nextOp (controlStore e a n v d) (storePkt a n d)
    (withStore e a n v d)).tw := hotCounted_tw ..

theorem rd_storeArrived {k : Nat} (hk : k ≠ OD.hotSignalsSent) : rd (storeArrived e a n v d) k = rd d k := by
  rw [storeArrived, rd_hotCounted _ _ hk, withStore_eq]
  rfl

theorem storeArrived_mem : (storeArrived e a n v d).mem = d.mem := by
  rw [storeArrived, hotCounted_mem, withStore_eq]
  rfl

theorem storeArrived_seq : (storeArrived e a n v d).seq = d.seq := by
  rw [storeArrived, hotCounted_seq, withStore_eq]
  rfl

theorem storeArrived_bells : (storeArrived e a n v d).tw.bells = d.tw.bells := by
  rw [storeArrived_tw, withStore_eq]
  rfl

theorem storeArrived_seqs : (storeArrived e a n v d).tw.seqs =
    mput 0 d.tw.seqs (10244 + e) ((mget 0 d.tw.seqs (10244 + e) + 1) % 2 ^ 32) := by
  rw [storeArrived_tw, withStore_eq]
  rfl

theorem findOp_storeArrived {k : Nat} (hk : k ≠ d.tw.nextOp) : findOp (storeArrived e a n v d) k = findOp d k := by
  rw [findOp, storeArrived_tw]
  exact (findOp_launched ..).trans ((if_neg hk.symm).trans ((findOp_withStore ..).trans (if_neg hk.symm)))

variable {e a n v d} (ha : a < 2 ^ 49) (hdev : devNo d < 2 ^ 15) (hfree : findOp d d.tw.nextOp = none) (hnone : hostWrites d e = [])
  (hroom : lacksRoom d (gAddr (devNo d) a) = false)
  (hsole : ∀ o ∈ d.tw.ops, ¬(o.2.slot = 10244 + e ∧ o.2.seq = mget 0 d.tw.seqs (10244 + e)))
include hfree hnone hroom

theorem maySend_store : maySend (withStore e a n v d) d.tw.nextOp (controlStore e a n v d) (storePkt a n d) = true := by
  have hroom' : lacksRoom (withStore e a n v d) (gAddr (devNo d) a) = false := by
    rw [withStore_eq, lacksRoom_withOp hfree rfl (by intro q hq; rw [List.mem_singleton.1 hq]; rfl)]
    exact hroom
  have hslot : 8192 ≤ (controlStore e a n v d).slot := Nat.le_trans (by decide) (Nat.le_add_right 10244 e)
  have hafter : (controlStore e a n v d).after = [] := hnone
  rw [maySend_hostOp rfl rfl rfl rfl hslot, hafter, storePkt, PktRec.new, hroom']
  rfl

include ha hdev hsole

/-- With no write of the host outstanding its store leaves at once, and ends at once. -/
theorem hostControl_store_sent {d1 : Dev}
    (happly : applyRequest (storePacket e a n v d) (storeArrived e a n v d) = (ST.ok, 0, [], [], d1))
    (hops : d1.tw.ops = (storeArrived e a n v d).tw.ops) :
    ∃ r op, hostControl e a n (some v) d = removeOp d.tw.nextOp op (setOp d.tw.nextOp op (credited r (onItsWay d.tick (storePkt a n d)) d1)) := by
  have hop : findOp (withStore e a n v d) d.tw.nextOp = some (controlStore e a n v d) := (findOp_withStore ..).trans (if_pos rfl)
  have hself : gDev (storePkt a n d).dst = devNo (withStore e a n v d) := gDev_gAddr hdev ha
  have honly : ∀ o ∈ (withStore e a n v d).tw.ops, o.2.slot = (controlStore e a n v d).slot → o.2.seq = (controlStore e a n v d).seq →
      o.1 = d.tw.nextOp := by
    intro o ho hslot hseq
    rw [withStore_eq] at ho
    rcases mset_mem ho with rfl | ho
    · rfl
    · exact absurd ⟨hslot, hseq⟩ (hsole o ho)
  have hsent := sendPacket_turned hop rfl rfl (by simp [controlStore, hostRec]) hself (.inl rfl) rfl honly happly
    (hops.trans (congrArg _ (storeArrived_tw ..)))
  rw [hostControl_store, hostSend_goes hop rfl (maySend_store hfree hnone hroom), hsent]
  exact ⟨_, _, finishOp_acknowledged rfl rfl rfl rfl rfl⟩

end Sent

section HostPostSent
variable {e core queue ctx : Nat} {desc : W64} {d : Dev} (hcore : core < 2048) (hqueue : queue < 4) (hctx : ctx < 64)
  (he : e < 2)
include hcore hqueue hctx he

/-- At the link die the store posts through the doorbell. -/
theorem applyRequest_post {p : Packet} {d' : Dev} (hp : p = storePacket e (doorbellAt core queue ctx) 8 (leBytes 8 desc.toNat) d)
    (hrd : ∀ k, k ≠ OD.hotSignalsSent → rd d' k = rd d k) (hstart : stillStarting d (doorbellAt core queue ctx) = false) :
    applyRequest p d' = (ST.ok, 0, [], [], bellPost core queue ctx desc.toNat d') := by
  have hstart' : stillStarting d' (doorbellAt core queue ctx) = false := by
    rw [stillStarting_congr (hrd _ (by decide)) (hrd _ (by decide)), hstart]
  have hfrom : fromHost d' p = true := by
    have hdev' : devNo d' = devNo d := hrd _ (by decide)
    have hsrc : p.srcDev = devNo d := by rw [hp]; rfl
    have hslot : p.slot = 10244 + e := by rw [hp]; rfl
    simp [fromHost, hsrc, hslot, hdev']
    omega
  have hoperand : p.operand = desc := by
    rw [hp]
    exact operand_leBytes desc
  have halign : doorbellAt core queue ctx % 16 = 0 := by
    rw [doorbellAt_eq, doorbellBase]
    omega
  have hdst : p.dst = gAddr (devNo d) (doorbellAt core queue ctx) := by rw [hp]; rfl
  obtain ⟨hc, hq, hx⟩ := bellOf_doorbellAt (core := core) hqueue hctx
  rw [applyRequest_doorbell (by rw [hdst, gLocal_doorbellAt hcore hqueue hctx]) hstart' (by rw [hp]; rfl)
    (zone_doorbellAt hcore hqueue hctx) hfrom (by rw [hp]; rfl) halign, hc, hq, hx, hoperand]


omit he in
/-- With no write of the host outstanding, a post is a store of control space turned round at once (R133, R315). -/
theorem doorbellPost_sent {s : State} (hc : Calm s) (hdev : devNo s.m < 2 ^ 15) (hl : hostLinked s.m e = true)
    (hfree : findOp s.m s.m.tw.nextOp = none) (hnone : hostWrites s.m e = [])
    (hroom : lacksRoom s.m (gAddr (devNo s.m) (doorbellAt core queue ctx)) = false)
    (hstart : stillStarting s.m (doorbellAt core queue ctx) = false)
    (hsole : ∀ o ∈ s.m.tw.ops, ¬(o.2.slot = 10244 + e ∧ o.2.seq = mget 0 s.m.tw.seqs (10244 + e))) :
    Completes (.doorbellPost (.host e) core queue ctx desc) s (fun d =>
      (mget Bell.empty d.tw.bells (64 * (4 * core + queue) + ctx)).count =
        ((mget Bell.empty s.m.tw.bells (64 * (4 * core + queue) + ctx)).count + 1) % 2 ^ 48 ∧
      (∀ k, k ≠ 64 * (4 * core + queue) + ctx → mget Bell.empty d.tw.bells k = mget Bell.empty s.m.tw.bells k) ∧
      (∀ k, findOp d k = findOp s.m k) ∧
      mget 0 d.tw.seqs (10244 + e) = (mget 0 s.m.tw.seqs (10244 + e) + 1) % 2 ^ 32 ∧ d.mem = s.m.mem) := by
  have ha : doorbellAt core queue ctx < 2 ^ 49 := Nat.lt_trans (doorbellAt_lt hcore hqueue hctx) (by decide)
  have happly := applyRequest_post (desc := desc) hcore hqueue hctx (hostLinked_lt hl) rfl
    (fun k hk => rd_storeArrived e (doorbellAt core queue ctx) 8 (leBytes 8 desc.toNat) s.m hk) hstart
  obtain ⟨r, op, heffect⟩ := hostControl_store_sent ha hdev hfree hnone hroom hsole happly (bellPost_ops ..)
  rw [hostControl_store, ← doorbellPost_host hcore hqueue hctx hl] at heffect
  refine completes_onDev hc (exec_doorbellPost ..) heffect ?_ ⟨?_, fun k hk => ?_, fun k => ?_, ?_, ?_⟩
  · exact (credited_seq ..).trans ((bellPost_seq ..).trans (storeArrived_seq ..))
  · refine (congrArg (fun m => (mget Bell.empty m _).count) (credited_bells ..)).trans ?_
    obtain ⟨st, h⟩ := bellPost_bells core queue ctx desc.toNat
      (storeArrived e (doorbellAt core queue ctx) 8 (leBytes 8 desc.toNat) s.m) (64 * (4 * core + queue) + ctx)
    rw [h, if_pos rfl, storeArrived_bells]
  · refine (congrArg (fun m => mget Bell.empty m _) (credited_bells ..)).trans ?_
    obtain ⟨st, h⟩ := bellPost_bells core queue ctx desc.toNat
      (storeArrived e (doorbellAt core queue ctx) 8 (leBytes 8 desc.toNat) s.m) k
    rw [h, if_neg hk.symm, storeArrived_bells]
  · rw [findOp_removeOp, findOp_setOp]
    by_cases hk : s.m.tw.nextOp = k
    · rw [if_pos hk, ← hk, hfree]
    · rw [if_neg hk, if_neg hk, findOp, credited_ops, bellPost_ops]
      exact findOp_storeArrived _ _ _ _ _ (Ne.symm hk)
  · refine (congrArg (mget 0 · (10244 + e)) ((credited_seqs ..).trans ((bellPost_seqs ..).trans (storeArrived_seqs ..)))).trans ?_
    rw [mget_mput, if_pos rfl]
  · exact (credited_mem ..).trans ((bellPost_mem ..).trans (storeArrived_mem ..))

omit he in
/-- Otherwise it waits for them (R133). -/
theorem doorbellPost_waits {s : State} (hc : Calm s) (hl : hostLinked s.m e = true) (hlow : ∀ k ∈ hostWrites s.m e, k < s.m.tw.nextOp)
    (hsome : hostWrites s.m e ≠ []) (hfound : ∀ k ∈ hostWrites s.m e, (findOp s.m k).isSome) :
    Completes (.doorbellPost (.host e) core queue ctx desc) s (fun d =>
      d.tw.bells = s.m.tw.bells ∧ d.tw.queues = s.m.tw.queues ∧ d.mem = s.m.mem ∧
      ∃ op, OpIs s.m.tw.nextOp op s.m d ∧ op.use_ = .hostWrite e ∧ op.after = hostWrites s.m e ∧ op.fixed = false ∧
        op.pkts = [PktRec.new .store (gAddr (devNo s.m) (doorbellAt core queue ctx)) 0 8]) := by
  let a := doorbellAt core queue ctx
  let v := leBytes 8 desc.toNat
  have hop : findOp (withStore e a 8 v s.m) s.m.tw.nextOp = some (controlStore e a 8 v s.m) := (findOp_withStore ..).trans (if_pos rfl)
  obtain ⟨k, hk⟩ := List.exists_mem_of_ne_nil _ hsome
  have hheld : (controlStore e a 8 v s.m).after.all (fun i => (findOp (withStore e a 8 v s.m) i).isNone) = false := by
    have hne : s.m.tw.nextOp ≠ k := (hlow k hk).ne'
    have hthere := hfound k hk
    refine List.all_eq_false.2 ⟨k, hk, ?_⟩
    rw [findOp_withStore, if_neg hne]
    simpa [Option.isSome_iff_ne_none] using hthere
  have hmay : maySend (withStore e a 8 v s.m) s.m.tw.nextOp (controlStore e a 8 v s.m) (storePkt a 8 s.m) = false := by
    rw [maySend_hostOp rfl rfl rfl rfl (Nat.le_trans (by decide) (Nat.le_add_right 10244 e)), hheld, Bool.false_and]
  have hundecided : decided (controlStore e a 8 v s.m) = false := rfl
  have heffect : doorbellPost (.host e) core queue ctx desc s.m = withStore e a 8 v s.m := by
    rw [doorbellPost_host hcore hqueue hctx hl, hostSend_waits hop rfl hmay, finishOp_undecided hop hundecided]
  rw [withStore_eq] at heffect
  refine completes_onDev hc (exec_doorbellPost ..) heffect rfl ⟨rfl, rfl, rfl, controlStore e a 8 v s.m, ⟨?_, fun k hk => ?_⟩, rfl, rfl, rfl, rfl⟩
  · exact mfind_mset.trans (if_pos rfl)
  · exact mfind_mset.trans (if_neg hk.symm)

end HostPostSent

theorem hostDoorbellPart : Claims.HostDoorbellPart := by
  intro e core queue ctx desc s hc hcore hqueue hctx hdev
  simp only [← doorbellAt_eq]
  refine ⟨fun hl => ?_, fun hl hfree hlow => ⟨fun hnone hroom _ hstart hsole => ?_, fun hsome hfound => ?_⟩⟩
  · refine becomes_onDev hc (exec_doorbellPost ..) ?_ rfl
    simp [doorbellPost, hl]
  · rw [gLocal_doorbellAt hcore hqueue hctx] at hstart
    exact doorbellPost_sent hcore hqueue hctx hc hdev hl hfree hnone hroom hstart hsole
  · exact doorbellPost_waits hcore hqueue hctx hc hl hlow hsome hfound

end Sys2Proof.Machine
end

section
/-!
PROOFS. The issue of a fabric queue's oldest descriptor (R296, R298, R303, R304, R338, R359, R398).
-/

namespace Sys2Proof.Machine

open Claims (Raises Counted OpIs BehindOne)

theorem exec_fabricOpIssue (core queue : Nat) (s : State) : exec (.fabricOpIssue core queue) s = onDev (fabricIssue core queue) s := rfl

/-! ## An operation made (R296, R304, R359) -/

section NewOp
variable (x : FabDesc) (slot : Nat) (d : Dev)

/-- The table that the operation's pages are checked against, and the device after the choice of it (R302). -/
def issueView : List FttEntry × Dev := if opRemote d x false then fttView d else ([], d)

/-- The first byte whose page lacks the right, the packets, and the status of the checks. -/
def issueDeny : Option Nat := if opRemote d x false then opDenied d (issueView x d).1 x false else none
def issuePkts : List PktRec := cutPackets d (issueView x d).1 x false
def issueStatus : Status := if (issueDeny x d).isSome then ST.access else targetStatus d (issueView x d).1 x (issuePkts x d)

/-- The device with what a failed check records. -/
def issueRecorded : Dev :=
  match issueDeny x d with
  | some a => recordDenial x.ctx a (issueView x d).2
  | none => if issueStatus x d = ST.peerLimit then recordPeerLimit (issueView x d).2 else (issueView x d).2

/-- The operation that a queue's descriptor becomes. -/
def issuedOp : FabOp :=
  { desc := x, use_ := .queue, slot, epoch := (ctxOf d x.ctx).epoch, seq := mget 0 d.tw.seqs slot, sequenced := opSequenced x false,
    pkts := if issueStatus x d = ST.ok then issuePkts x d else [], begun := false, status := issueStatus x d,
    fixed := decide (issueStatus x d ≠ ST.ok), bytes := 0, result := 0, data := [],
    multi := decide (((issuePkts x d).map (fun p => gDev p.dst)).eraseDups.length > 1), counted := false, after := [] }

theorem issueView_frame : (issueView x d).2 = { d with free := (issueView x d).2.free } := by
  rw [issueView, fttView]
  split
  · split <;> rfl
  · rfl

theorem issueRecorded_frame : issueRecorded x d =
    { d with od := (issueRecorded x d).od, ev := (issueRecorded x d).ev, free := (issueRecorded x d).free } := by
  unfold issueRecorded
  split
  · rw [recordDenial_frame, issueView_frame]
  · split
    · rw [recordPeerLimit, raiseRated_frame, issueView_frame]
      rfl
    · rw [issueView_frame]

theorem newOp_queue : newOp x .queue slot false d = (d.tw.nextOp, { issueRecorded x d with tw := { (issueRecorded x d).tw with
    ops := mset (issueRecorded x d).tw.ops d.tw.nextOp (issuedOp x slot d), nextOp := d.tw.nextOp + 1,
    seqs := mput 0 (issueRecorded x d).tw.seqs slot ((mget 0 d.tw.seqs slot + 1) % 2 ^ 32) } }) := rfl

end NewOp

/-! ## A STORE at its link die (R298, R310) -/

section StoreIssue
variable {x : FabDesc} {slot : Nat} {d : Dev} (hop : fdOp x = 1) (hcnt : fdDstCntEn x = false)
  (halign : fdDst x % 2 ^ fdSize x = 0) (hp : d.tw.fttPending = none)

theorem fdSize_lt (x : FabDesc) : fdSize x < 4 := Nat.mod_lt _ (by decide)

include halign in
/-- A naturally aligned operand lies within 64 KiB. -/
theorem store_within : fdDst x % 65536 + 2 ^ fdSize x ≤ 65536 := by
  have := fdSize_lt x
  generalize fdSize x = k at *
  interval_cases k <;> omega

include hop

theorem leaves_store : leaves d x = true := by simp [leaves, hop]

include hp

theorem issueView_store : issueView x d = (d.tw.ftt0, d) := by
  rw [issueView, opRemote, leaves_store hop, fttView_settled hp]
  rfl

theorem issuePkts_store : issuePkts x d = [PktRec.new .store (translated d.tw.ftt0 x.ctx (fdDst x)) 0 (2 ^ fdSize x)] := by
  simp [issuePkts, issueView_store hop hp, cutPackets, hop, translated]

include hcnt

theorem issueDeny_store : issueDeny x d = fttDenied d.tw.ftt0 x.ctx (fun e => e.wr) (fdDst x) (2 ^ fdSize x) := by
  simp [issueDeny, opRemote, leaves_store hop, opDenied, isGet, hop, hcnt, issueView_store hop hp, dstExtent]

include halign

/-- A page that lacks the right makes the operation ST_ACCESS, and is recorded (R296). -/
theorem issue_denied (h : ∀ e, fttLookup d.tw.ftt0 x.ctx (fdDst x) = some e → e.wr = false) :
    issueStatus x d = ST.access ∧ issueRecorded x d = recordDenial x.ctx (fdDst x) d := by
  have hdeny : issueDeny x d = some (fdDst x) :=
    (issueDeny_store hop hcnt hp).trans (fttDenied_lacking (Nat.one_le_two_pow) (store_within halign) h)
  constructor
  · rw [issueStatus, hdeny]
    rfl
  · simp only [issueRecorded, hdeny, issueView_store hop hp]

variable {e : FttEntry} (he : fttLookup d.tw.ftt0 x.ctx (fdDst x) = some e) (hw : e.wr = true)
include he hw

theorem issueStatus_granted : issueStatus x d =
    targetStatus d d.tw.ftt0 x [PktRec.new .store (e.tgt * 65536 + fdDst x % 2 ^ pageBits e.size) 0 (2 ^ fdSize x)] := by
  have hdeny : issueDeny x d = none :=
    (issueDeny_store hop hcnt hp).trans (fttDenied_granted Nat.one_le_two_pow (store_within halign) he hw)
  rw [issueStatus, hdeny, issuePkts_store hop hp, issueView_store hop hp, translated_eq he]
  rfl

theorem issueStatus_unmapped (hm : mapped (gLocal (e.tgt * 65536 + fdDst x % 2 ^ pageBits e.size)) 1 = false) :
    issueStatus x d = ST.access := by
  rw [issueStatus_granted hop hcnt halign hp he hw]
  simp [targetStatus, PktRec.new, hm]

theorem issueStatus_ok (hm : mapped (gLocal (e.tgt * 65536 + fdDst x % 2 ^ pageBits e.size)) 1 = true)
    (hg : peerGen d (gDev (e.tgt * 65536 + fdDst x % 2 ^ pageBits e.size)) = 3) : issueStatus x d = ST.ok := by
  rw [issueStatus_granted hop hcnt halign hp he hw]
  simp [targetStatus, PktRec.new, hm, peerBreaks_p3 hg]

end StoreIssue

/-! ## What the issue notes besides -/

section Noted
variable (q id : Nat) (x : FabDesc) (d : Dev)

/-- The notes of an issue: a flagged store's cover, the sequencer's item, a RUN's wait limit. -/
def issueNoted : Dev := noteRunIssued id x (noteItem id x (noteFlag q id x d))

theorem noteFlag_frame : noteFlag q id x d = { d with tw := { d.tw with queues := (noteFlag q id x d).tw.queues } } := by
  unfold noteFlag
  split <;> rfl

theorem noteItem_frame : noteItem id x d = { d with seq := { d.seq with items := (noteItem id x d).seq.items } } := by
  unfold noteItem
  split <;> rfl

theorem noteRunIssued_frame : noteRunIssued id x d = { d with runs := (noteRunIssued id x d).runs } := by
  unfold noteRunIssued
  split <;> rfl

theorem issueNoted_frame : issueNoted q id x d = { d with
    runs := (issueNoted q id x d).runs, seq := { d.seq with items := (issueNoted q id x d).seq.items },
    tw := { d.tw with queues := (noteFlag q id x d).tw.queues } } := by
  rw [issueNoted, noteRunIssued_frame, noteItem_frame, noteFlag_frame]

theorem queueOf_issueNoted (k : Nat) : queueOf (issueNoted q id x d) k = queueOf (noteFlag q id x d) k := by
  rw [queueOf, issueNoted_frame, queueOf]

theorem queueOf_noteFlag_other {k : Nat} (h : k ≠ q) : queueOf (noteFlag q id x d) k = queueOf d k := by
  unfold noteFlag
  split
  · exact queueOf_setQueue_other _ _ _ h
  · rfl

theorem accepted_noteFlag : (queueOf (noteFlag q id x d) q).accepted = (queueOf d q).accepted := by
  unfold noteFlag
  split
  · simp only [queueOf_setQueue_same]
  · rfl

end Noted

/-! ## The issue -/

/-- A queue without its oldest descriptor. -/
def taken (q : Nat) (rest : List FabDesc) (d : Dev) : Dev := setQueue q { queueOf d q with accepted := rest } d

section Issue
variable {core queue : Nat} {d : Dev}

theorem fabricIssue_empty (h : (queueOf d (4 * core + queue)).accepted = []) : fabricIssue core queue d = d := by
  simp [fabricIssue, h]

theorem fabricIssue_waits (h : rd d OD.outstandingPerQueue ≤ (slotOps d (4 * core + queue)).length ∨
    creditHeld d (4 * core + queue) d.tw.nextOp = true) : fabricIssue core queue d = d := by
  unfold fabricIssue
  dsimp only
  split
  · rfl
  · exact if_pos (h.elim .inl (.inr ∘ .inl))

/-- An operation of the queue that waits for credits holds back the later ones (R338). -/
theorem creditHeld_of_behindOne {id slot : Nat} (h : BehindOne d id slot) : creditHeld d slot id = true := by
  obtain ⟨hslot, o, hmem, hlow, hosl, hbegun, hfixed, p, hp, hst, hbusy, hcredit⟩ := h
  simp only [creditHeld, hslot, decide_true, Bool.true_and, List.any_eq_true, slotOps, List.mem_filter, beq_iff_eq, Bool.and_eq_true,
    decide_eq_true_eq]
  refine ⟨o, ⟨hmem, hosl⟩, hlow, ?_⟩
  have hroom : lacksRoom d p.dst = true := by simp [lacksRoom, hcredit]
  simp only [opWaits, hbegun, hfixed, Bool.not_false, Bool.true_and, List.any_eq_true, Bool.and_eq_true, decide_eq_true_eq]
  exact ⟨p, hp, ⟨hst, by simp [hbusy]⟩, hroom⟩

theorem fabricIssue_goes {x : FabDesc} {rest : List FabDesc} (hacc : (queueOf d (4 * core + queue)).accepted = x :: rest)
    (hplace : (slotOps d (4 * core + queue)).length < rd d OD.outstandingPerQueue)
    (hcredit : creditHeld d (4 * core + queue) d.tw.nextOp = false) (hrun : runHolds d (4 * core + queue) = false)
    (hreset : engineInReset d (0x5000 + core) = false) (huse : useAny d linkDies = ST.ok) :
    fabricIssue core queue d = issueNoted (4 * core + queue) d.tw.nextOp x
      (newOp x .queue (4 * core + queue) false (taken (4 * core + queue) rest d)).2 := by
  have hno : ¬(rd d OD.outstandingPerQueue ≤ (slotOps d (4 * core + queue)).length ∨
      creditHeld d (4 * core + queue) d.tw.nextOp = true ∨ runHolds d (4 * core + queue) = true ∨
      engineInReset d (0x5000 + core) = true ∨ useAny d linkDies ≠ ST.ok) := by
    simp [hplace, hcredit, hrun, hreset, huse]
  simp only [fabricIssue, hacc, if_neg hno]
  rfl

end Issue

section IssueFacts
variable (q : Nat) (x : FabDesc) (rest : List FabDesc) (d : Dev)

/-- The device after the issue of a descriptor. -/
def afterIssue : Dev := issueNoted q d.tw.nextOp x (newOp x .queue q false (taken q rest d)).2

theorem afterIssue_mem : (afterIssue q x rest d).mem = d.mem := by
  rw [afterIssue, issueNoted_frame, newOp_queue, issueRecorded_frame]
  rfl

theorem afterIssue_od : (afterIssue q x rest d).od = (issueRecorded x (taken q rest d)).od := by
  rw [afterIssue, issueNoted_frame, newOp_queue]

theorem afterIssue_reached : (afterIssue q x rest d).seq.reached = d.seq.reached := by
  rw [afterIssue, issueNoted_frame, newOp_queue, issueRecorded_frame]
  rfl

theorem afterIssue_nextOp : (afterIssue q x rest d).tw.nextOp = d.tw.nextOp + 1 := by
  rw [afterIssue, issueNoted_frame, newOp_queue]
  rfl

theorem afterIssue_seqs : (afterIssue q x rest d).tw.seqs = mput 0 d.tw.seqs q ((mget 0 d.tw.seqs q + 1) % 2 ^ 32) := by
  rw [afterIssue, issueNoted_frame, newOp_queue, issueRecorded_frame]
  rfl

theorem afterIssue_ops : (afterIssue q x rest d).tw.ops = mset d.tw.ops d.tw.nextOp (issuedOp x q (taken q rest d)) := by
  rw [afterIssue, issueNoted_frame, newOp_queue, issueRecorded_frame]
  rfl

theorem opIs_afterIssue : OpIs d.tw.nextOp (issuedOp x q (taken q rest d)) d (afterIssue q x rest d) := by
  refine ⟨?_, fun k hk => ?_⟩ <;> rw [findOp, afterIssue_ops, mfind_mset]
  · exact if_pos rfl
  · exact if_neg hk.symm

theorem queueOf_newOp (k : Nat) : queueOf (newOp x .queue q false (taken q rest d)).2 k = queueOf (taken q rest d) k := by
  rw [newOp_queue, issueRecorded_frame]
  rfl

theorem afterIssue_accepted : (queueOf (afterIssue q x rest d) q).accepted = rest := by
  rw [afterIssue, queueOf_issueNoted, accepted_noteFlag, queueOf_newOp, taken, queueOf_setQueue_same]

theorem afterIssue_otherQueues {k : Nat} (hk : k ≠ q) : queueOf (afterIssue q x rest d) k = queueOf d k := by
  rw [afterIssue, queueOf_issueNoted, queueOf_noteFlag_other _ _ _ _ hk, queueOf_newOp, taken, queueOf_setQueue_other _ _ _ hk]

end IssueFacts

section StoreClauses
variable {q : Nat} {x : FabDesc} {rest : List FabDesc} {d : Dev} (hop : fdOp x = 1) (hcnt : fdDstCntEn x = false)
  (halign : fdDst x % 2 ^ fdSize x = 0) (hp : d.tw.fttPending = none)
include hop hcnt halign hp

/-- An issued STORE whose page lacks the right. -/
theorem afterIssue_denied (h : ∀ e, fttLookup d.tw.ftt0 x.ctx (fdDst x) = some e → e.wr = false) :
    (issuedOp x q (taken q rest d)).status = ST.access ∧ (issuedOp x q (taken q rest d)).fixed = true ∧
      (issuedOp x q (taken q rest d)).pkts = [] ∧ rd (afterIssue q x rest d) OD.lastDenialPage = fdDst x / 65536 * 65536 ∧
      rd (afterIssue q x rest d) OD.lastDenialContext = x.ctx ∧ Counted OD.fttDenials true d (afterIssue q x rest d) := by
  obtain ⟨hst, hrec⟩ := issue_denied (d := taken q rest d) hop hcnt halign hp h
  have hrd : ∀ k, rd (afterIssue q x rest d) k = rd (recordDenial x.ctx (fdDst x) (taken q rest d)) k := fun k => by
    rw [rd, afterIssue_od, hrec, rd]
  refine ⟨hst, ?_, ?_, ?_, ?_, ?_⟩
  · rw [issuedOp, hst]
    rfl
  · rw [issuedOp, hst]
    rfl
  · rw [hrd, rd_recordDenial, if_pos rfl]
  · rw [hrd, rd_recordDenial, if_neg (by decide), if_pos rfl]
  · rw [Counted, hrd, rd_recordDenial, if_neg (by decide), if_neg (by decide), if_pos rfl]
    rfl

variable {e : FttEntry} (he : fttLookup d.tw.ftt0 x.ctx (fdDst x) = some e) (hw : e.wr = true)
include he hw

theorem issuedOp_unmapped (hm : mapped (gLocal (e.tgt * 65536 + fdDst x % 2 ^ pageBits e.size)) 1 = false) :
    (issuedOp x q (taken q rest d)).status = ST.access ∧ (issuedOp x q (taken q rest d)).fixed = true ∧
      (issuedOp x q (taken q rest d)).pkts = [] := by
  have hst := issueStatus_unmapped (d := taken q rest d) hop hcnt halign hp he hw hm
  rw [issuedOp, hst]
  exact ⟨rfl, rfl, rfl⟩

theorem issuedOp_granted (hm : mapped (gLocal (e.tgt * 65536 + fdDst x % 2 ^ pageBits e.size)) 1 = true)
    (hg : peerGen d (gDev (e.tgt * 65536 + fdDst x % 2 ^ pageBits e.size)) = 3) :
    (issuedOp x q (taken q rest d)).status = ST.ok ∧ (issuedOp x q (taken q rest d)).fixed = false ∧
      (issuedOp x q (taken q rest d)).pkts = [PktRec.new .store (e.tgt * 65536 + fdDst x % 2 ^ pageBits e.size) 0 (2 ^ fdSize x)] := by
  have hst := issueStatus_ok (d := taken q rest d) hop hcnt halign hp he hw hm hg
  have hpkts := issuePkts_store (d := taken q rest d) hop hp
  rw [show (taken q rest d).tw.ftt0 = d.tw.ftt0 from rfl, translated_eq he] at hpkts
  rw [issuedOp, hst, hpkts]
  exact ⟨rfl, rfl, rfl⟩

end StoreClauses

theorem fabricIssuePart : Claims.FabricIssuePart := by
  intro core queue s x rest hc
  refine ⟨fun h => becomes_onDev hc (exec_fabricOpIssue ..) (fabricIssue_empty h) rfl,
    fun h => becomes_onDev hc (exec_fabricOpIssue ..) (fabricIssue_waits (.inl h)) rfl,
    fun h => becomes_onDev hc (exec_fabricOpIssue ..) (fabricIssue_waits (.inr (creditHeld_of_behindOne h))) rfl,
    fun hacc hplace hcredit hrun hreset huse => ?_⟩
  have heffect : fabricIssue core queue s.m = afterIssue (4 * core + queue) x rest s.m :=
    fabricIssue_goes hacc hplace hcredit hrun hreset huse
  refine completes_unheld hc (exec_fabricOpIssue ..) (by rw [heffect, afterIssue_reached]) ?_
  rw [heffect]
  refine ⟨afterIssue_accepted .., fun k hk => afterIssue_otherQueues _ _ _ _ hk, fun k => ?_, afterIssue_nextOp .., afterIssue_mem .., _,
    opIs_afterIssue .., rfl, rfl, rfl, rfl, rfl, rfl, fun hop hcnt halign hp => ⟨afterIssue_denied hop hcnt halign hp,
      fun e he hw => ⟨issuedOp_unmapped hop hcnt halign hp he hw, issuedOp_granted hop hcnt halign hp he hw⟩⟩⟩
  rw [afterIssue_seqs, mget_mput]
  by_cases hk : k = 4 * core + queue
  · rw [if_pos hk.symm, if_pos hk]
  · rw [if_neg (Ne.symm hk), if_neg hk]

/-- Settles O28: posts through doorbells by processors and by hosts, and the issue of a queue's oldest descriptor. -/
theorem doorbellsAndIssue : Obligations.DoorbellsAndIssue := ⟨doorbellPart, hostDoorbellPart, fabricIssuePart⟩

end Sys2Proof.Machine
end

section
/-!
PROOFS. A host's reads of arrival counters through BAR0 (R133, R315, R319, R391), and the statement about a host's accesses.
-/

namespace Sys2Proof.Machine

open Claims (Raises HostOp Counted)

section CounterRead
variable (e a n : Nat) (d : Dev)

/-- The packet of a host's read, and the device as it arrives at its own link die. -/
def readPkt : PktRec := PktRec.new .read (gAddr (devNo d) a) 0 n
def readPacket : Packet := buildPacket (withRead e a n d) (controlRead e a n d) (readPkt a n d)
def readArrived : Dev :=
  hotCounted (readPacket e a n d) (launched d.tw.nextOp (controlRead e a n d) (readPkt a n d) (withRead e a n d))

theorem readArrived_tw : (readArrived e a n d).tw = (launched d.tw.nextOp (controlRead e a n d) (readPkt a n d) (withRead e a n d)).tw :=
  hotCounted_tw ..

theorem rd_readArrived {k : Nat} (hk : k ≠ OD.hotSignalsSent) : rd (readArrived e a n d) k = rd d k := by
  rw [readArrived, rd_hotCounted _ _ hk, withRead_eq]
  rfl

theorem readArrived_mem : (readArrived e a n d).mem = d.mem := by
  rw [readArrived, hotCounted_mem, withRead_eq]
  rfl

theorem readArrived_seq : (readArrived e a n d).seq = d.seq := by
  rw [readArrived, hotCounted_seq, withRead_eq]
  rfl

theorem counterAt_readArrived (k : Nat) : counterAt (readArrived e a n d) k = counterAt d k := by
  rw [counterAt, readArrived_tw, withRead_eq]
  rfl

end CounterRead

section AckRead
variable {r : Resp} {op : FabOp} {p : PktRec} {d : Dev} {e : Nat} (hk : p.kind = .read) (hu : op.use_ = .hostRead e) (hst : r.status = ST.ok)
include hk hu hst

/-- Data of a host's read arrive in its operation. -/
theorem ackPacket_hostRead : ackPacket r 0 op p d = ({ modPkt 0 (fun p => { p with st := .acked }) op with
    bytes := op.bytes + p.len, data := bufWrite op.data p.localAddr (r.data.take p.len) }, d) := by
  have hu' : (modPkt 0 (fun p => { p with st := PktSt.acked }) op).use_ = .hostRead e := hu
  simp only [ackPacket, hk, hu, hst, if_true]
  rfl

end AckRead

theorem bufWrite_nil (b : Bytes) : bufWrite [] 0 b = b := by simp [bufWrite]

section ReadSent
variable {e a n : Nat} {d : Dev} (ha : a < 2 ^ 49) (hdev : devNo d < 2 ^ 15) (hnone : d.tw.ops = [])
  (hroom : lacksRoom d (gAddr (devNo d) a) = false)
include hnone hroom

theorem maySend_read : maySend (withRead e a n d) d.tw.nextOp (controlRead e a n d) (readPkt a n d) = true := by
  have hfree : mfind d.tw.ops d.tw.nextOp = none := by rw [hnone]; rfl
  have hroom' : lacksRoom (withRead e a n d) (gAddr (devNo d) a) = false := by
    rw [withRead_eq, lacksRoom_withOp (seqs := d.tw.seqs) hfree rfl (by intro q hq; rw [List.mem_singleton.1 hq]; rfl)]
    exact hroom
  have hslot : 8192 ≤ (controlRead e a n d).slot := Nat.le_trans (by decide) (Nat.le_add_right 10244 e)
  have hafter : (controlRead e a n d).after = [] := by
    show hostWrites d e = []
    rw [hostWrites, hnone]
    rfl
  rw [maySend_hostOp rfl rfl rfl rfl hslot, hafter, readPkt, PktRec.new, hroom']
  rfl

include ha hdev

/-- A host's read of control space that nothing holds back is answered at once; the operation keeps its data. -/
theorem hostControl_read_sent {data : Bytes} (hlen : data.length = n)
    (happly : applyRequest (readPacket e a n d) (readArrived e a n d) = (ST.ok, 0, data, [], readArrived e a n d)) :
    ∃ r op, hostControl e a n none d = setOp d.tw.nextOp op (credited r (onItsWay d.tick (readPkt a n d)) (readArrived e a n d)) ∧
      op.use_ = .hostRead e ∧ op.status = ST.ok ∧ op.data = data := by
  have hop : findOp (withRead e a n d) d.tw.nextOp = some (controlRead e a n d) := (findOp_withRead ..).trans (if_pos rfl)
  have hself : gDev (readPkt a n d).dst = devNo (withRead e a n d) := by
    rw [withRead_eq]
    exact gDev_gAddr hdev ha
  have honly : ∀ o ∈ (withRead e a n d).tw.ops, o.2.slot = (controlRead e a n d).slot → o.2.seq = (controlRead e a n d).seq →
      o.1 = d.tw.nextOp := by
    intro o ho _ _
    rw [withRead_eq, hnone] at ho
    rw [List.mem_singleton.1 ho]
  have hsent := sendPacket_turned hop rfl rfl (by simp [controlRead, hostRec]) hself (.inr rfl) rfl honly happly
    (congrArg _ (readArrived_tw ..))
  rw [ackPacket_hostRead (e := e) rfl rfl rfl] at hsent
  have htick : (withRead e a n d).tick = d.tick := by rw [withRead_eq]
  rw [htick] at hsent
  refine ⟨_, _, (hostControl_read ..).trans ((hostSend_goes hop rfl (maySend_read hnone hroom)).trans hsent), rfl, rfl, ?_⟩
  refine (bufWrite_nil _).trans ?_
  exact List.take_of_length_le (Nat.le_of_eq hlen)

end ReadSent

/-- A read of an arrival counter through BAR0. -/
theorem hostBar0_counter {e k : Nat} {s : State} (hc : Calm s) (hlinked : hostLinked s.m e = true) (hd : mget false s.m.pow.d3hot e = false)
    (hk : k < 65536) (hnone : s.m.tw.ops = []) (hhot : s.m.tw.hot = []) (hcredit : outstandingTo s.m (devNo s.m) < creditOf s.m (devNo s.m))
    (hstart : stillStarting s.m (counterBase + 8 * k) = false) (hdev : devNo s.m < 2 ^ 15) :
    Completes (.hostBar0Access e (counterBase + 8 * k - 0x1F00000000000) 8 none) s (fun d => ∃ op, findOp d s.m.tw.nextOp = some op ∧
      op.use_ = .hostRead e ∧ op.status = ST.ok ∧ op.data = leBytes 8 (counterAt s.m k) ∧ d.mem = s.m.mem) := by
  have ha : counterBase + 8 * k < 2 ^ 49 := by
    simp only [counterBase]
    omega
  have hoffset : 0x1F00000000000 + (counterBase + 8 * k - 0x1F00000000000) = counterBase + 8 * k := by
    simp only [counterBase]
    omega
  have hwindow : 0x1000000 ≤ counterBase + 8 * k - 0x1F00000000000 ∧ counterBase + 8 * k - 0x1F00000000000 < 0x2800000 := by
    simp only [counterBase]
    omega
  have hroom : lacksRoom s.m (gAddr (devNo s.m) (counterBase + 8 * k)) = false := by
    simp [lacksRoom, gDev_gAddr hdev ha, hhot, hcredit]
  have hstart' : stillStarting (readArrived e (counterBase + 8 * k) 8 s.m) (counterBase + 8 * k) = false := by
    rw [stillStarting_congr (rd_readArrived _ _ _ _ (by decide)) (rd_readArrived _ _ _ _ (by decide)), hstart]
  have happly := applyRequest_counter (p := readPacket e (counterBase + 8 * k) 8 s.m) (gLocal_gAddr ha) hk hstart' rfl rfl
  rw [counterAt_readArrived] at happly
  obtain ⟨r, op, heffect, hu, hst, hdata⟩ := hostControl_read_sent ha hdev hnone hroom (leBytes_length ..) happly
  have hbar := hostBar0_control (n := 8) (w := none) (l := s.log) hlinked hd hwindow
  rw [hoffset, heffect] at hbar
  refine completes_onDev hc (exec_hostBar0Access ..) hbar ?_ ⟨op, findOp_setOp_same .., hu, hst, hdata, ?_⟩
  · exact (credited_seq ..).trans (readArrived_seq ..)
  · exact (credited_mem ..).trans (readArrived_mem ..)

theorem hostAccessPart : Claims.HostAccessPart := by
  intro e s hc he
  refine ⟨fun hl o n w => ⟨becomes_onDev hc (exec_hostBar0Access ..) (hostBar0_unlinked hl) rfl,
    becomes_onDev hc (exec_hostBar2Access ..) (hostBar2_unlinked hl) rfl⟩, fun hl => ⟨fun hd o n w => ?_, fun o n w ho => ?_, fun o n w ho => ?_,
    fun hd => ⟨fun o n v ho hfit => ?_, fun k hk hops hhot hcredit hstart hdev _ => hostBar0_counter hc hl hd hk hops hhot hcredit hstart hdev,
      fun m a n w hm ha => ⟨fun h => ?_, fun hdev hlive hp hn hfit => ⟨fun h => ?_, fun h => ?_, fun x hx hmapped hg ht =>
        ⟨hostBar2_store hc hl hd hm ha hdev hlive hp hn hfit hx hmapped hg ht, hostBar2_write hc hl hd hm ha hdev hlive hp hn hfit hx hmapped hg ht,
          hostBar2_read hc hl hd hm ha hdev hlive hp hn hfit hx hmapped hg ht⟩⟩⟩⟩⟩⟩
  · exact ⟨becomes_onDev hc (exec_hostBar0Access ..) (hostBar0_d3hot hl hd) rfl,
      becomes_onDev hc (exec_hostBar2Access ..) (hostBar2_d3hot hl hd) rfl⟩
  · exact becomes_onDev hc (exec_hostBar0Access ..) (hostBar0_noFunction hl ho) rfl
  · exact becomes_onDev hc (exec_hostBar2Access ..) (hostBar2_noFunction hl ho) rfl
  · exact becomes_onDev hc (exec_hostBar0Access ..) (hostBar0_mailWrite hl hd ho hfit) rfl
  · have hfail := fun v => hostBar2_refused (n := n) (v := v) hl hd hm ha h
    exact ⟨hostWrite_fails hc (by split <;> decide) (hfail w), hostRead_fails hc (hfail w)⟩
  · have hfail := hostBar2_noRight (v := w) hl hd hm ha hdev hlive hp hn hfit h
    exact ⟨hostWrite_fails hc (by decide) hfail, hostRead_fails hc hfail⟩
  · have hfail := hostBar2_unmapped (v := w) hl hd hm ha hdev hlive hp h
    exact ⟨hostWrite_fails hc (by decide) hfail, hostRead_fails hc hfail⟩

/-- Settles O35: a host's accesses, its reads' answers, the link state and PERST_N. That a function in D3hot refuses an access, and the
bits of AER, are log entry 122; that an access is one operation of its link die, and how a write is cut, log entry 40. -/
theorem hostAccesses : Obligations.HostAccesses := by
  refine ⟨hostAccessPart, fun e s hc he => ⟨fun k op hop hu => ⟨hostReadComplete_answers hc hop hu, hostReadComplete_waits hc hop hu⟩,
    fun hrole => ⟨fun st r w h => becomes_onDev hc (exec_edgeLinkStateChange ..) (edgeLink_otherRole hrole st) rfl,
      fundamentalReset_otherRole hc hrole⟩,
    fun hrole r w h => ⟨edgeLinkStateChange_up hc he hrole,
      fun hno => becomes_onDev hc (exec_edgeLinkStateChange ..) (edgeLink_refused hno) rfl,
      edgeLinkStateChange_down hc he hrole, fundamentalReset_asserted hc he hrole, fundamentalReset_released hc he hrole⟩⟩⟩

end Sys2Proof.Machine
end

section
/-!
SUPPORT. Where the bytes of data memory stand and what a write of them changes, on a device without loaded regions whose slices hold
nothing that an eviction would change (R254, R255, R258, R263, R277, R280, R434).
-/

namespace Sys2Proof.Machine

/-! ## A line used -/

theorem makeRoom_frame {m m' : MemState} {k : Nat} (h : m.settled = true) (hm : makeRoom k m = some m') : m' = { m with llc := m'.llc } := by
  unfold makeRoom at hm
  dsimp only at hm
  split at hm
  · cases hm
    rfl
  · obtain ⟨e, hv, rfl⟩ := Option.map_eq_some_iff.1 hm
    have he : e ∈ m.llc := by simpa using List.mem_of_find?_eq_some hv
    have hkeeps : (e.dirty || e.below.isNone) = true := List.all_eq_true.1 h e he
    have hevict : evict e m = m := by
      unfold evict
      cases hdirty : e.dirty with
      | true => rfl
      | false =>
        have hbelow : e.below = none := by simpa [hdirty] using hkeeps
        rw [hbelow]
    rw [hevict]

theorem use_frame {m : MemState} (l : Nat) (w : Bool) (h : m.settled = true) : use l w m = { m with llc := (use l w m).llc } := by
  unfold use
  split
  · rfl
  · unfold touch
    split
    · rfl
    · split
      · rename_i m' hm'
        have hroom := makeRoom_frame h hm'
        rw [hroom]
      · rfl

/-! ## Places of storage (R277) -/

theorem zone_cxl {a : Nat} : zone a = .cxl ↔ cxlBase ≤ a ∧ a < cxlEnd := by
  have hlow : reserveEnd ≤ cxlBase ∧ hbmEnd ≤ cxlBase := by decide
  unfold zone
  split_ifs <;> simp only [false_iff, true_iff] <;> omega

theorem dvd_natMin {k a b : Nat} (ha : k ∣ a) (hb : k ∣ b) : k ∣ Nat.min a b := by
  rcases Nat.le_total a b with h | h
  · rwa [show Nat.min a b = a from Nat.min_eq_left h]
  · rwa [show Nat.min a b = b from Nat.min_eq_right h]

section Place
variable {m m' : MemState} {a b w v i : Nat}

theorem gib_dvd (n : Nat) : 64 ∣ n / 2 ^ 30 * 2 ^ 30 := Dvd.dvd.mul_left (by decide) _

theorem cxlC0_dvd (m : MemState) : 64 ∣ cxlC0 m := dvd_natMin (gib_dvd _) (by decide)
theorem cxlC1_dvd (m : MemState) : 64 ∣ cxlC1 m := dvd_natMin (gib_dvd _) (Nat.dvd_sub (by decide) (cxlC0_dvd m))

/-- The two expanders back at most the window. -/
theorem cxl_capacity (m : MemState) : cxlC0 m + cxlC1 m ≤ 2 ^ 44 := by
  have h0 : cxlC0 m ≤ 2 ^ 44 := Nat.min_le_right ..
  have h1 : cxlC1 m ≤ 2 ^ 44 - cxlC0 m := Nat.min_le_right ..
  omega

/-- Where an offset of the backed window stands on the expanders. -/
def expanderPlace (m : MemState) (w : Nat) : Nat :=
  if interleaved m then cxlStore (nfld w 12 12) + (w / 2 ^ 13 * 2 ^ 12 + w % 2 ^ 12)
  else if w < cxlC0 m then cxlStore 0 + w else cxlStore 1 + (w - cxlC0 m)

theorem cxlPortOf_at (h : a - cxlBase = w) : cxlPortOf m a =
    if w < cxlC0 m + cxlC1 m then if interleaved m then some (nfld w 12 12) else if w < cxlC0 m then some 0 else some 1
    else none := by
  subst h
  rfl

theorem cxlDpa_at (h : a - cxlBase = w) : cxlDpa m a =
    if interleaved m then w / 2 ^ 13 * 2 ^ 12 + w % 2 ^ 12 else if w < cxlC0 m then w else w - cxlC0 m := by
  subst h
  rfl

theorem storeAt_some {e : Nat} (hzone : zone a = .cxl) (h : cxlPortOf m a = some e) : storeAt m a = cxlStore e + cxlDpa m a := by
  rw [storeAt, hzone, h]

theorem storeAt_none (h : zone a = .cxl → cxlPortOf m a = none) : storeAt m a = a := by
  rw [storeAt]
  generalize hz : zone a = z at h ⊢
  cases z with
  | cxl => rw [h rfl]
  | _ => rfl

theorem storeAt_window (hw : w < cxlC0 m + cxlC1 m) : storeAt m (cxlBase + w) = expanderPlace m w := by
  have hcap := cxl_capacity m
  have hzone : zone (cxlBase + w) = .cxl := zone_cxl.2 ⟨Nat.le_add_right .., by simp only [cxlBase, cxlEnd]; omega⟩
  have hport := cxlPortOf_at (m := m) (show cxlBase + w - cxlBase = w from Nat.add_sub_cancel_left ..)
  have hdpa := cxlDpa_at (m := m) (show cxlBase + w - cxlBase = w from Nat.add_sub_cancel_left ..)
  rw [if_pos hw] at hport
  rw [expanderPlace]
  cases hinter : interleaved m with
  | true =>
    rw [hinter, if_pos rfl] at hport hdpa
    rw [storeAt_some hzone hport, hdpa, if_pos rfl]
  | false =>
    rw [hinter, if_neg Bool.false_ne_true] at hport hdpa
    rw [if_neg Bool.false_ne_true]
    by_cases hfirst : w < cxlC0 m
    · rw [if_pos hfirst] at hport hdpa
      rw [storeAt_some hzone hport, hdpa, if_pos hfirst]
    · rw [if_neg hfirst] at hport hdpa
      rw [storeAt_some hzone hport, hdpa, if_neg hfirst]

theorem storeAt_own (h : a < cxlBase ∨ cxlBase + (cxlC0 m + cxlC1 m) ≤ a) : storeAt m a = a := by
  refine storeAt_none fun hzone => ?_
  obtain ⟨w, rfl⟩ := Nat.exists_eq_add_of_le (zone_cxl.1 hzone).1
  rw [cxlPortOf_at (Nat.add_sub_cancel_left ..), if_neg (by omega)]

/-- An address lies in the backed window, or is its own place. -/
theorem storeAt_cases (m : MemState) (a : Nat) :
    (∃ w < cxlC0 m + cxlC1 m, a = cxlBase + w ∧ storeAt m a = expanderPlace m w) ∨
    ((a < cxlBase ∨ cxlBase + (cxlC0 m + cxlC1 m) ≤ a) ∧ storeAt m a = a) := by
  by_cases h : a < cxlBase ∨ cxlBase + (cxlC0 m + cxlC1 m) ≤ a
  · exact .inr ⟨h, storeAt_own h⟩
  · obtain ⟨w, rfl⟩ := Nat.exists_eq_add_of_le (show cxlBase ≤ a by omega)
    have hw : w < cxlC0 m + cxlC1 m := by omega
    exact .inl ⟨w, hw, rfl, storeAt_window hw⟩

theorem expanderPlace_eq (m : MemState) (w : Nat) : expanderPlace m w =
    if interleaved m then 2 ^ 50 * (w / 2 ^ 12 % 2 + 1) + (w / 2 ^ 12 / 2 * 2 ^ 12 + w % 2 ^ 12)
    else if w < cxlC0 m then 2 ^ 50 + w else 2 ^ 51 + (w - cxlC0 m) := by
  have hhalf : w / 2 ^ 13 = w / 2 ^ 12 / 2 := (Nat.div_div_eq_div_mul w (2 ^ 12) 2).symm
  rw [expanderPlace, hhalf]
  simp only [cxlStore, nfld, Nat.shiftRight_eq_div_pow, Nat.reduceAdd, Nat.reduceSub, pow_one]
  rfl

theorem expanderPlace_ge (m : MemState) (w : Nat) : 2 ^ 50 ≤ expanderPlace m w := by
  rw [expanderPlace_eq]
  split_ifs <;> omega

theorem expanderPlace_add (h : w % 64 + i < 64) : expanderPlace m (w + i) = expanderPlace m w + i := by
  obtain ⟨c0, h0⟩ := cxlC0_dvd m
  rw [expanderPlace_eq, expanderPlace_eq, h0]
  split_ifs <;> omega

theorem expanderPlace_inj (hw : w < 2 ^ 44) (hv : v < 2 ^ 44) (h : expanderPlace m w = expanderPlace m v) : w = v := by
  rw [expanderPlace_eq, expanderPlace_eq] at h
  split_ifs at h <;> omega

/-- The bytes of a line stand one after another. -/
theorem storeAt_add (h : a % 64 + i < 64) : storeAt m (a + i) = storeAt m a + i := by
  obtain ⟨c, hc⟩ := Nat.dvd_add (cxlC0_dvd m) (cxlC1_dvd m)
  have hbase : cxlBase = 64 * (cxlBase / 64) := by decide
  rcases storeAt_cases m a with ⟨w, hw, rfl, hplace⟩ | ⟨hout, hplace⟩
  · have hline : w % 64 + i < 64 := by omega
    rw [hplace, Nat.add_assoc, storeAt_window (by omega), expanderPlace_add hline]
  · rw [hplace, storeAt_own (by omega)]

/-- No two addresses share a place. -/
theorem storeAt_inj (ha : a < 2 ^ 49) (hb : b < 2 ^ 49) (h : storeAt m a = storeAt m b) : a = b := by
  have hcap := cxl_capacity m
  rcases storeAt_cases m a with ⟨w, hw, rfl, hpa⟩ | ⟨-, hpa⟩ <;> rcases storeAt_cases m b with ⟨v, hv, rfl, hpb⟩ | ⟨-, hpb⟩ <;>
    rw [hpa, hpb] at h
  · rw [expanderPlace_inj (by omega) (by omega) h]
  · have := expanderPlace_ge m w
    omega
  · have := expanderPlace_ge m v
    omega
  · exact h

section Congr
variable (hc : m'.cxl = m.cxl) (hp : m'.placement = m.placement) (a)
include hc hp

theorem cxlPortOf_congr : cxlPortOf m' a = cxlPortOf m a := by
  unfold cxlPortOf interleaved cxlC1 cxlC0 cxlPort
  rw [hc, hp]

theorem cxlDpa_congr : cxlDpa m' a = cxlDpa m a := by
  unfold cxlDpa interleaved cxlC1 cxlC0 cxlPort
  rw [hc, hp]

/-- The map of the window rests on the ports and the placement alone. -/
theorem storeAt_congr : storeAt m' a = storeAt m a := by
  have hport := cxlPortOf_congr a hc hp
  cases he : cxlPortOf m a with
  | none => rw [storeAt_none fun _ => hport.trans he, storeAt_none fun _ => he]
  | some e =>
    by_cases hzone : zone a = .cxl
    · rw [storeAt_some hzone (hport.trans he), storeAt_some hzone he, cxlDpa_congr a hc hp]
    · rw [storeAt_none fun h => absurd h hzone, storeAt_none fun h => absurd h hzone]

theorem portBarred_congr : portBarred m' a = portBarred m a := by
  have hport := cxlPortOf_congr a hc hp
  have hcxl : cxlPort m' = cxlPort m := by
    funext e
    rw [cxlPort, hc, cxlPort]
  unfold portBarred
  generalize zone a = z
  rw [hport, hcxl]

end Congr

end Place

/-! ## A device without loaded regions -/

section Plain
variable {d : Dev} (hr : d.seq.regions = []) (a n : Nat)
include hr

theorem shadowOf_plain : shadowOf d a = none := by simp [shadowOf, hr]

theorem readPlace_plain : readPlace d a = some a := by simp [readPlace, shadowOf_plain hr]

theorem byteAt_plain : byteAt d a = cellAt d.mem (storeAt d.mem a) := by simp [byteAt, readPlace_plain hr]

theorem poisonAt_plain : poisonAt d a = (poisoned d.mem (storeAt d.mem a / 64) || portDead d.mem a) := by
  simp [poisonAt, readPlace_plain hr]

theorem place_unpoisoned (h : poisonAt d a = false) : poisoned d.mem (storeAt d.mem a / 64) = false := by
  rw [poisonAt_plain hr, Bool.or_eq_false_iff] at h
  exact h.1

theorem writeBarred_plain : writeBarred d a = portBarred d.mem a := by simp [writeBarred, shadowOf_plain hr]

theorem reach_plain : reach a n d = d := by simp [reach, shadowOf_plain hr]

end Plain

/-! ## Memory that is written over -/

/-- Memory after writes: the map of the window stays, no line becomes poison, and the slices stay settled. -/
structure WrittenOver (m m' : MemState) : Prop where
  cxl : m'.cxl = m.cxl
  placement : m'.placement = m.placement
  settled : m'.settled = true
  poison : ∀ l, poisoned m l = false → poisoned m' l = false

theorem WrittenOver.trans {m m' m'' : MemState} (h : WrittenOver m m') (h' : WrittenOver m' m'') : WrittenOver m m'' :=
  ⟨h'.cxl.trans h.cxl, h'.placement.trans h.placement, h'.settled, fun l hl => h'.poison l (h.poison l hl)⟩

theorem cellsPut_frame (p : Nat) (bs : Bytes) (m : MemState) : cellsPut p bs m = { m with cells := (cellsPut p bs m).cells } := by
  induction bs generalizing p m with
  | nil => rfl
  | cons b bs ih =>
    have hrest := ih (p + 1) (cellPut p b m)
    rw [cellsPut, hrest]
    rfl

theorem lostLine_clearPoison {m : MemState} {k : Nat} (l : Nat) (h : lostLine m k = false) : lostLine (clearPoison l m) k = false := by
  have hspare : spareOf (clearPoison l m) = spareOf m := rfl
  have hhealed : ∀ x, x ∈ m.healed → x ∈ (clearPoison l m).healed := by
    intro x hx
    unfold clearPoison
    dsimp only
    split
    · exact List.mem_cons_of_mem _ hx
    · exact hx
  have hlost : (clearPoison l m).lost = m.lost := rfl
  have hdie : (clearPoison l m).lostPoison = m.lostPoison := rfl
  unfold lostLine at h ⊢
  rw [hlost, hdie, hspare]
  cases hl : m.lost with
  | none => rfl
  | some x =>
    simp only [hl, Bool.and_eq_false_iff, Bool.not_eq_false', List.contains_iff_mem] at h ⊢
    exact h.imp_right (hhealed k)

section Written
variable {m : MemState} (hs : m.settled = true)
include hs

theorem writtenOver_refl : WrittenOver m m := ⟨rfl, rfl, hs, fun _ h => h⟩

theorem writtenOver_use (l : Nat) (w : Bool) : WrittenOver m (use l w m) := by
  have hframe := use_frame l w hs
  refine ⟨by rw [hframe], by rw [hframe], (use_settled l w hs).1, fun k hk => ?_⟩
  rw [hframe]
  exact hk

theorem writtenOver_cellsPut (p : Nat) (bs : Bytes) : WrittenOver m (cellsPut p bs m) := by
  have hframe := cellsPut_frame p bs m
  refine ⟨by rw [hframe], by rw [hframe], ?_, fun k hk => ?_⟩
  · rw [hframe]
    exact hs
  · rw [hframe]
    exact hk

theorem writtenOver_clearPoison (l : Nat) : WrittenOver m (clearPoison l m) := by
  refine ⟨rfl, rfl, hs, fun k hk => ?_⟩
  simp only [poisoned, Bool.or_eq_false_iff] at hk ⊢
  refine ⟨?_, lostLine_clearPoison l hk.2⟩
  have hlisted : k ∉ m.poison := by simpa using hk.1
  simp [clearPoison, hlisted]

end Written

/-! ## A write within a line -/

/-- What a write of bytes within a line at an address makes of a device without loaded regions: it is taken whole, or no byte changes. -/
structure PieceWritten (a : Nat) (bs : Bytes) (d : Dev) (r : Status × Dev) : Prop where
  frame : r.2 = { d with mem := r.2.mem }
  memory : WrittenOver d.mem r.2.mem
  cells : r.2.mem.cells = d.mem.cells ∨ r.2.mem.cells = (cellsPut (storeAt d.mem a) bs d.mem).cells
  taken : portBarred d.mem a = false → poisoned d.mem (storeAt d.mem a / 64) = false →
    r.1 = ST.ok ∧ r.2.mem.cells = (cellsPut (storeAt d.mem a) bs d.mem).cells

theorem cellsPut_cells {m m' : MemState} (p : Nat) (bs : Bytes) (h : m'.cells = m.cells) :
    (cellsPut p bs m').cells = (cellsPut p bs m).cells := by
  induction bs generalizing p m m' with
  | nil => exact h
  | cons b bs ih => exact ih (p + 1) (by rw [cellPut, cellPut, h])

theorem pieceWritten {d : Dev} (a : Nat) (bs : Bytes) (hr : d.seq.regions = []) (hs : d.mem.settled = true) :
    PieceWritten a bs d (writePiece a bs d) := by
  have huse := writtenOver_use hs (a / 64) true
  have hcells := (use_settled (a / 64) true hs).2
  have hplace : storeAt (use (a / 64) true d.mem) a = storeAt d.mem a := storeAt_congr a huse.cxl huse.placement
  unfold writePiece
  simp only [reach_plain hr, writeBarred_plain hr, writePlace, shadowOf_plain hr]
  by_cases hbar : portBarred d.mem a = true
  · rw [if_pos hbar]
    exact ⟨rfl, writtenOver_refl hs, .inl rfl, fun h => by simp [hbar] at h⟩
  rw [if_neg hbar]
  split_ifs with hwhole hpoison
  · have hput := cellsPut_cells (storeAt d.mem a) bs ((clearPoison_cells (storeAt d.mem a / 64) (use (a / 64) true d.mem)).trans hcells)
    have hclear := huse.trans (writtenOver_clearPoison huse.settled (storeAt d.mem a / 64))
    rw [hplace]
    exact ⟨rfl, hclear.trans (writtenOver_cellsPut hclear.settled ..), .inr hput, fun _ _ => ⟨rfl, hput⟩⟩
  · rw [hplace] at hpoison
    exact ⟨rfl, huse, .inl hcells, fun _ h => by simp [huse.poison _ h] at hpoison⟩
  · have hput := cellsPut_cells (storeAt d.mem a) bs hcells
    rw [hplace]
    exact ⟨rfl, huse.trans (writtenOver_cellsPut huse.settled ..), .inr hput, fun _ _ => ⟨rfl, hput⟩⟩

/-! ## Bytes after a write -/

section Bytes
variable {d d' : Dev} (hr : d.seq.regions = []) (hr' : d'.seq.regions = []) (hmap : WrittenOver d.mem d'.mem)
include hr hr' hmap

theorem byteAt_kept (h : d'.mem.cells = d.mem.cells) (b : Nat) : byteAt d' b = byteAt d b := by
  rw [byteAt_plain hr, byteAt_plain hr', storeAt_congr b hmap.cxl hmap.placement, cellAt, h, cellAt]

/-- Bytes put at the place of an address are read at that address, and no other byte changes. -/
theorem byteAt_put {a b : Nat} {bs : Bytes} (h : d'.mem.cells = (cellsPut (storeAt d.mem a) bs d.mem).cells)
    (hline : a % 64 + bs.length ≤ 64) (ha : a + bs.length ≤ 2 ^ 49) (hb : b < 2 ^ 49) :
    byteAt d' b = if a ≤ b ∧ b < a + bs.length then bs.getD (b - a) 0 else byteAt d b := by
  have hcell : byteAt d' b = cellAt (cellsPut (storeAt d.mem a) bs d.mem) (storeAt d.mem b) := by
    rw [byteAt_plain hr', storeAt_congr b hmap.cxl hmap.placement, cellAt, h, cellAt]
  rw [hcell, cellAt_cellsPut, byteAt_plain hr]
  by_cases hin : a ≤ b ∧ b < a + bs.length
  · have hplace : storeAt d.mem b = storeAt d.mem a + (b - a) := by
      rw [← storeAt_add (by omega), Nat.add_sub_cancel' hin.1]
    rw [if_pos hin, if_pos (by omega), hplace, Nat.add_sub_cancel_left]
  · rw [if_neg hin, if_neg]
    intro hout
    have hplace : storeAt d.mem (a + (storeAt d.mem b - storeAt d.mem a)) = storeAt d.mem b := by
      rw [storeAt_add (by omega), Nat.add_sub_cancel' hout.1]
    have := storeAt_inj (by omega) hb hplace
    omega

end Bytes

/-! ## The pieces of a range -/

/-- A piece of a range of n bytes at an address: it lies in the range, and within a line. -/
structure LinePiece (a n : Nat) (p : Nat × Nat) : Prop where
  low : a ≤ p.1
  start : p.1 < a + n
  high : p.1 + p.2 ≤ a + n
  line : p.1 % 64 + p.2 ≤ 64

section Pieces
variable {a n : Nat}

theorem mem_pieces {p : Nat × Nat} : p ∈ pieces a n ↔ n ≠ 0 ∧ ∃ i < (a + n - 1) / 64 + 1 - a / 64,
    p = (max a (64 * (a / 64 + i)), min (a + n) (64 * (a / 64 + i) + 64) - max a (64 * (a / 64 + i))) := by
  unfold pieces
  split
  · simp [*]
  · simp only [List.mem_map, List.mem_range, ne_eq, not_false_eq_true, true_and, *]
    constructor
    · rintro ⟨i, hi, rfl⟩
      exact ⟨i, hi, rfl⟩
    · rintro ⟨i, hi, rfl⟩
      exact ⟨i, hi, rfl⟩

theorem linePiece_of_mem {p : Nat × Nat} (h : p ∈ pieces a n) : LinePiece a n p := by
  obtain ⟨hn, i, hi, rfl⟩ := mem_pieces.1 h
  exact ⟨by dsimp only; omega, by dsimp only; omega, by dsimp only; omega, by dsimp only; omega⟩

/-- Every byte of a range lies in one of its pieces. -/
theorem pieces_cover {b : Nat} (hlo : a ≤ b) (hhi : b < a + n) : ∃ p ∈ pieces a n, p.1 ≤ b ∧ b < p.1 + p.2 := by
  refine ⟨_, mem_pieces.2 ⟨by omega, b / 64 - a / 64, by omega, rfl⟩, ?_, ?_⟩
  · dsimp only
    omega
  · dsimp only
    omega

/-- A range within a line is one piece. -/
theorem pieces_within (hn : 0 < n) (hfit : a % 64 + n ≤ 64) : pieces a n = [(a, n)] := by
  have hcount : (a + n - 1) / 64 + 1 - a / 64 = 1 := by omega
  have hlo : Nat.max a (64 * (a / 64)) = a := Nat.max_eq_left (by omega)
  have hhi : Nat.min (a + n) (64 * (a / 64) + 64) = a + n := Nat.min_eq_left (by omega)
  rw [pieces, if_neg (by omega), hcount]
  simp only [List.range_one, List.map_cons, List.map_nil, Nat.add_zero, hlo, hhi, Nat.add_sub_cancel_left]

end Pieces

/-! ## A write of a range -/

/-- The bytes of a write that one of its pieces takes. -/
def pieceOf (a : Nat) (bs : Bytes) (p : Nat × Nat) : Bytes := (bs.drop (p.1 - a)).take p.2

/-- Pieces of a write, one after another. -/
def writePieces (a : Nat) (bs : Bytes) (ps : List (Nat × Nat)) (st : Status) (d : Dev) : Status × Dev :=
  ps.foldl (fun acc p => (firstBad acc.1 (writePiece p.1 (pieceOf a bs p) acc.2).1, (writePiece p.1 (pieceOf a bs p) acc.2).2)) (st, d)

section Write
variable {a : Nat} {bs : Bytes} {st : Status} {d : Dev}

theorem writePieces_cons (p : Nat × Nat) (ps : List (Nat × Nat)) : writePieces a bs (p :: ps) st d =
    writePieces a bs ps (firstBad st (writePiece p.1 (pieceOf a bs p) d).1) (writePiece p.1 (pieceOf a bs p) d).2 := rfl

theorem writeMem_ok (h : writeStatus d a bs.length = ST.ok) : writeMem a bs d = writePieces a bs (pieces a bs.length) ST.ok d := by
  rw [writeMem, if_neg (fun hbad => hbad h)]
  rfl

theorem writeMem_refused (h : writeStatus d a bs.length ≠ ST.ok) : writeMem a bs d = (writeStatus d a bs.length, d) := by
  rw [writeMem, if_pos h]

/-- A range that may be written lies among the local addresses. -/
theorem writeStatus_bound {n : Nat} (h : writeStatus d a n = ST.ok) (hn : n ≠ 0) : a + n ≤ 2 ^ 49 := by
  have hcap := cxl_capacity d.mem
  have hspace : spaceStatus d a n = ST.ok := by
    unfold writeStatus at h
    split at h
    · exact absurd h (by decide)
    · exact h
  unfold spaceStatus at hspace
  rw [if_neg hn] at hspace
  have hends : hbmEnd ≤ 2 ^ 49 ∧ cxlBase + 2 ^ 44 ≤ 2 ^ 49 := by decide
  by_cases hmeta : touchesMeta d a n = true
  · rw [if_pos hmeta] at hspace
    exact absurd hspace (by decide)
  rw [if_neg hmeta] at hspace
  by_cases hhbm : a + n ≤ hbmEnd
  · omega
  rw [if_neg hhbm] at hspace
  by_cases hcxl : cxlBase ≤ a ∧ a - cxlBase + n ≤ cxlC0 d.mem + cxlC1 d.mem
  · omega
  · rw [if_neg hcxl] at hspace
    exact absurd hspace (by decide)

theorem pieceOf_length {p : Nat × Nat} (hp : LinePiece a bs.length p) : (pieceOf a bs p).length = p.2 := by
  obtain ⟨hlow, -, hhigh, -⟩ := hp
  rw [pieceOf, List.length_take, List.length_drop]
  omega

theorem pieceOf_getD {p : Nat × Nat} (hp : LinePiece a bs.length p) {b : Nat} (hlo : p.1 ≤ b) (hhi : b < p.1 + p.2) :
    (pieceOf a bs p).getD (b - p.1) 0 = bs.getD (b - a) 0 := by
  have hlow := hp.low
  rw [pieceOf, List.getD_eq_getElem?_getD, List.getElem?_take_of_lt (by omega), List.getElem?_drop, List.getD_eq_getElem?_getD]
  congr 2
  omega

variable (hr : d.seq.regions = []) (hs : d.mem.settled = true)
include hr hs

/-- A byte after a write of a piece. -/
theorem byteAt_writePiece {p : Nat × Nat} (hp : LinePiece a bs.length p) (ha : a + bs.length ≤ 2 ^ 49) {b : Nat} (hb : b < 2 ^ 49)
    (hput : (writePiece p.1 (pieceOf a bs p) d).2.mem.cells = (cellsPut (storeAt d.mem p.1) (pieceOf a bs p) d.mem).cells) :
    byteAt (writePiece p.1 (pieceOf a bs p) d).2 b = if p.1 ≤ b ∧ b < p.1 + p.2 then bs.getD (b - a) 0 else byteAt d b := by
  have hw := pieceWritten p.1 (pieceOf a bs p) hr hs
  have hlen := pieceOf_length hp
  have hline := hp.line
  have hhigh := hp.high
  rw [byteAt_put hr (by rw [hw.frame]; exact hr) hw.memory hput (by omega) (by omega) hb, hlen]
  split
  · rename_i hin
    exact pieceOf_getD hp hin.1 hin.2
  · rfl

theorem writePieces_outside {ps : List (Nat × Nat)} (hps : ∀ p ∈ ps, LinePiece a bs.length p) (ha : a + bs.length ≤ 2 ^ 49) :
    (writePieces a bs ps st d).2 = { d with mem := (writePieces a bs ps st d).2.mem } ∧
    WrittenOver d.mem (writePieces a bs ps st d).2.mem ∧
    ∀ b < 2 ^ 49, (b < a ∨ a + bs.length ≤ b) → byteAt (writePieces a bs ps st d).2 b = byteAt d b := by
  induction ps generalizing st d with
  | nil => exact ⟨rfl, writtenOver_refl hs, fun _ _ _ => rfl⟩
  | cons p ps ih =>
    have hp := hps p (List.mem_cons_self ..)
    have hw := pieceWritten p.1 (pieceOf a bs p) hr hs
    have hr' : (writePiece p.1 (pieceOf a bs p) d).2.seq.regions = [] := by rw [hw.frame]; exact hr
    obtain ⟨hframe, hover, hbytes⟩ := ih hr' hw.memory.settled (fun q hq => hps q (List.mem_cons_of_mem _ hq))
      (st := firstBad st (writePiece p.1 (pieceOf a bs p) d).1)
    rw [writePieces_cons]
    refine ⟨?_, hw.memory.trans hover, fun b hb hout => (hbytes b hb hout).trans ?_⟩
    · rw [hframe, hw.frame]
    · rcases hw.cells with hkept | hput
      · exact byteAt_kept hr hr' hw.memory hkept b
      · rw [byteAt_writePiece hr hs hp ha hb hput, if_neg]
        have hlow := hp.low
        have hhigh := hp.high
        omega

theorem writePieces_taken {ps : List (Nat × Nat)} (hps : ∀ p ∈ ps, LinePiece a bs.length p) (ha : a + bs.length ≤ 2 ^ 49)
    (hclear : ∀ p ∈ ps, portBarred d.mem p.1 = false ∧ poisoned d.mem (storeAt d.mem p.1 / 64) = false) :
    (writePieces a bs ps st d).1 = st ∧ ∀ b < 2 ^ 49, byteAt (writePieces a bs ps st d).2 b =
      if ∃ p ∈ ps, p.1 ≤ b ∧ b < p.1 + p.2 then bs.getD (b - a) 0 else byteAt d b := by
  induction ps generalizing st d with
  | nil => exact ⟨rfl, fun b _ => by rw [if_neg (by simp)]; rfl⟩
  | cons p ps ih =>
    have hp := hps p (List.mem_cons_self ..)
    have hw := pieceWritten p.1 (pieceOf a bs p) hr hs
    have hr' : (writePiece p.1 (pieceOf a bs p) d).2.seq.regions = [] := by rw [hw.frame]; exact hr
    obtain ⟨hbar, hpoison⟩ := hclear p (List.mem_cons_self ..)
    obtain ⟨hst, hput⟩ := hw.taken hbar hpoison
    have hclear' : ∀ q ∈ ps, portBarred (writePiece p.1 (pieceOf a bs p) d).2.mem q.1 = false ∧
        poisoned (writePiece p.1 (pieceOf a bs p) d).2.mem (storeAt (writePiece p.1 (pieceOf a bs p) d).2.mem q.1 / 64) = false := by
      intro q hq
      obtain ⟨hqbar, hqpoison⟩ := hclear q (List.mem_cons_of_mem _ hq)
      rw [portBarred_congr q.1 hw.memory.cxl hw.memory.placement, storeAt_congr q.1 hw.memory.cxl hw.memory.placement]
      exact ⟨hqbar, hw.memory.poison _ hqpoison⟩
    obtain ⟨hstatus, hbytes⟩ := ih hr' hw.memory.settled (fun q hq => hps q (List.mem_cons_of_mem _ hq)) hclear' (st := firstBad st ST.ok)
    rw [writePieces_cons, hst]
    refine ⟨hstatus.trans ?_, fun b hb => ?_⟩
    · rw [firstBad]
      split
      · exact (‹st = ST.ok›).symm
      · rfl
    · rw [hbytes b hb, byteAt_writePiece hr hs hp ha hb hput]
      simp only [List.exists_mem_cons_iff]
      by_cases hlater : ∃ q ∈ ps, q.1 ≤ b ∧ b < q.1 + q.2
      · rw [if_pos hlater, if_pos (.inr hlater)]
      · simp only [hlater, or_false, if_false]

/-! ## What a write of data memory changes -/

theorem writeMem_frame_plain : (writeMem a bs d).2 = { d with mem := (writeMem a bs d).2.mem } := by
  by_cases h : writeStatus d a bs.length = ST.ok
  case neg => rw [writeMem_refused h]
  case pos =>
    rw [writeMem_ok h]
    by_cases hn : bs.length = 0
    · have hnone : pieces a bs.length = [] := by rw [pieces, if_pos hn]
      rw [hnone]
      rfl
    · exact (writePieces_outside hr hs (fun p hp => linePiece_of_mem hp) (writeStatus_bound h hn)).1

theorem writeMem_outside {b : Nat} (hb : b < 2 ^ 49) (hout : b < a ∨ a + bs.length ≤ b) : byteAt (writeMem a bs d).2 b = byteAt d b := by
  by_cases h : writeStatus d a bs.length = ST.ok
  case neg => rw [writeMem_refused h]
  case pos =>
    rw [writeMem_ok h]
    by_cases hn : bs.length = 0
    · have hnone : pieces a bs.length = [] := by rw [pieces, if_pos hn]
      rw [hnone]
      rfl
    · exact (writePieces_outside hr hs (fun p hp => linePiece_of_mem hp) (writeStatus_bound h hn)).2.2 b hb hout

theorem writeMem_taken (h : writeStatus d a bs.length = ST.ok)
    (hclear : ∀ p ∈ pieces a bs.length, portBarred d.mem p.1 = false ∧ poisoned d.mem (storeAt d.mem p.1 / 64) = false) :
    (writeMem a bs d).1 = ST.ok ∧ bytesAt (writeMem a bs d).2 a bs.length = bs := by
  rw [writeMem_ok h]
  by_cases hn : bs.length = 0
  · have hnil := List.length_eq_zero_iff.1 hn
    subst hnil
    exact ⟨rfl, rfl⟩
  have hbound := writeStatus_bound h hn
  obtain ⟨hst, hbytes⟩ := writePieces_taken hr hs (fun p hp => linePiece_of_mem hp) hbound hclear (st := ST.ok)
  refine ⟨hst, List.ext_getElem ?_ fun i hi hi' => ?_⟩
  · simp [bytesAt]
  · have hcover := pieces_cover (a := a) (b := a + i) (n := bs.length) (by omega) (by omega)
    simp only [bytesAt, List.getElem_map, List.getElem_range]
    rw [hbytes (a + i) (by omega), if_pos hcover, Nat.add_sub_cancel_left, List.getD_eq_getElem _ _ hi']

end Write

end Sys2Proof.Machine
end

section
/-!
PROOFS. How an issued fabric operation begins (R129, R130, R311-R314, R318).
-/

namespace Sys2Proof.Machine

open Claims (Issued OpIs Copied Stored CanWrite goesOut)

/-! ## The lines that a read uses -/

theorem foldl_use_frame (ls : List Nat) {m : MemState} (h : m.settled = true) : ls.foldl (fun m p => use (p / 64) false m) m =
    { m with llc := (ls.foldl (fun m p => use (p / 64) false m) m).llc } := by
  induction ls generalizing m with
  | nil => rfl
  | cons l ls ih =>
    have huse := use_frame (l / 64) false h
    rw [List.foldl_cons, ih (use_settled (l / 64) false h).1, huse]

section TouchRead
variable {d : Dev} (hr : d.seq.regions = []) (hs : d.mem.settled = true) (a n : Nat)
include hr hs

theorem touchRead_frame : touchRead a n d = { d with mem := { d.mem with llc := (touchRead a n d).mem.llc } } := by
  have hmem := foldl_use_frame ((linesOf a n).filterMap fun l => readPlace d (64 * l)) hs
  simp only [touchRead, reach_plain hr]
  rw [hmem]

theorem writtenOver_touchRead : WrittenOver d.mem (touchRead a n d).mem := by
  have hframe := touchRead_frame hr hs a n
  have hsettled := (foldl_use_settled ((linesOf a n).filterMap fun l => readPlace d (64 * l)) d.mem hs).1
  refine ⟨by rw [hframe], by rw [hframe], ?_, fun l hl => ?_⟩
  · simpa only [touchRead, reach_plain hr] using hsettled
  · rw [hframe]
    exact hl

end TouchRead

/-! ## The commands -/

section Exec
variable (id : Nat) (s : State)

theorem exec_store : exec (.store id) s =
    onDev (beginKind id (fun o => fdOp o.desc == 1 && !fdFlag o.desc) (fun o d => beginOp id o d)) s := rfl

/-- What a flagged store does when it is its turn to begin (R129, R130). -/
def beginFlagged (id : Nat) (op : FabOp) (d : Dev) : Dev :=
  if earlierWrites d op.slot id then d
  else match coveredFailure d id op with
    | some st => setOp id { op with begun := true, status := st, fixed := true } d
    | none => beginOp id op d

theorem exec_flaggedStore : exec (.flaggedStore id) s =
    onDev (beginKind id (fun o => fdOp o.desc == 1 && fdFlag o.desc) (beginFlagged id)) s := rfl

theorem exec_atomic : exec (.atomic id) s = onDev (beginKind id (fun o => fdOp o.desc == 2) (fun o d => beginOp id o d)) s := rfl

theorem exec_accum : exec (.accum id) s =
    onDev (beginKind id (fun o => fdOp o.desc == 3 && !isRun o.desc) (fun o d => beginOp id o d)) s := rfl

theorem exec_copy : exec (.copy id) s = onDev (beginKind id (fun o => fdOp o.desc == 4) (fun o d => beginOp id o d)) s := rfl

end Exec

section Begin
variable {id : Nat} {op : FabOp} {d : Dev}

theorem beginKind_goes {kind : FabOp → Bool} {go : FabOp → Dev → Dev} (h : Issued d id op) (hk : kind op = true) :
    beginKind id kind go d = go op d := by
  simp [beginKind, h.found, h.fresh, h.queue, hk]

theorem opIs_setOp (id : Nat) (op : FabOp) (d : Dev) : OpIs id op d (setOp id op d) :=
  ⟨findOp_setOp_same .., fun _ hk => (findOp_setOp ..).trans (if_neg (Ne.symm hk))⟩

theorem leaves_of_goesOut {x : FabDesc} (hrun : isRun x = false) (h : goesOut d x) : leaves d x = true := by
  rcases h with h | h | h | ⟨h, haway⟩
  · simp [leaves, h]
  · simp [leaves, h]
  · simp [leaves, h, hrun]
  · simpa [leaves, h, remote] using haway

theorem leaves_localCopy {x : FabDesc} (hcopy : fdOp x = 4) (h : ¬goesOut d x) : leaves d x = false := by
  have hhere : gDev (fdDst x) = devNo d ∧ gDev (fdSrc x) = devNo d :=
    ⟨by_contra fun hne => h (.inr (.inr (.inr ⟨hcopy, .inl hne⟩))), by_contra fun hne => h (.inr (.inr (.inr ⟨hcopy, .inr hne⟩)))⟩
  simp [leaves, remote, hcopy, hhere]

theorem beginOp_leaves (h : leaves d op.desc = true) : beginOp id op d = setOp id { op with begun := true } d := if_pos (.inr h)

end Begin

/-! ## Operations that leave through the link die -/

section Leaves
variable {id : Nat} {op : FabOp} {s : State} {c : Instr} {kind : FabOp → Bool} {go : FabOp → Dev → Dev} (hc : Calm s)
  (hi : Issued s.m id op)
include hc hi

theorem completes_begun (he : exec c s = onDev (beginKind id kind go) s) (hk : kind op = true) (hgo : go op s.m = beginOp id op s.m)
    (hleaves : leaves s.m op.desc = true) : Completes c s (fun d =>
      OpIs id { op with begun := true } s.m d ∧ d = { s.m with tw := { s.m.tw with ops := d.tw.ops } }) :=
  completes_onDev hc he ((beginKind_goes hi hk).trans (hgo.trans (beginOp_leaves hleaves))) rfl ⟨opIs_setOp .., rfl⟩

end Leaves

/-! ## Flagged stores -/

section Flagged
variable {id : Nat} {op : FabOp} {s : State} (hc : Calm s) (hi : Issued s.m id op) (hstore : fdOp op.desc = 1) (hflag : fdFlag op.desc = true)

theorem earlierWrites_first {d : Dev} (h : slotOps d op.slot = [(id, op)]) : earlierWrites d op.slot id = false := by
  simp [earlierWrites, h]

theorem beginFlagged_first {d : Dev} (h : slotOps d op.slot = [(id, op)]) (hok : coveredFailure d id op = none) :
    beginFlagged id op d = beginOp id op d := by
  simp [beginFlagged, earlierWrites_first h, hok]

theorem beginFlagged_covered {d : Dev} {st : Status} (h : slotOps d op.slot = [(id, op)]) (hbad : coveredFailure d id op = some st) :
    beginFlagged id op d = setOp id { op with begun := true, status := st, fixed := true } d := by
  simp [beginFlagged, earlierWrites_first h, hbad]

theorem beginFlagged_waits {d : Dev} (h : ∃ o ∈ slotOps d op.slot, o.1 < id) : beginFlagged id op d = d := by
  have hearlier : earlierWrites d op.slot id = true := by
    simpa [earlierWrites] using h
  rw [beginFlagged, if_pos hearlier]

include hc hi hstore hflag

theorem flaggedStore_waits (h : ∃ o ∈ slotOps s.m op.slot, o.1 < id) : Becomes (.flaggedStore id) s s.m :=
  becomes_onDev hc (exec_flaggedStore id s) ((beginKind_goes hi (by simp [hstore, hflag])).trans (beginFlagged_waits h)) rfl

theorem flaggedStore_covered {st : Status} (h : slotOps s.m op.slot = [(id, op)]) (hbad : coveredFailure s.m id op = some st) :
    Completes (.flaggedStore id) s (fun d => OpIs id { op with begun := true, status := st, fixed := true } s.m d ∧ d.mem = s.m.mem) :=
  completes_onDev hc (exec_flaggedStore id s) ((beginKind_goes hi (by simp [hstore, hflag])).trans (beginFlagged_covered h hbad)) rfl
    ⟨opIs_setOp .., rfl⟩

end Flagged

/-! ## A copy within the device -/

section LocalCopy
variable {src dst n : Nat} {d : Dev} (hw : CanWrite d dst n)

theorem poisonBytes_none (h : ∀ b, poisonAt d b = false) : poisonBytes d src n = [] := by simp [poisonBytes, h]

theorem bytesAt_length (d : Dev) (a n : Nat) : (bytesAt d a n).length = n := by simp [bytesAt]

theorem copyLocal_clean (h : ∀ b, poisonAt d b = false) : copyLocal src dst n d = writeMem dst (bytesAt d src n) (touchRead src n d) := by
  simp [copyLocal, writePayload, poisonBytes_none h]

include hw

/-- A copy from lines without poison to a range that may be written. -/
theorem copyLocal_stored : (copyLocal src dst n d).1 = ST.ok ∧
    (copyLocal src dst n d).2 = { d with mem := (copyLocal src dst n d).2.mem } ∧
    Stored dst (bytesAt d src n) d (copyLocal src dst n d).2 := by
  obtain ⟨hr, hs, hst, hclean, hopen⟩ := hw
  have hframe := touchRead_frame hr hs src n
  have hover := writtenOver_touchRead hr hs src n
  have hr' : (touchRead src n d).seq.regions = [] := by rw [hframe]; exact hr
  have hst' : writeStatus (touchRead src n d) dst (bytesAt d src n).length = ST.ok := by
    rw [bytesAt_length, hframe]
    exact hst
  have hclear : ∀ p ∈ pieces dst (bytesAt d src n).length, portBarred (touchRead src n d).mem p.1 = false ∧
      poisoned (touchRead src n d).mem (storeAt (touchRead src n d).mem p.1 / 64) = false := by
    intro p hp
    obtain ⟨hlow, hstart, -, -⟩ := linePiece_of_mem hp
    rw [bytesAt_length] at hstart
    rw [portBarred_congr p.1 hover.cxl hover.placement, storeAt_congr p.1 hover.cxl hover.placement]
    exact ⟨(writeBarred_plain hr p.1).symm.trans (hopen p.1 hlow hstart), hover.poison _ (place_unpoisoned hr p.1 (hclean p.1))⟩
  obtain ⟨hok, hbytes⟩ := writeMem_taken hr' hover.settled hst' hclear
  have hwrite := writeMem_frame_plain (a := dst) (bs := bytesAt d src n) hr' hover.settled
  rw [copyLocal_clean hclean]
  refine ⟨hok, ?_, hbytes, fun b hb hout => ?_⟩
  · rw [hwrite, hframe]
  · rw [writeMem_outside hr' hover.settled hb hout]
    exact byteAt_kept hr hr' hover (touchRead_cells src n hs) b

end LocalCopy

section Copy
variable {id : Nat} {op : FabOp} {d : Dev}

theorem dstExtent_copy {x : FabDesc} (h : fdOp x = 4) : dstExtent x = fdLen x := by
  simp only [dstExtent, h]

/-- What the beginning of a copy within the device makes of it. -/
def copyDone (id : Nat) (op : FabOp) (d : Dev) : Dev :=
  setOp id { op with begun := true, fixed := true, status := ST.ok, bytes := fdLen op.desc }
    (copyLocal (gLocal (fdSrc op.desc)) (gLocal (fdDst op.desc)) (fdLen op.desc) d).2

theorem beginOp_copy (hfixed : op.fixed = false) (hcopy : fdOp op.desc = 4) (hhere : ¬goesOut d op.desc)
    (hok : (copyLocal (gLocal (fdSrc op.desc)) (gLocal (fdDst op.desc)) (fdLen op.desc) d).1 = ST.ok) :
    beginOp id op d = copyDone id op d := by
  rw [beginOp, if_neg (by simp [hfixed, leaves_localCopy hcopy hhere])]
  simp only [hok, if_true, dstExtent_copy hcopy, copyDone]

end Copy

theorem copy_here {id : Nat} {op : FabOp} {s : State} (hc : Calm s) (hi : Issued s.m id op) (hcopy : fdOp op.desc = 4)
    (hhere : ¬goesOut s.m op.desc) (hw : CanWrite s.m (gLocal (fdDst op.desc)) (fdLen op.desc)) :
    Completes (.copy id) s (fun d => Copied id op (fdLen op.desc) s.m d ∧
      Stored (gLocal (fdDst op.desc)) (bytesAt s.m (gLocal (fdSrc op.desc)) (fdLen op.desc)) s.m d) := by
  obtain ⟨hok, hframe, hstored⟩ := copyLocal_stored (src := gLocal (fdSrc op.desc)) hw
  have heffect := (beginKind_goes (kind := fun o => fdOp o.desc == 4) (go := fun o d => beginOp id o d) hi (by simp [hcopy])).trans
    (beginOp_copy (id := id) hi.good hcopy hhere hok)
  refine completes_onDev hc (exec_copy id s) heffect ?_ ⟨⟨⟨findOp_setOp_same .., fun k hk => ?_⟩, ?_⟩, hstored⟩
  · rw [copyDone, hframe]
    rfl
  · rw [copyDone, findOp_setOp, if_neg (Ne.symm hk), hframe]
    rfl
  · rw [copyDone, hframe]
    rfl

theorem operationBeginsPart : Claims.OperationBeginsPart := by
  intro id op s hc hi
  refine ⟨fun hrun hout => ?_, copy_here hc hi, flaggedStore_waits hc hi, fun st hstore hflag => flaggedStore_covered hc hi hstore hflag⟩
  have hleaves := leaves_of_goesOut hrun hout
  refine ⟨fun hstore hplain => ?_, fun hstore hflag hfirst hok => ?_, fun hatomic => ?_, fun haccum => ?_, fun hcopy => ?_⟩
  · exact completes_begun hc hi (exec_store id s) (by simp [hstore, hplain]) rfl hleaves
  · exact completes_begun hc hi (exec_flaggedStore id s) (by simp [hstore, hflag]) (beginFlagged_first hfirst hok) hleaves
  · exact completes_begun hc hi (exec_atomic id s) (by simp [hatomic]) rfl hleaves
  · exact completes_begun hc hi (exec_accum id s) (by simp [haccum, hrun]) rfl hleaves
  · exact completes_begun hc hi (exec_copy id s) (by simp [hcopy]) rfl hleaves

end Sys2Proof.Machine
end

section
/-!
SUPPORT. What the end of an operation touches: a record written without a wait, and an arrival at a counter (R319, R322, R434, R636).
-/

namespace Sys2Proof.Machine

open Claims (RecordAt)

/-! ## Memory that no wait of R434 holds -/

/-- No access to memory is held (R434). -/
def Admits (d : Dev) : Prop := d.seq.st ≠ .committing ∨ d.seq.regions = []

/-- Nothing but memory, with the lines that the open step has written, differs. -/
def MemoryOnly (d d' : Dev) : Prop := d' = { d with mem := d'.mem, seq := { d.seq with written := d'.seq.written } }

theorem MemoryOnly.trans {d d' d'' : Dev} (h : MemoryOnly d d') (h' : MemoryOnly d' d'') : MemoryOnly d d'' := by
  rw [MemoryOnly] at h h' ⊢
  rw [h', h]

theorem Admits.memoryOnly {d d' : Dev} (h : Admits d) (hm : MemoryOnly d d') : Admits d' := by
  rw [MemoryOnly] at hm
  rw [Admits, hm]
  exact h

section Admitted
variable {d : Dev} (h : Admits d)
include h

theorem reach_admits (a n : Nat) : reach a n d = d := by
  rcases h with hst | hr
  · simp [reach, hst]
  · exact reach_plain hr a n

omit h in
theorem memoryOnly_openLine (r : Shadow) (a : Nat) (whole : Bool) : MemoryOnly d (openLine d r a whole) := by
  unfold openLine
  dsimp only
  split
  · rfl
  · rfl

omit h in
theorem memoryOnly_writePlace (a : Nat) (whole : Bool) : MemoryOnly d (writePlace d a whole).2 := by
  unfold writePlace
  split
  · rfl
  · split
    · exact memoryOnly_openLine ..
    · rfl

theorem memoryOnly_writePiece (a : Nat) (bs : Bytes) : MemoryOnly d (writePiece a bs d).2 := by
  unfold writePiece
  rw [reach_admits h]
  dsimp only
  split
  · rfl
  · have hplace := memoryOnly_writePlace (d := d) a (bs.length == 64)
    generalize writePlace d a (bs.length == 64) = r at hplace ⊢
    refine hplace.trans ?_
    split_ifs <;> rfl

theorem memoryOnly_writePieces (a : Nat) (bs : Bytes) (ps : List (Nat × Nat)) (st : Status) :
    MemoryOnly d (writePieces a bs ps st d).2 := by
  induction ps generalizing d st with
  | nil => rfl
  | cons p ps ih =>
    have hpiece := memoryOnly_writePiece h p.1 (pieceOf a bs p)
    exact hpiece.trans (ih (h.memoryOnly hpiece) _)

theorem memoryOnly_writeMem (a : Nat) (bs : Bytes) : MemoryOnly d (writeMem a bs d).2 := by
  by_cases hst : writeStatus d a bs.length = ST.ok
  · rw [writeMem_ok hst]
    exact memoryOnly_writePieces h a bs _ _
  · rw [writeMem_refused hst]
    rfl

end Admitted

/-! ## Records (R322, R636) -/

section Record
variable (a : Nat) (bs : Bytes) (st : Status) (inst : Nat) (d : Dev)

theorem putRecord_taken (h : (writeMem a bs d).1 = ST.ok) : putRecord a bs st inst d = (writeMem a bs d).2 := if_pos h

/-- A record that is not taken whole leaves memory as it was, and is counted and raised (R636). -/
theorem putRecord_failed (h : (writeMem a bs d).1 ≠ ST.ok) :
    putRecord a bs st inst d = raise (cdPort (inst / 512)) 0x2423 inst st.toNat [] (inc OD.recordWriteFailures d) := if_neg h

variable {d} (h : Admits d)
include h

theorem putRecord_frame : putRecord a bs st inst d = { d with
    mem := (putRecord a bs st inst d).mem, seq := { d.seq with written := (putRecord a bs st inst d).seq.written }
    od := (putRecord a bs st inst d).od, ev := (putRecord a bs st inst d).ev } := by
  by_cases hok : (writeMem a bs d).1 = ST.ok
  · have hwrite := memoryOnly_writeMem h a bs
    rw [MemoryOnly] at hwrite
    rw [putRecord_taken a bs st inst d hok, hwrite]
  · rw [putRecord_failed a bs st inst d hok]
    rfl

theorem rd_putRecord {k : Nat} (hk : k ≠ OD.recordWriteFailures) : rd (putRecord a bs st inst d) k = rd d k := by
  by_cases hok : (writeMem a bs d).1 = ST.ok
  · have hwrite := memoryOnly_writeMem h a bs
    rw [MemoryOnly] at hwrite
    rw [putRecord_taken a bs st inst d hok, hwrite]
    rfl
  · rw [putRecord_failed a bs st inst d hok, rd_raise, rd_inc, if_neg (Ne.symm hk)]

end Record

/-! ## Arrivals (R319) -/

section Arrive
variable (n : Nat) (d : Dev)

theorem foldl_dropAllBuffered_frame (cores : List Nat) (d : Dev) : cores.foldl (fun d c => dropAllBuffered c d) d =
    { d with mem := { d.mem with prefetch := (cores.foldl (fun d c => dropAllBuffered c d) d).mem.prefetch } } := by
  induction cores generalizing d with
  | nil => rfl
  | cons c cores ih =>
    rw [List.foldl_cons, ih (dropAllBuffered c d)]
    rfl

theorem wakeCounter_frame (v : Nat) : wakeCounter n v d =
    { d with blocks := (wakeCounter n v d).blocks, mem := { d.mem with prefetch := (wakeCounter n v d).mem.prefetch } } := by
  unfold wakeCounter
  dsimp only
  rw [foldl_dropAllBuffered_frame]

theorem arrive_frame : arrive n d = { d with
    tw := { d.tw with counters := mput 0 d.tw.counters n ((counterAt d n + 1) % 2 ^ 64) }
    runs := (arrive n d).runs, blocks := (arrive n d).blocks, mem := { d.mem with prefetch := (arrive n d).mem.prefetch } } := by
  unfold arrive setCounter
  rw [wakeCounter_frame]
  rfl

theorem counterAt_arrive (k : Nat) : counterAt (arrive n d) k = if n = k then (counterAt d n + 1) % 2 ^ 64 else counterAt d k := by
  rw [arrive_frame, counterAt, mget_mput, counterAt, counterAt]

end Arrive

/-- An arrival where b holds. -/
def arriveIf (b : Prop) [Decidable b] (n : Nat) (d : Dev) : Dev := if b then arrive n d else d

section ArriveIf
variable (b : Prop) [Decidable b] (n : Nat) (d : Dev)

theorem arriveIf_frame : arriveIf b n d = { d with
    tw := { d.tw with counters := (arriveIf b n d).tw.counters }
    runs := (arriveIf b n d).runs, blocks := (arriveIf b n d).blocks
    mem := { d.mem with prefetch := (arriveIf b n d).mem.prefetch } } := by
  unfold arriveIf
  split
  · rw [arrive_frame]
  · rfl

theorem counterAt_arriveIf (k : Nat) : counterAt (arriveIf b n d) k % 2 ^ 64 = (counterAt d k + if b ∧ k = n then 1 else 0) % 2 ^ 64 := by
  unfold arriveIf
  by_cases hb : b
  · rw [if_pos hb, counterAt_arrive]
    by_cases hk : n = k
    · subst hk
      rw [if_pos rfl, if_pos ⟨hb, rfl⟩, Nat.mod_mod]
    · rw [if_neg hk, if_neg (fun h => hk h.2.symm), Nat.add_zero]
  · rw [if_neg hb, if_neg (fun h => hb h.1), Nat.add_zero]

end ArriveIf

/-! ## Memory beside what nothing of its bytes rests on -/

/-- Nothing that the bytes of memory or a write of them rest on differs; neither device has a loaded region. -/
structure SameMemory (d d' : Dev) : Prop where
  regions : d.seq.regions = []
  regions' : d'.seq.regions = []
  memory : WrittenOver d.mem d'.mem
  cells : d'.mem.cells = d.mem.cells

theorem SameMemory.byteAt {d d' : Dev} (h : SameMemory d d') (b : Nat) : byteAt d' b = byteAt d b :=
  byteAt_kept h.regions h.regions' h.memory h.cells b

theorem sameMemory_arriveIf (b : Prop) [Decidable b] (n : Nat) {d : Dev} (hr : d.seq.regions = []) (hs : d.mem.settled = true) :
    SameMemory d (arriveIf b n d) := by
  have hframe := arriveIf_frame b n d
  refine ⟨hr, by rw [hframe]; exact hr, ⟨by rw [hframe], by rw [hframe], by rw [hframe]; exact hs, fun l hl => ?_⟩, by rw [hframe]⟩
  rw [hframe]
  exact hl

/-- An arrival leaves the bytes of memory. -/
theorem byteAt_arriveIf (b : Prop) [Decidable b] (n : Nat) {d : Dev} (hr : d.seq.regions = []) (a : Nat) :
    byteAt (arriveIf b n d) a = byteAt d a := by
  have hframe := arriveIf_frame b n d
  have hr' : (arriveIf b n d).seq.regions = [] := by rw [hframe]; exact hr
  have hcells : (arriveIf b n d).mem.cells = d.mem.cells := by rw [hframe]
  have hcxl : (arriveIf b n d).mem.cxl = d.mem.cxl := by rw [hframe]
  have hplacement : (arriveIf b n d).mem.placement = d.mem.placement := by rw [hframe]
  rw [byteAt_plain hr', byteAt_plain hr, storeAt_congr a hcxl hplacement, cellAt, hcells, cellAt]

/-- A record of 16 bytes that is written after something that left memory as it was. -/
theorem recordAt_putRecord {a : Nat} {bs : Bytes} {st : Status} {inst : Nat} {d d1 : Dev} (hlen : bs.length = 16) (hsame : SameMemory d d1)
    (hstatus : writeStatus d1 a 16 = writeStatus d a 16) :
    (a % 16 = 0 → writeStatus d a 16 = ST.ok → writeBarred d a = false → poisonAt d a = false →
      bytesAt (putRecord a bs st inst d1) a 16 = bs) ∧
    ∀ b < 2 ^ 49, (b < a ∨ a + 16 ≤ b) → byteAt (putRecord a bs st inst d1) b = byteAt d b := by
  obtain ⟨hr, hr1, hover, hcells⟩ := hsame
  refine ⟨fun halign hst hbar hpoison => ?_, fun b hb hout => ?_⟩
  · have hclear : ∀ p ∈ pieces a bs.length, portBarred d1.mem p.1 = false ∧ poisoned d1.mem (storeAt d1.mem p.1 / 64) = false := by
      intro p hp
      rw [hlen, pieces_within (by decide) (by omega), List.mem_singleton] at hp
      rw [hp, portBarred_congr a hover.cxl hover.placement, storeAt_congr a hover.cxl hover.placement]
      exact ⟨(writeBarred_plain hr a).symm.trans hbar, hover.poison _ (place_unpoisoned hr a hpoison)⟩
    obtain ⟨hok, hbytes⟩ := writeMem_taken hr1 hover.settled (by rw [hlen, hstatus, hst]) hclear
    rw [putRecord_taken a bs st inst d1 hok, ← hlen]
    exact hbytes
  · refine Eq.trans ?_ (byteAt_kept hr hr1 hover hcells b)
    by_cases hok : (writeMem a bs d1).1 = ST.ok
    · rw [putRecord_taken a bs st inst d1 hok, writeMem_outside hr1 hover.settled hb (by rw [hlen]; exact hout)]
    · rw [putRecord_failed a bs st inst d1 hok]
      rfl

end Sys2Proof.Machine
end

section
/-!
PROOFS. How a fabric operation of a queue completes (R320-R322, R337).
-/

namespace Sys2Proof.Machine

open Claims (OpIs countsThere RecordAt Counted)

/-! ## Where the destination counter is raised (R320) -/

section Counts
variable {d : Dev} {x : FabDesc} {op : FabOp}

theorem countsAway_iff (hrun : isRun x = false) : countsAway d x = true ↔ fdDstCntEn x = true ∧ countsThere d x := by
  by_cases h1 : fdOp x = 1
  · simp [countsAway, leaves, isGet, countsThere, h1]
  by_cases h2 : fdOp x = 2
  · simp [countsAway, leaves, isGet, countsThere, h2]
  by_cases h3 : fdOp x = 3
  · simp [countsAway, leaves, isGet, countsThere, h3, hrun]
  by_cases h4 : fdOp x = 4
  · by_cases hsrc : gDev (fdSrc x) = devNo d <;> simp [countsAway, leaves, isGet, remote, countsThere, h4, hsrc]
  · simp [countsAway, leaves, isGet, countsThere, h1, h2, h3, h4]

theorem needsCount_false (hrun : isRun op.desc = false)
    (h : op.status ≠ ST.ok ∨ ¬countsThere d op.desc ∨ fdDstCntEn op.desc = false ∨ op.counted = true) :
    ¬(op.status = ST.ok ∧ needsCount d op = true) := by
  rintro ⟨hok, hneeds⟩
  simp only [needsCount, Bool.and_eq_true, Bool.not_eq_true'] at hneeds
  obtain ⟨⟨haway, hcounted⟩, -⟩ := hneeds
  obtain ⟨hen, hthere⟩ := (countsAway_iff hrun).1 haway
  simp [hok, hen, hthere, hcounted] at h

theorem needsCount_true (hrun : isRun op.desc = false) (hthere : countsThere d op.desc) (hen : fdDstCntEn op.desc = true)
    (hcounted : op.counted = false) (hseq : op.sequenced = false) : needsCount d op = true := by
  simp [needsCount, (countsAway_iff hrun).2 ⟨hen, hthere⟩, hcounted, hseq]

theorem decided_of (hb : op.begun = true) (h : op.fixed = true ∨ ∀ p ∈ op.pkts, p.st = .acked) : decided op = true := by
  simpa [decided, allAcked, hb] using h

theorem decided_not (h : op.begun = false ∨ (op.fixed = false ∧ ∃ p ∈ op.pkts, p.st ≠ .acked)) : decided op = false := by
  rcases h with hb | ⟨hf, hp⟩
  · simp [decided, hb]
  · simpa [decided, allAcked, hf] using fun _ => hp

end Counts

/-! ## The command -/

/-- The effect of FABRIC_OP_COMPLETE. -/
def completeEffect (id : Nat) (d : Dev) : Dev :=
  match findOp d id with
  | none => d
  | some o => if isRun o.desc && decide (o.use_ = .queue) && !o.fixed then d else finishOp id d

theorem exec_fabricOpComplete (id : Nat) (s : State) : exec (.fabricOpComplete id) s = onDev (completeEffect id) s := rfl

theorem completeEffect_plain {id : Nat} {op : FabOp} {d : Dev} (hop : findOp d id = some op) (hrun : isRun op.desc = false) :
    completeEffect id d = finishOp id d := by
  simp [completeEffect, hop, hrun]

/-! ## The steps of the end of an operation (R321) -/

/-- The record, where one is asked for (R322). -/
def recordPut (op : FabOp) (d : Dev) : Dev :=
  if fdRecord op.desc ≠ 0 then putRecord (fdRecord op.desc) (fabRecord op) op.status (slotCore op.slot) d else d

/-- The operation counted, a failed one twice. -/
def outcomeCounted (st : Status) (d : Dev) : Dev :=
  if st = ST.ok then inc OD.fabricOpsCompleted d else inc OD.fabricOpsFailed (inc OD.fabricOpsCompleted d)

/-- A failure kept for the flagged stores that cover it (R318). -/
def failureKept (id : Nat) (op : FabOp) (d : Dev) : Dev :=
  if op.status ≠ ST.ok then
    setQueue op.slot { queueOf d op.slot with fails := (queueOf d op.slot).fails ++ [(op.desc.ctx, id, op.status)] } d
  else d

/-- The destination counter of an operation that ended well, where it is raised at the source. -/
abbrev raisesHere (d : Dev) (op : FabOp) : Prop := op.status = ST.ok ∧ fdDstCntEn op.desc = true ∧ (!countsAway d op.desc) = true

/-- The device with the counters raised and the record written. -/
def recorded (op : FabOp) (d : Dev) : Dev :=
  arriveIf (fdSrcCntEn op.desc = true) (fdSrcCnt op.desc) (recordPut op (arriveIf (raisesHere d op) (fdDstCnt op.desc) d))

/-- The device after the end of an operation that returns no value and carries no flag. -/
def opEnded (id : Nat) (op : FabOp) (d : Dev) : Dev :=
  itemOpDone id op.status (removeOp id op (failureKept id op (outcomeCounted op.status (recorded op d))))

theorem finishOp_ends {id : Nat} {op : FabOp} {d : Dev} (hop : findOp d id = some op) (hd : decided op = true) (hu : op.use_ = .queue)
    (hrun : isRun op.desc = false) (hcount : ¬(op.status = ST.ok ∧ needsCount d op = true)) (hvalue : fdOp op.desc ≠ 2)
    (hflag : fdFlag op.desc = false) : finishOp id d = opEnded id op d := by
  have hbytes : ∀ d', runBytes d' id op = op := fun d' => by simp [runBytes, hrun]
  have hclose : ∀ d', closeRun id op d' = d' := fun d' => by simp [closeRun, hrun]
  simp only [finishOp, hop, hd, hu, Bool.not_true, Bool.false_eq_true, if_false, if_neg hcount, endQueueOp, hbytes, hclose, hvalue, false_and,
    hflag]
  rfl

theorem finishOp_counts {id : Nat} {op : FabOp} {d : Dev} {p : PktRec} {ps : List PktRec} (hop : findOp d id = some op) (hd : decided op = true)
    (hu : op.use_ = .queue) (hok : op.status = ST.ok) (hcount : needsCount d op = true) (hpkts : op.pkts = p :: ps) :
    finishOp id d = setOp id { op with
      pkts := op.pkts ++ [PktRec.new .count (gAddr (gDev p.dst) (counterBase + 8 * fdDstCnt op.desc)) 0 0] } d := by
  have htarget : countTarget op = some (gAddr (gDev p.dst) (counterBase + 8 * fdDstCnt op.desc)) := by simp [countTarget, hpkts]
  simp [finishOp, hop, hd, hu, hok, hcount, htarget]

/-! ## What each step leaves -/

section Steps
variable {op : FabOp} {d : Dev}

theorem recordPut_frame (h : Admits d) : recordPut op d = { d with
    mem := (recordPut op d).mem, seq := { d.seq with written := (recordPut op d).seq.written }
    od := (recordPut op d).od, ev := (recordPut op d).ev } := by
  unfold recordPut
  split
  · exact putRecord_frame _ _ _ _ h
  · rfl

theorem rd_recordPut (h : Admits d) {k : Nat} (hk : k ≠ OD.recordWriteFailures) : rd (recordPut op d) k = rd d k := by
  unfold recordPut
  split
  · exact rd_putRecord _ _ _ _ h hk
  · rfl

theorem outcomeCounted_frame (st : Status) (d : Dev) : outcomeCounted st d = { d with od := (outcomeCounted st d).od } := by
  unfold outcomeCounted
  split <;> rfl

theorem rd_outcomeCounted_completed (st : Status) (d : Dev) :
    rd (outcomeCounted st d) OD.fabricOpsCompleted = (rd d OD.fabricOpsCompleted + 1) % 2 ^ 64 := by
  unfold outcomeCounted
  split
  · rw [rd_inc, if_pos rfl]
  · rw [rd_inc, if_neg (by decide), rd_inc, if_pos rfl]

theorem rd_outcomeCounted_failed (st : Status) (d : Dev) : rd (outcomeCounted st d) OD.fabricOpsFailed =
    if (st != ST.ok) = true then (rd d OD.fabricOpsFailed + 1) % 2 ^ 64 else rd d OD.fabricOpsFailed := by
  unfold outcomeCounted
  by_cases hst : st = ST.ok
  · rw [if_pos hst, rd_inc, if_neg (by decide), if_neg (by simp [hst])]
  · rw [if_neg hst, rd_inc, if_pos rfl, rd_inc, if_neg (by decide), if_pos (by simp [hst])]

theorem failureKept_frame (id : Nat) (op : FabOp) (d : Dev) :
    failureKept id op d = { d with tw := { d.tw with queues := (failureKept id op d).tw.queues } } := by
  unfold failureKept
  split <;> rfl

variable (h : Admits d)
include h

theorem admits_arriveIf (b : Prop) [Decidable b] (n : Nat) : Admits (arriveIf b n d) := by
  rw [Admits, arriveIf_frame]
  exact h

theorem recorded_frame : recorded op d = { d with
    mem := (recorded op d).mem, seq := { d.seq with written := (recorded op d).seq.written }, od := (recorded op d).od
    ev := (recorded op d).ev, runs := (recorded op d).runs, blocks := (recorded op d).blocks
    tw := { d.tw with counters := (recorded op d).tw.counters } } := by
  unfold recorded
  rw [arriveIf_frame (fdSrcCntEn op.desc = true), recordPut_frame (admits_arriveIf h ..), arriveIf_frame (raisesHere d op)]

theorem rd_recorded {k : Nat} (hk : k ≠ OD.recordWriteFailures) : rd (recorded op d) k = rd d k := by
  have hsource : rd (recorded op d) k = rd (recordPut op (arriveIf (raisesHere d op) (fdDstCnt op.desc) d)) k := by
    rw [recorded, arriveIf_frame (fdSrcCntEn op.desc = true)]
    rfl
  rw [hsource, rd_recordPut (admits_arriveIf h ..) hk, arriveIf_frame]
  rfl

theorem counterAt_recorded (k : Nat) : counterAt (recorded op d) k % 2 ^ 64 = (counterAt d k +
    (if raisesHere d op ∧ k = fdDstCnt op.desc then 1 else 0) +
    (if fdSrcCntEn op.desc = true ∧ k = fdSrcCnt op.desc then 1 else 0)) % 2 ^ 64 := by
  have hput : counterAt (recordPut op (arriveIf (raisesHere d op) (fdDstCnt op.desc) d)) k =
      counterAt (arriveIf (raisesHere d op) (fdDstCnt op.desc) d) k := by
    rw [recordPut_frame (admits_arriveIf h ..)]
    rfl
  rw [recorded, counterAt_arriveIf, hput, Nat.add_mod, counterAt_arriveIf, ← Nat.add_mod]

end Steps

/-! ## The record (R322) -/

theorem fabRecord_length (op : FabOp) : (fabRecord op).length = 16 := by
  rw [fabRecord, List.length_append, leBytes_length, leBytes_length]

theorem writeStatus_arriveIf (b : Prop) [Decidable b] (n a k : Nat) (d : Dev) : writeStatus (arriveIf b n d) a k = writeStatus d a k := by
  rw [arriveIf_frame]
  rfl

theorem recordAt_recorded {op : FabOp} {d : Dev} (hs : d.mem.settled = true) :
    RecordAt (fdRecord op.desc) (fabRecord op) d (recorded op d) := by
  intro hr
  have hsame := sameMemory_arriveIf (raisesHere d op) (fdDstCnt op.desc) hr hs
  have hr2 : (recordPut op (arriveIf (raisesHere d op) (fdDstCnt op.desc) d)).seq.regions = [] := by
    rw [recordPut_frame (.inr hsame.regions')]
    exact hsame.regions'
  have hbyte : ∀ b, byteAt (recorded op d) b = byteAt (recordPut op (arriveIf (raisesHere d op) (fdDstCnt op.desc) d)) b :=
    byteAt_arriveIf _ _ hr2
  have hbytes : bytesAt (recorded op d) (fdRecord op.desc) 16 =
      bytesAt (recordPut op (arriveIf (raisesHere d op) (fdDstCnt op.desc) d)) (fdRecord op.desc) 16 := by
    simp only [bytesAt, hbyte]
  obtain ⟨hwritten, houtside⟩ := recordAt_putRecord (a := fdRecord op.desc) (st := op.status) (inst := slotCore op.slot)
    (fabRecord_length op) hsame (writeStatus_arriveIf ..)
  rw [hbytes]
  simp only [hbyte]
  by_cases hasked : fdRecord op.desc = 0
  · rw [recordPut, if_neg (not_not_intro hasked)]
    exact ⟨fun hne => absurd hasked hne, fun b _ _ => hsame.byteAt b⟩
  · rw [recordPut, if_pos hasked]
    exact ⟨fun _ => hwritten, fun b hb hout => houtside b hb (by omega)⟩

/-! ## The end of an operation -/

section Ended
variable {id : Nat} {op : FabOp} {d : Dev} (h : Admits d)

/-- The device as the operation leaves the list: what stands after the record, with the outcome counted and a failure kept. -/
def beforeLeaving (id : Nat) (op : FabOp) (d : Dev) : Dev := failureKept id op (outcomeCounted op.status (recorded op d))

theorem opEnded_eq : opEnded id op d = itemOpDone id op.status (removeOp id op (beforeLeaving id op d)) := rfl

theorem byteAt_opEnded (b : Nat) : byteAt (opEnded id op d) b = byteAt (recorded op d) b := by
  have hb : byteAt (beforeLeaving id op d) b = byteAt (recorded op d) b := by
    rw [beforeLeaving, failureKept_frame, outcomeCounted_frame]
    rfl
  exact Eq.trans rfl hb

theorem rd_opEnded (k : Nat) : rd (opEnded id op d) k = rd (outcomeCounted op.status (recorded op d)) k := by
  have hrd : rd (beforeLeaving id op d) k = rd (outcomeCounted op.status (recorded op d)) k := by
    rw [beforeLeaving, failureKept_frame]
    rfl
  exact Eq.trans rfl hrd

theorem counterAt_opEnded (k : Nat) : counterAt (opEnded id op d) k = counterAt (recorded op d) k := by
  have hcounter : counterAt (beforeLeaving id op d) k = counterAt (recorded op d) k := by
    rw [beforeLeaving, failureKept_frame, outcomeCounted_frame]
    rfl
  exact Eq.trans rfl hcounter

include h

theorem beforeLeaving_ops : (beforeLeaving id op d).tw.ops = d.tw.ops := by
  rw [beforeLeaving, failureKept_frame, outcomeCounted_frame, recorded_frame h]

theorem findOp_opEnded (k : Nat) : findOp (opEnded id op d) k = if id = k then none else findOp d k := by
  rw [opEnded_eq]
  refine (findOp_removeOp id k op (beforeLeaving id op d)).trans ?_
  rw [findOp, beforeLeaving_ops h, findOp]

theorem outstandingTo_opEnded (k : Nat) : outstandingTo (opEnded id op d) k = outstandingTo d k := by
  have houtstanding : (beforeLeaving id op d).tw.outstanding = d.tw.outstanding := by
    rw [beforeLeaving, failureKept_frame, outcomeCounted_frame, recorded_frame h]
  rw [outstandingTo, outstandingTo, ← houtstanding]
  rfl

theorem reached_opEnded : (opEnded id op d).seq.reached = d.seq.reached := by
  have hreached : (beforeLeaving id op d).seq.reached = d.seq.reached := by
    rw [beforeLeaving, failureKept_frame, outcomeCounted_frame, recorded_frame h]
  exact Eq.trans rfl hreached

theorem completed_opEnded : Counted OD.fabricOpsCompleted true d (opEnded id op d) := by
  rw [Counted, rd_opEnded, rd_outcomeCounted_completed, rd_recorded h (by decide), if_pos rfl]

theorem failed_opEnded : Counted OD.fabricOpsFailed (op.status != ST.ok) d (opEnded id op d) := by
  rw [Counted, rd_opEnded, rd_outcomeCounted_failed, rd_recorded h (by decide)]

theorem counters_opEnded (hrun : isRun op.desc = false) (k : Nat) : counterAt (opEnded id op d) k % 2 ^ 64 = (counterAt d k +
    (if op.status = ST.ok ∧ fdDstCntEn op.desc = true ∧ ¬countsThere d op.desc ∧ k = fdDstCnt op.desc then 1 else 0) +
    (if fdSrcCntEn op.desc = true ∧ k = fdSrcCnt op.desc then 1 else 0)) % 2 ^ 64 := by
  have hhere : (raisesHere d op ∧ k = fdDstCnt op.desc) ↔
      op.status = ST.ok ∧ fdDstCntEn op.desc = true ∧ ¬countsThere d op.desc ∧ k = fdDstCnt op.desc := by
    have haway := countsAway_iff (d := d) hrun
    rw [raisesHere, Bool.not_eq_true', ← Bool.not_eq_true, haway]
    tauto
  rw [counterAt_opEnded, counterAt_recorded h]
  simp only [hhere]

omit h in
theorem recordAt_opEnded (hs : d.mem.settled = true) : RecordAt (fdRecord op.desc) (fabRecord op) d (opEnded id op d) := by
  intro hr
  have hbytes : bytesAt (opEnded id op d) (fdRecord op.desc) 16 = bytesAt (recorded op d) (fdRecord op.desc) 16 := by
    simp only [bytesAt, byteAt_opEnded]
  simp only [hbytes, byteAt_opEnded]
  exact recordAt_recorded hs hr

end Ended

theorem operationEndsPart : Claims.OperationEndsPart := by
  intro id op s hc hmem hop hu hrun
  have hadmits : Admits s.m := hmem.admits
  have heffect := completeEffect_plain hop hrun
  refine ⟨fun hb hd hcount hvalue hflag => ?_, fun p ps hb _ hpkts hacked hok hthere hen hcounted hseq => ?_, fun hopen => ?_⟩
  · have hends := heffect.trans (finishOp_ends hop (decided_of hb hd) hu hrun (needsCount_false hrun hcount) hvalue hflag)
    refine completes_unheld hc (exec_fabricOpComplete id s) ?_ ?_
    · rw [hends]
      exact reached_opEnded hadmits
    · rw [hends]
      exact ⟨(findOp_opEnded hadmits id).trans (if_pos rfl), fun k hk => (findOp_opEnded hadmits k).trans (if_neg (Ne.symm hk)),
        outstandingTo_opEnded hadmits, completed_opEnded hadmits, failed_opEnded hadmits, counters_opEnded hadmits hrun,
        recordAt_opEnded hmem.settled⟩
  · exact completes_onDev hc (exec_fabricOpComplete id s)
      (heffect.trans (finishOp_counts hop (decided_of hb (.inr hacked)) hu hok (needsCount_true hrun hthere hen hcounted hseq) hpkts)) rfl
      (opIs_setOp ..)
  · exact becomes_onDev hc (exec_fabricOpComplete id s) (heffect.trans (finishOp_undecided hop (decided_not hopen))) rfl

/-- Settles O29: each kind of operation begins as its command says, a copy within the device by a write of its bytes piece by piece; the
end of a decided operation is a sequence of steps of which each touches its own part of the device, and the counters, the record and the
list of operations follow from them. -/
theorem operationsAndCompletion : Obligations.OperationsAndCompletion := ⟨operationBeginsPart, operationEndsPart⟩

end Sys2Proof.Machine
end

section
/-!
SUPPORT. A value rounded to FP32 reads back as it was written: to round it once more changes nothing (R170, R176, R179).
-/

namespace Sys2Proof.Machine

/-! ## The parts of an encoding (R170) -/

/-- Sign, exponent and fraction of an FP32 number. -/
def signOf (w : W32) : Bool := w.toNat / 2 ^ 31 == 1
def exponentOf (w : W32) : Nat := w.toNat / 2 ^ 23 % 2 ^ 8
def fractionOf (w : W32) : Nat := w.toNat % 2 ^ 23

theorem exponentOf_lt (w : W32) : exponentOf w < 2 ^ 8 := Nat.mod_lt _ (by decide)
theorem fractionOf_lt (w : W32) : fractionOf w < 2 ^ 23 := Nat.mod_lt _ (by decide)

theorem toNat_parts (w : W32) : exponentOf w * 2 ^ 23 + fractionOf w + signBit .fp32 (signOf w) = w.toNat := by
  have hw := w.isLt
  have hsign : signBit .fp32 (signOf w) = w.toNat / 2 ^ 31 * 2 ^ 31 := by
    rcases (show w.toNat / 2 ^ 31 = 0 ∨ w.toNat / 2 ^ 31 = 1 by omega) with h | h <;> rw [signOf, h] <;> rfl
  rw [hsign, exponentOf, fractionOf]
  omega

theorem f32_eq (w : W32) : f32 w =
    if exponentOf w = 255 then (if fractionOf w = 0 then .inf (signOf w) else .nan)
    else if exponentOf w = 0 then .fin (signOf w) (fractionOf w) (-149)
    else .fin (signOf w) (2 ^ 23 + fractionOf w) ((exponentOf w : Int) - 127 - 23) := by
  have hw : w.toNat % 2 ^ Fmt.fp32.bits = w.toNat := Nat.mod_eq_of_lt w.isLt
  simp only [f32, decode, hw]
  simp only [Fmt.hasInf, Bool.true_and, beq_iff_eq, reduceCtorEq, false_and, if_false]
  rfl

/-! ## Rounding to nearest even -/

/-- The binade in which a magnitude n * 2^e is rounded. -/
def binade (n : Nat) (e : Int) : Int := max (-126) (min 127 ((Nat.log2 n : Int) + e))

theorem round_fin {n : Nat} (s : Bool) (e : Int) (hn : n ≠ 0) : round .fp32 RMode.rne false (.fin s n e) =
    let k := roundTo RMode.rne s n e (binade n e - 23)
    if binade n e = 127 ∧ 2 ^ 24 - 1 < k then ⟨infOf .fp32 s, true⟩
    else ⟨(binade n e + 126).toNat * 2 ^ 23 + k + signBit .fp32 s, false⟩ := by
  have hbias (x : Int) : x + (127 : Nat) - 1 = x + 126 := by omega
  simp only [round, if_neg hn]
  simp only [← hbias]
  rfl

theorem round_zero (s : Bool) (e : Int) : round .fp32 RMode.rne false (.fin s 0 e) = ⟨signBit .fp32 s, false⟩ := rfl

/-- A magnitude that its binade holds exactly is kept. -/
theorem round_exact {n : Nat} (s : Bool) {e b : Int} (hn : n ≠ 0) (hb : binade n e = b) (he : e = b - 23) (hmax : n < 2 ^ 24) :
    (round .fp32 RMode.rne false (.fin s n e)).bits = (b + 126).toNat * 2 ^ 23 + n + signBit .fp32 s := by
  have hkept : roundTo RMode.rne s n e (b - 23) = n := by
    rw [roundTo, if_pos (le_of_eq he.symm), ← he, Int.sub_self]
    exact Nat.mul_one n
  rw [round_fin s e hn, hb]
  simp only [hkept]
  rw [if_neg (by omega)]

/-- The rounded magnitude of a number within the binades has at most 24 bits, or is the next power of two. -/
theorem roundTo_le {n : Nat} (s : Bool) {e b : Int} (hb : (Nat.log2 n : Int) + e ≤ b) : roundTo RMode.rne s n e (b - 23) ≤ 2 ^ 24 := by
  have hlog : n < 2 ^ (Nat.log2 n + 1) := Nat.lt_log2_self
  unfold roundTo
  split
  · rename_i he
    calc n * 2 ^ (e - (b - 23)).toNat ≤ 2 ^ (Nat.log2 n + 1) * 2 ^ (e - (b - 23)).toNat := Nat.mul_le_mul_right _ hlog.le
      _ = 2 ^ (Nat.log2 n + 1 + (e - (b - 23)).toNat) := (Nat.pow_add ..).symm
      _ ≤ 2 ^ 24 := Nat.pow_le_pow_right (by decide) (by omega)
  · have hquot : n / 2 ^ (b - 23 - e).toNat < 2 ^ 24 := by
      refine Nat.div_lt_of_lt_mul (hlog.trans_le ?_)
      rw [← Nat.pow_add]
      exact Nat.pow_le_pow_right (by decide) (by omega)
    dsimp only
    split <;> omega

/-- A finite number rounds to a finite number or to an infinity. -/
theorem exponentOf_round {n : Nat} (s : Bool) (e : Int) :
    exponentOf (rne32 (.fin s n e)) ≠ 255 ∨ fractionOf (rne32 (.fin s n e)) = 0 := by
  by_cases hn : n = 0
  case pos =>
    subst hn
    rw [rne32, round_zero]
    cases s <;> decide
  rw [rne32, round_fin s e hn]
  dsimp only
  split
  · cases s <;> decide
  · rename_i hmax
    have hsign : signBit .fp32 s = 0 ∨ signBit .fp32 s = 2 ^ 31 := by cases s <;> decide
    have hlow : -126 ≤ binade n e ∧ binade n e ≤ 127 := by unfold binade; omega
    have hk : binade n e ≠ 127 → roundTo RMode.rne s n e (binade n e - 23) ≤ 2 ^ 24 :=
      fun h => roundTo_le s (by unfold binade at h ⊢; omega)
    refine .inl ?_
    rw [exponentOf, BitVec.toNat_ofNat]
    dsimp only
    generalize roundTo RMode.rne s n e (binade n e - 23) = k at hmax hk ⊢
    generalize binade n e = b at hlow hmax hk ⊢
    obtain ⟨c, hc⟩ := Int.eq_ofNat_of_zero_le (show 0 ≤ b + 126 by omega)
    rw [hc, Int.toNat_natCast]
    by_cases hb : b = 127
    · omega
    · have := hk hb
      omega

theorem rne32_canonical {v : Val} (h : exponentOf (rne32 v) = 255) (hfrac : fractionOf (rne32 v) ≠ 0) : rne32 v = canonNan := by
  cases v with
  | nan => rfl
  | inf s => cases s <;> exact absurd (by decide) hfrac
  | fin s n e => exact ((exponentOf_round s e).elim (fun hne => hne h) hfrac).elim

theorem binade_subnormal {n : Nat} (h : n < 2 ^ 23) : binade n (-149) = -126 := by
  have hlog : Nat.log2 n < 23 := by
    by_cases hn : n = 0
    · subst hn
      decide
    · exact (Nat.log2_lt hn).2 h
  unfold binade
  omega

theorem binade_normal {e f : Nat} (he : e ≠ 0) (he' : e < 255) (hf : f < 2 ^ 23) :
    binade (2 ^ 23 + f) ((e : Int) - 127 - 23) = e - 127 := by
  have hlog : Nat.log2 (2 ^ 23 + f) = 23 := (Nat.log2_eq_iff (by omega)).2 ⟨by omega, by omega⟩
  unfold binade
  omega

/-- Any number that is not a NaN of another pattern rounds to itself. -/
theorem rne32_f32 {w : W32} (h : exponentOf w = 255 → fractionOf w ≠ 0 → w = canonNan) : rne32 (f32 w) = w := by
  have hw := toNat_parts w
  have hfrac := fractionOf_lt w
  have hbits (h : (round .fp32 RMode.rne false (f32 w)).bits = exponentOf w * 2 ^ 23 + fractionOf w + signBit .fp32 (signOf w)) :
      rne32 (f32 w) = w := by rw [rne32, h, hw, BitVec.ofNat_toNat, BitVec.setWidth_eq]
  rw [f32_eq] at hbits ⊢
  by_cases he : exponentOf w = 255
  · rw [if_pos he] at hbits ⊢
    by_cases hf : fractionOf w = 0
    · rw [if_pos hf] at hbits ⊢
      refine hbits ?_
      rw [he, hf]
      rfl
    · rw [if_neg hf, h he hf]
      rfl
  rw [if_neg he] at hbits ⊢
  by_cases hzero : exponentOf w = 0
  · rw [if_pos hzero] at hbits ⊢
    refine hbits ?_
    by_cases hf : fractionOf w = 0
    · rw [hf, round_zero, hzero, Nat.zero_mul, Nat.zero_add]
    · rw [round_exact _ hf (binade_subnormal hfrac) rfl (by omega), hzero]
      rfl
  · rw [if_neg hzero] at hbits ⊢
    have hlt := exponentOf_lt w
    refine hbits ?_
    have hb := binade_normal hzero (by omega) hfrac
    have hexp : ((exponentOf w : Int) - 127 + 126).toNat = exponentOf w - 1 := by omega
    rw [round_exact (signOf w) (by omega) hb rfl (by omega), hexp]
    obtain ⟨x, hx⟩ := Nat.exists_eq_succ_of_ne_zero hzero
    rw [hx, Nat.succ_sub_one, Nat.succ_mul, ← Nat.add_assoc (x * 2 ^ 23)]

/-- A rounded value rounds to itself. -/
theorem rne32_f32_rne32 (v : Val) : rne32 (f32 (rne32 v)) = rne32 v := rne32_f32 rne32_canonical

end Sys2Proof.Machine
end

section
/-!
SUPPORT. What an operation of a unit does to memory: it uses the lines that it reads, and makes its writes one after another until one
fails (R142, R164, R166, R434).
-/

namespace Sys2Proof.Machine

/-! ## Reads -/

/-- The lines of several ranges used by reads, and the same ranges only reached. -/
def touchReads (rs : List (Nat × Nat)) (d : Dev) : Dev := rs.foldl (fun d p => touchRead p.1 p.2 d) d
def reachAll (rs : List (Nat × Nat)) (d : Dev) : Dev := rs.foldl (fun d p => reach p.1 p.2 d) d

theorem touchReads_cells (rs : List (Nat × Nat)) {d : Dev} (h : d.mem.settled = true) : (touchReads rs d).mem.cells = d.mem.cells := by
  induction rs generalizing d with
  | nil => rfl
  | cons p rs ih =>
    have hsettled : (touchRead p.1 p.2 d).mem.settled = true := (foldl_use_settled _ _ (by simpa using h)).1
    exact (ih hsettled).trans (touchRead_cells p.1 p.2 h)

theorem reach_written (a n : Nat) (d : Dev) : (reach a n d).seq.written = d.seq.written := by
  unfold reach
  split <;> rfl

theorem reachAll_mem (rs : List (Nat × Nat)) (d : Dev) : (reachAll rs d).mem = d.mem := by
  induction rs generalizing d with
  | nil => rfl
  | cons p rs ih => exact (ih _).trans (reach_mem p.1 p.2 d)

theorem reachAll_written (rs : List (Nat × Nat)) (d : Dev) : (reachAll rs d).seq.written = d.seq.written := by
  induction rs generalizing d with
  | nil => rfl
  | cons p rs ih => exact (ih _).trans (reach_written p.1 p.2 d)

theorem touchReads_written (rs : List (Nat × Nat)) (d : Dev) : (touchReads rs d).seq.written = d.seq.written := by
  induction rs generalizing d with
  | nil => rfl
  | cons p rs ih => exact (ih _).trans (reach_written p.1 p.2 d)

section Admitted
variable {d : Dev} (h : Admits d)
include h

theorem reachAll_admits (rs : List (Nat × Nat)) : reachAll rs d = d := by
  induction rs with
  | nil => rfl
  | cons p rs ih =>
    rw [reachAll, List.foldl_cons, reach_admits h]
    exact ih

theorem memoryOnly_touchRead (a n : Nat) : MemoryOnly d (touchRead a n d) := by
  unfold touchRead
  rw [reach_admits h]
  rfl

theorem memoryOnly_touchReads (rs : List (Nat × Nat)) : MemoryOnly d (touchReads rs d) := by
  induction rs generalizing d with
  | nil => rfl
  | cons p rs ih =>
    have hread := memoryOnly_touchRead h p.1 p.2
    exact hread.trans (ih (h.memoryOnly hread))

theorem memoryOnly_writeAll (ws : List (Nat × Bytes)) : MemoryOnly d (writeAll ws d).2 := by
  induction ws generalizing d with
  | nil => rfl
  | cons p ws ih =>
    have hwrite := memoryOnly_writeMem h p.1 p.2
    rw [writeAll]
    split
    · exact hwrite.trans (ih (h.memoryOnly hwrite))
    · rfl

end Admitted

/-! ## Bytes that are written -/

/-- A byte rests on the sequencer's regions, the bytes of storage, and the map of the window. -/
theorem byteAt_congr {d d' : Dev} (hseq : d'.seq = d.seq) (hcells : d'.mem.cells = d.mem.cells) (hcxl : d'.mem.cxl = d.mem.cxl)
    (hplacement : d'.mem.placement = d.mem.placement) (b : Nat) : byteAt d' b = byteAt d b := by
  have hplace : readPlace d' b = readPlace d b := by
    unfold readPlace shadowOf inStep
    rw [hseq]
  unfold byteAt
  rw [hplace]
  cases readPlace d b with
  | none => rfl
  | some p =>
    dsimp only
    rw [storeAt_congr p hcxl hplacement, cellAt, hcells, cellAt]

section Line
variable {a : Nat} {bs : Bytes} {d d' : Dev}

/-- Bytes within a line are written whole where nothing turns them away. -/
theorem writeMem_line (hsame : SameMemory d d') (hn : 0 < bs.length) (hfit : a % 64 + bs.length ≤ 64)
    (hst : writeStatus d' a bs.length = ST.ok) (hbar : writeBarred d a = false) (hpoison : poisonAt d a = false) :
    (writeMem a bs d').1 = ST.ok ∧ bytesAt (writeMem a bs d').2 a bs.length = bs := by
  obtain ⟨hr, hr', hover, -⟩ := hsame
  refine writeMem_taken hr' hover.settled hst fun p hp => ?_
  rw [pieces_within hn hfit, List.mem_singleton] at hp
  rw [hp, portBarred_congr a hover.cxl hover.placement, storeAt_congr a hover.cxl hover.placement]
  exact ⟨(writeBarred_plain hr a).symm.trans hbar, hover.poison _ (place_unpoisoned hr a hpoison)⟩

end Line

/-- Memory is written over within the bytes that P names; no region is loaded. -/
structure WritesWithin (P : Nat → Prop) (d d' : Dev) : Prop where
  regions : d'.seq.regions = []
  memory : WrittenOver d.mem d'.mem
  bytes : ∀ b < 2 ^ 49, ¬P b → byteAt d' b = byteAt d b

theorem WritesWithin.trans {P : Nat → Prop} {d d' d'' : Dev} (h : WritesWithin P d d') (h' : WritesWithin P d' d'') :
    WritesWithin P d d'' :=
  ⟨h'.regions, h.memory.trans h'.memory, fun b hb hP => (h'.bytes b hb hP).trans (h.bytes b hb hP)⟩

theorem SameMemory.trans {d d' d'' : Dev} (h : SameMemory d d') (h' : SameMemory d' d'') : SameMemory d d'' :=
  ⟨h.regions, h'.regions', h.memory.trans h'.memory, h'.cells.trans h.cells⟩

theorem SameMemory.writesWithin {d d' : Dev} (P : Nat → Prop) (h : SameMemory d d') : WritesWithin P d d' :=
  ⟨h.regions', h.memory, fun b _ _ => h.byteAt b⟩

section Plain
variable {d : Dev} (hr : d.seq.regions = []) (hs : d.mem.settled = true)
include hr hs

theorem sameMemory_refl : SameMemory d d := ⟨hr, hr, writtenOver_refl hs, rfl⟩

theorem sameMemory_touchReads (rs : List (Nat × Nat)) : SameMemory d (touchReads rs d) := by
  induction rs generalizing d with
  | nil => exact sameMemory_refl hr hs
  | cons p rs ih =>
    have hr' : (touchRead p.1 p.2 d).seq.regions = [] := by
      rw [touchRead_frame hr hs]
      exact hr
    have hover := writtenOver_touchRead hr hs p.1 p.2
    exact (SameMemory.mk hr hr' hover (touchRead_cells p.1 p.2 hs)).trans (ih hr' hover.settled)

theorem touchReads_frame (rs : List (Nat × Nat)) :
    touchReads rs d = { d with mem := { d.mem with llc := (touchReads rs d).mem.llc } } := by
  induction rs generalizing d with
  | nil => rfl
  | cons p rs ih =>
    have hframe := touchRead_frame hr hs p.1 p.2
    have hr' : (touchRead p.1 p.2 d).seq.regions = [] := by
      rw [hframe]
      exact hr
    rw [touchReads, List.foldl_cons, ← touchReads, ih hr' (writtenOver_touchRead hr hs p.1 p.2).settled, hframe]

theorem writtenOver_writeMem (a : Nat) (bs : Bytes) : WrittenOver d.mem (writeMem a bs d).2.mem := by
  by_cases h : writeStatus d a bs.length = ST.ok
  case neg =>
    rw [writeMem_refused h]
    exact writtenOver_refl hs
  case pos =>
    rw [writeMem_ok h]
    by_cases hn : bs.length = 0
    · have hnone : pieces a bs.length = [] := by rw [pieces, if_pos hn]
      rw [hnone]
      exact writtenOver_refl hs
    · exact (writePieces_outside hr hs (fun p hp => linePiece_of_mem hp) (writeStatus_bound h hn)).2.1

theorem writesWithin_writeMem {P : Nat → Prop} {a : Nat} {bs : Bytes} (hP : ∀ b, a ≤ b → b < a + bs.length → P b) :
    WritesWithin P d (writeMem a bs d).2 := by
  refine ⟨?_, writtenOver_writeMem hr hs a bs, fun b hb hout => ?_⟩
  · rw [writeMem_frame_plain hr hs]
    exact hr
  · have hbeside : b < a ∨ a + bs.length ≤ b := by
      by_contra hin
      exact hout (hP b (by omega) (by omega))
    exact writeMem_outside hr hs hb hbeside

theorem writesWithin_writeAll {P : Nat → Prop} {ws : List (Nat × Bytes)}
    (hP : ∀ q ∈ ws, ∀ b, q.1 ≤ b → b < q.1 + q.2.length → P b) : WritesWithin P d (writeAll ws d).2 := by
  induction ws generalizing d with
  | nil => exact (sameMemory_refl hr hs).writesWithin P
  | cons q ws ih =>
    have hwrite := writesWithin_writeMem hr hs (hP q (List.mem_cons_self ..))
    rw [writeAll]
    split
    · exact hwrite.trans (ih hwrite.regions hwrite.memory.settled fun p hp => hP p (List.mem_cons_of_mem _ hp))
    · exact (sameMemory_refl hr hs).writesWithin P

end Plain

end Sys2Proof.Machine
end

section
/-!
SUPPORT. The parts of C: where they lie (R142, R160), and that what a part writes lies in its rows of C and of C's scales (R166, R175).
-/

namespace Sys2Proof.Machine

/-! ## Parts (R142, R160) -/

/-- Element (m, n) lies in a part. -/
def Part.Holds (p : Part) (m n : Nat) : Prop := p.m0 ≤ m ∧ m < p.m1 ∧ p.n0 ≤ n ∧ n < p.n1

theorem chunkRows_pos (w : List W64) : 0 < chunkRows w := by
  unfold chunkRows
  split <;> decide

/-- A number below a bound lies in that block of c numbers that its quotient names. -/
theorem inBlock_iff {a c m bound : Nat} (hc : 0 < c) (hm : m < bound) : a * c ≤ m ∧ m < Nat.min bound (a * c + c) ↔ m / c = a := by
  have hlow : a ≤ m / c ↔ a * c ≤ m := Nat.le_div_iff_mul_le hc
  have hhigh : m / c < a + 1 ↔ m < (a + 1) * c := Nat.div_lt_iff_lt_mul hc
  rw [Nat.succ_mul] at hhigh
  rw [show Nat.min bound (a * c + c) = min bound (a * c + c) from rfl]
  omega

section Holds
variable {w : List W64} {m n : Nat} (hm : m < mxM w) (hn : n < mxN w)
include hm hn

theorem holds_skate (i : Nat) : (partAt true w i).Holds m n ↔ m / 16 = i / colTiles w ∧ n / 128 = i % colTiles w := by
  have hrow := inBlock_iff (a := i / colTiles w) (c := 16) (by decide) hm
  have hcol := inBlock_iff (a := i % colTiles w) (c := 128) (by decide) hn
  rw [← hrow, ← hcol, and_assoc, Nat.mul_comm _ 16, Nat.mul_comm _ 128]
  rfl

theorem holds_array (i : Nat) :
    (partAt false w i).Holds m n ↔ m / chunkRows w = i % rowChunks w ∧ n / 128 = i / rowChunks w := by
  have hrow := inBlock_iff (a := i % rowChunks w) (chunkRows_pos w) hm
  have hcol := inBlock_iff (a := i / rowChunks w) (c := 128) (by decide) hn
  rw [← hrow, ← hcol, and_assoc]
  rfl

theorem partCount_skate : partCount true w = skateGroups w * colTiles w := by
  rw [partCount, if_pos rfl, if_neg (by omega)]

theorem partCount_array : partCount false w = colTiles w * rowChunks w := by
  rw [partCount, if_neg Bool.false_ne_true, chunkCount, if_neg (by omega)]

omit hm in
theorem colTile_lt : n / 128 < colTiles w := by
  unfold colTiles
  omega

omit hn in
theorem skateGroup_lt : m / 16 < skateGroups w := by
  unfold skateGroups
  omega

omit hn in
theorem rowChunk_lt : m / chunkRows w < rowChunks w := by
  have hc := chunkRows_pos w
  rw [rowChunks, Nat.div_lt_iff_lt_mul hc]
  have hround := Nat.lt_div_mul_add (a := mxM w + chunkRows w - 1) hc
  omega

end Holds

/-- One number below a product has a given quotient and remainder. -/
theorem index_unique {q r x y : Nat} (hq : q < x) (hr : r < y) :
    q * y + r < x * y ∧ ∀ j, q = j / y ∧ r = j % y ↔ j = q * y + r := by
  refine ⟨?_, fun j => ⟨?_, ?_⟩⟩
  · calc q * y + r < q * y + y := by omega
      _ = (q + 1) * y := (Nat.succ_mul q y).symm
      _ ≤ x * y := Nat.mul_le_mul_right y hq
  · rintro ⟨rfl, rfl⟩
    exact (Nat.div_add_mod' j y).symm
  · rintro rfl
    have hy : 0 < y := by omega
    rw [Nat.mul_comm q y]
    exact ⟨(by rw [Nat.mul_add_div hy, Nat.div_eq_of_lt hr, Nat.add_zero]), (by rw [Nat.mul_add_mod, Nat.mod_eq_of_lt hr])⟩

/-- Each element of C lies in one part. -/
theorem part_unique {w : List W64} {m n : Nat} (skate : Bool) (hm : m < mxM w) (hn : n < mxN w) :
    ∃ i < partCount skate w, ∀ j, (partAt skate w j).Holds m n ↔ j = i := by
  cases skate with
  | true =>
    obtain ⟨hlt, hunique⟩ := index_unique (skateGroup_lt hm) (colTile_lt hn)
    exact ⟨_, (partCount_skate hm hn).symm ▸ hlt, fun j => (holds_skate hm hn j).trans (hunique j)⟩
  | false =>
    obtain ⟨hlt, hunique⟩ := index_unique (colTile_lt hn) (rowChunk_lt hm)
    exact ⟨_, (partCount_array hm hn).symm ▸ hlt, fun j => (holds_array hm hn j).trans (and_comm.trans (hunique j))⟩

/-- A part begins at a tile of 128 columns, and ends within C. -/
theorem partAt_bounds (skate : Bool) (w : List W64) (i : Nat) :
    (∃ t, (partAt skate w i).n0 = 128 * t) ∧ (partAt skate w i).m1 ≤ mxM w ∧ (partAt skate w i).n1 ≤ mxN w := by
  cases skate with
  | true => exact ⟨⟨_, rfl⟩, Nat.min_le_left .., Nat.min_le_left ..⟩
  | false => exact ⟨⟨_, Nat.mul_comm ..⟩, Nat.min_le_left .., Nat.min_le_left ..⟩

/-- A part of the skate path holds rows and columns. -/
theorem skatePart_nonempty {w : List W64} {i : Nat} (h : i < partCount true w) :
    (partAt true w i).m0 < (partAt true w i).m1 ∧ (partAt true w i).n0 < (partAt true w i).n1 := by
  by_cases hzero : mxM w = 0 ∨ mxN w = 0
  · rw [partCount, if_pos rfl, if_pos hzero] at h
    omega
  rw [partCount_skate (m := 0) (n := 0) (by omega) (by omega)] at h
  have hgroup : i / colTiles w < skateGroups w := Nat.div_lt_of_lt_mul (by rwa [Nat.mul_comm])
  have htile : i % colTiles w < colTiles w := Nat.mod_lt _ (by unfold colTiles; omega)
  unfold skateGroups at hgroup
  have hcols : i % colTiles w < (mxN w + 127) / 128 := htile
  have hrow : 16 * (i / colTiles w) < mxM w := by omega
  have hcol : 128 * (i % colTiles w) < mxN w := by omega
  exact ⟨Nat.lt_min.2 ⟨hrow, Nat.lt_add_of_pos_right (by decide)⟩, Nat.lt_min.2 ⟨hcol, Nat.lt_add_of_pos_right (by decide)⟩⟩

/-! ## What a row writes (R175) -/

theorem drainMx_length (f : Fmt) (anchor : Int) (block : List (Aa × RMode)) : (drainMx f anchor block).2.length = block.length := by
  unfold drainMx
  dsimp only
  split
  · exact List.length_map ..
  · split <;> exact List.length_map ..

/-- The blocks of 32 that cover a list have its length together. -/
theorem sum_blocks (len n : Nat) : ((List.range n).map fun i => min 32 (len - 32 * i)).sum = min len (32 * n) := by
  induction n with
  | zero => simp
  | succ n ih =>
    rw [List.range_succ, List.map_append, List.sum_append, ih]
    simp only [List.map_cons, List.map_nil, List.sum_singleton]
    omega

theorem drainRow_length (mem : Mem) (u : Nat → W32) (w : List W64) (m n0 n1 : Nat) :
    (drainRow mem u w m n0 n1).1.length = n1 - n0 ∧
    ((drainRow mem u w m n0 n1).2 = [] ∨ (drainRow mem u w m n0 n1).2.length = blocks32 (n1 - n0)) := by
  unfold drainRow
  dsimp only
  split
  · split
    · exact ⟨by simp, .inl rfl⟩
    · split
      · refine ⟨?_, .inr (by simp)⟩
        simp only [List.length_flatMap, List.map_map, Function.comp_def, drainMx_length, List.length_take, List.length_drop,
          List.length_map, List.length_range]
        rw [sum_blocks, blocks32]
        omega
      · exact ⟨by simp, .inl rfl⟩
  · exact ⟨by simp, .inl rfl⟩

theorem packBits_length (bits : Nat) (es : List Nat) : (packBits bits es).length = (es.length * bits + 7) / 8 := leBytes_length ..

/-- The bytes of C and of its scales (R144, R166). -/
def InOutputs (w : List W64) (a : Nat) : Prop :=
  Claims.inRows (mxCAddr w) (mxLdC w) (rowBytes (mxC w) (mxN w)) (mxM w) a ∨
  Claims.inRows (mxCScale w) (blocks32 (mxN w)) (blocks32 (mxN w)) (mxM w) a

/-- What a row writes of the columns that begin at a tile lies in the row. -/
theorem rowWrites_within {w : List W64} {m n0 n1 t : Nat} {r : List Drained × List Nat} (hm : m < mxM w) (ht : n0 = 128 * t)
    (hn : n1 ≤ mxN w) (hes : r.1.length = n1 - n0) (hscales : r.2 = [] ∨ r.2.length = blocks32 (n1 - n0)) :
    ∀ q ∈ rowWrites w m n0 r, ∀ b, q.1 ≤ b → b < q.1 + q.2.length → InOutputs w b := by
  have hcols : n1 * codeBits (mxC w) ≤ mxN w * codeBits (mxC w) := Nat.mul_le_mul_right _ hn
  intro q hq b hlo hhi
  rcases List.mem_cons.1 hq with rfl | hq
  · refine .inl ⟨m, hm, ?_⟩
    simp only [packBits_length, List.length_map, hes, ht, Nat.sub_mul, Nat.mul_assoc] at hlo hhi
    rw [rowBytes]
    generalize mxCAddr w + m * mxLdC w = base at hlo hhi ⊢
    omega
  · split at hq
    · exact absurd hq List.not_mem_nil
    · rename_i hne
      rw [List.mem_singleton] at hq
      subst hq
      refine .inr ⟨m, hm, ?_⟩
      simp only [List.length_map, hscales.resolve_left hne, blocks32] at hlo hhi ⊢
      generalize mxCScale w + m * ((mxN w + 31) / 32) = base at hlo hhi ⊢
      omega

end Sys2Proof.Machine
end

section
/-!
PROOFS. The parts of a matrix operation, one after another (R142, R160, R164, R166).
-/

namespace Sys2Proof.Machine

/-! ## One part (R164) -/

section Part
variable (skate mixed : Bool) (before d : Dev) (r : UnitRun) (i : Nat)

/-- What part i reads, and the device once it has read it. -/
def partInputs : List (Nat × Nat) := partReads r.op.words (partAt skate r.op.words i)
def partRead : Dev := touchReads (partInputs skate r i) d

/-- The rows of a part as drained from the memory of a device, and the writes of those rows. -/
def partRows (p : Part) : List (Nat × List Drained × List Nat) :=
  (List.range (p.m1 - p.m0)).map (fun j => (p.m0 + j, drainRow (opMem mixed before d)
    (fun e => (draw d (mxStream r.op.words) r.op.by_.step r.op.by_.mb e).x0) r.op.words (p.m0 + j) p.n0 p.n1))
def partWrites (p : Part) : List (Nat × Bytes) := (partRows mixed before d r p).flatMap (fun q => rowWrites r.op.words q.1 p.n0 q.2)

/-- The writes of part i, made. -/
def partWritten : Status × Dev :=
  writeAll (partWrites mixed before (partRead skate d r i) r (partAt skate r.op.words i)) (partRead skate d r i)

/-- What one part can do to a run and a device: nothing once the operation has ended; else it meets poison, a write of it fails, or it
is written. -/
inductive PartRan : UnitRun × Dev → Prop
  | ended (h : r.status ≠ ST.ok) : PartRan (r, d)
  | poisoned (h : r.status = ST.ok) (hpoison : (partInputs skate r i).any (fun p => poisonedIn d p.1 p.2) = true) :
      PartRan ({ r with status := ST.poison }, reachAll (partInputs skate r i) d)
  | failed (h : r.status = ST.ok) (hbad : (partWritten skate mixed before d r i).1 ≠ ST.ok) :
      PartRan ({ r with status := (partWritten skate mixed before d r i).1 }, partRead skate d r i)
  | written (h : r.status = ST.ok) (hok : (partWritten skate mixed before d r i).1 = ST.ok) (r' : UnitRun) (hop : r'.op = r.op)
      (hst : r'.status = ST.ok) : PartRan (r', if mixed then drew (partWritten skate mixed before d r i).2
        else (partWritten skate mixed before d r i).2)

theorem runPart_ran : PartRan skate mixed before d r i (runPart skate mixed before (r, d) i) := by
  unfold runPart
  dsimp only
  by_cases hst : r.status = ST.ok
  case neg =>
    rw [if_pos hst]
    exact .ended hst
  rw [if_neg (not_not_intro hst)]
  split
  · exact .poisoned hst ‹_›
  · split
    · exact .failed hst ‹_›
    · exact .written hst (not_not.1 ‹_›) _ rfl hst

end Part

section Within
variable {skate mixed : Bool} {before d : Dev} {r : UnitRun} {i : Nat}

theorem partWrites_within (d : Dev) : ∀ q ∈ partWrites mixed before d r (partAt skate r.op.words i),
    ∀ b, q.1 ≤ b → b < q.1 + q.2.length → InOutputs r.op.words b := by
  obtain ⟨⟨t, ht⟩, hrows, hcols⟩ := partAt_bounds skate r.op.words i
  generalize partAt skate r.op.words i = p at ht hrows hcols ⊢
  intro q hq
  obtain ⟨row, hrow, hq⟩ := List.mem_flatMap.1 hq
  obtain ⟨j, hj, rfl⟩ := List.mem_map.1 hrow
  have hlength := drainRow_length (opMem mixed before d)
    (fun e => (draw d (mxStream r.op.words) r.op.by_.step r.op.by_.mb e).x0) r.op.words (p.m0 + j) p.n0 p.n1
  have hm : p.m0 + j < mxM r.op.words := by
    have := List.mem_range.1 hj
    omega
  exact rowWrites_within hm ht hcols hlength.1 hlength.2 q hq

/-- A part that meets poison or a failed write leaves the bytes of storage and the lines that the open step has written. -/
theorem runPart_stopped (h : r.status = ST.ok) (hbad : (runPart skate mixed before (r, d) i).1.status ≠ ST.ok) :
    (runPart skate mixed before (r, d) i).1.done = r.done ∧ (runPart skate mixed before (r, d) i).1.checks = r.checks ∧
    (d.mem.settled = true → (runPart skate mixed before (r, d) i).2.mem.cells = d.mem.cells) ∧
    (runPart skate mixed before (r, d) i).2.seq.written = d.seq.written := by
  have hran := runPart_ran skate mixed before d r i
  generalize runPart skate mixed before (r, d) i = x at hran hbad ⊢
  cases hran with
  | ended hended => exact absurd h hended
  | poisoned => exact ⟨rfl, rfl, fun _ => congrArg MemState.cells (reachAll_mem ..), reachAll_written ..⟩
  | failed => exact ⟨rfl, rfl, fun hs => touchReads_cells _ hs, touchReads_written ..⟩
  | written _ _ _ _ hst => exact absurd hst hbad

/-- Nothing but memory, with the lines that the open step has written, and the count of free values differs. -/
def MemoryAndFree (d d' : Dev) : Prop := d' = { d with mem := d'.mem, seq := { d.seq with written := d'.seq.written }, free := d'.free }

theorem MemoryOnly.withFree {d d' : Dev} (h : MemoryOnly d d') : MemoryAndFree d d' := by
  rw [MemoryOnly] at h
  rw [MemoryAndFree, h]

theorem MemoryAndFree.trans {d d' d'' : Dev} (h : MemoryAndFree d d') (h' : MemoryAndFree d' d'') : MemoryAndFree d d'' := by
  rw [MemoryAndFree] at h h' ⊢
  rw [h', h]

theorem Admits.memoryAndFree {d d' : Dev} (h : Admits d) (hm : MemoryAndFree d d') : Admits d' := by
  rw [MemoryAndFree] at hm
  rw [Admits, hm]
  exact h

/-- What a part leaves of a run and of the device, where no access is held. -/
theorem runPart_frame (h : Admits d) : (runPart skate mixed before (r, d) i).1.op = r.op ∧
    MemoryAndFree d (runPart skate mixed before (r, d) i).2 := by
  have hread : MemoryOnly d (partRead skate d r i) := memoryOnly_touchReads h _
  have hran := runPart_ran skate mixed before d r i
  generalize runPart skate mixed before (r, d) i = x at hran ⊢
  cases hran with
  | ended => exact ⟨rfl, rfl⟩
  | poisoned =>
    rw [reachAll_admits h]
    exact ⟨rfl, rfl⟩
  | failed => exact ⟨rfl, hread.withFree⟩
  | written _ _ _ hop =>
    have hwritten : MemoryOnly d (partWritten skate mixed before d r i).2 := hread.trans (memoryOnly_writeAll (h.memoryOnly hread) _)
    refine ⟨hop, hwritten.withFree.trans ?_⟩
    cases mixed <;> rfl

/-- A part writes nothing but C and its scales (R166). -/
theorem runPart_within (hr : d.seq.regions = []) (hs : d.mem.settled = true) :
    WritesWithin (InOutputs r.op.words) d (runPart skate mixed before (r, d) i).2 := by
  have hsame : SameMemory d (partRead skate d r i) := sameMemory_touchReads hr hs _
  have hread := hsame.writesWithin (InOutputs r.op.words)
  have hran := runPart_ran skate mixed before d r i
  generalize runPart skate mixed before (r, d) i = x at hran ⊢
  cases hran with
  | ended => exact (sameMemory_refl hr hs).writesWithin _
  | poisoned =>
    rw [reachAll_admits (.inr hr)]
    exact (sameMemory_refl hr hs).writesWithin _
  | failed => exact hread
  | written =>
    have hwritten := hread.trans (writesWithin_writeAll hread.regions hread.memory.settled
      (partWrites_within (skate := skate) (i := i) (mixed := mixed) (before := before) (partRead skate d r i)))
    cases mixed with
    | false => exact hwritten
    | true => exact ⟨hwritten.regions, hwritten.memory, hwritten.bytes⟩

end Within

/-! ## The parts in turn -/

section Fold
variable {skate mixed : Bool} {before d : Dev} {r : UnitRun} (is : List Nat)

theorem foldl_runPart_frame (h : Admits d) : (is.foldl (runPart skate mixed before) (r, d)).1.op = r.op ∧
    MemoryAndFree d (is.foldl (runPart skate mixed before) (r, d)).2 := by
  induction is generalizing r d with
  | nil => exact ⟨rfl, rfl⟩
  | cons i is ih =>
    obtain ⟨hop, hframe⟩ := runPart_frame (skate := skate) (mixed := mixed) (before := before) (r := r) (i := i) h
    obtain ⟨hops, hframes⟩ := ih (r := (runPart skate mixed before (r, d) i).1) (h.memoryAndFree hframe)
    exact ⟨hops.trans hop, hframe.trans hframes⟩

theorem foldl_runPart_within (hr : d.seq.regions = []) (hs : d.mem.settled = true) :
    WritesWithin (InOutputs r.op.words) d (is.foldl (runPart skate mixed before) (r, d)).2 := by
  induction is generalizing r d with
  | nil => exact (sameMemory_refl hr hs).writesWithin _
  | cons i is ih =>
    have hpart := runPart_within (skate := skate) (mixed := mixed) (before := before) (r := r) (i := i) hr hs
    have hop := (runPart_frame (skate := skate) (mixed := mixed) (before := before) (r := r) (i := i) (.inr hr)).1
    have hrest := ih (r := (runPart skate mixed before (r, d) i).1) hpart.regions hpart.memory.settled
    rw [hop] at hrest
    exact hpart.trans hrest

end Fold

theorem matrixPartsPart : Claims.MatrixPartsPart := by
  refine ⟨fun w i hi => ?_, fun w m n skate hm hn => ?_, fun skate mixed before d r i h hbad => runPart_stopped h hbad⟩
  · exact ⟨rfl, rfl, rfl, rfl, skatePart_nonempty hi⟩
  · obtain ⟨i, hi, hunique⟩ := part_unique skate hm hn
    obtain ⟨hm0, hm1, hn0, hn1⟩ := (hunique i).2 rfl
    exact ⟨i, hi, hm0, hm1, hn0, hn1, fun j _ hj => (hunique j).1 hj⟩

end Sys2Proof.Machine
end

section
/-!
PROOFS. The one element of a 1 by 1 FP32 product in N3 wide order, from its operands to the bytes of C (R144, R175, R194).
-/

namespace Sys2Proof.Machine

open Claims (wideOrder f32At)

/-! ## The wide order (R194) -/

theorem groupIx_eq (g k j : Nat) : groupIx g k j = (List.range (min g (k - g * j))).map (g * j + ·) := by
  suffices h : ∀ n, (List.range n).filterMap (fun i => if g * j + i < k then some (g * j + i) else none) =
      (List.range (min n (k - g * j))).map (g * j + ·) from h g
  intro n
  induction n with
  | zero => simp
  | succ n ih =>
    rw [List.range_succ, List.filterMap_append, ih]
    by_cases hn : g * j + n < k
    · have hmin : min (n + 1) (k - g * j) = min n (k - g * j) + 1 := by omega
      have hlast : min n (k - g * j) = n := by omega
      rw [hmin, List.range_succ, List.map_append, hlast]
      simp [hn]
    · have hmin : min (n + 1) (k - g * j) = min n (k - g * j) := by omega
      rw [hmin]
      simp [hn]

section Element
variable {mem : Mem} {w : List W64} {m n : Nat} {a b : Nat → W32} (hmode : mxMode w = 0) (hacc : mxAccIn w = false)
  (ha : ∀ k, aAt mem w m k = f32 (a k)) (hb : ∀ k, bAt mem w k n = f32 (b k))
include hmode hacc ha hb

/-- An accumulator that starts at zero is the sum in the wide order. -/
theorem wideElem_acc : (wideElem mem w m n).acc = wideOrder a b (mxK w) := by
  unfold wideElem wideStart wideOrder
  rw [hmode, hacc]
  refine (List.foldl_hom Wide.acc fun s j => ?_).symm
  simp only [wideStep, Wide.put, products, groupIx_eq, List.map_map, Function.comp_def, ha, hb]

end Element

theorem foldl_rounded {α : Type} (g : W32 → α → Val) (l : List α) {x : W32} (hx : rne32 (f32 x) = x) :
    rne32 (f32 (l.foldl (fun acc j => rne32 (g acc j)) x)) = l.foldl (fun acc j => rne32 (g acc j)) x := by
  induction l generalizing x with
  | nil => exact hx
  | cons j l ih => exact ih (rne32_f32_rne32 _)

/-- The sum is an FP32 number already: the drain changes nothing of it. -/
theorem wideOrder_rounded (a b : Nat → W32) (k : Nat) : rne32 (f32 (wideOrder a b k)) = wideOrder a b k :=
  foldl_rounded _ _ (rne32_f32 fun h => absurd h (by decide))

/-! ## Operands -/

/-- An FP32 element of a row, read from memory as it stands. -/
theorem valAt_fp32 (before d : Dev) (base i : Nat) : valAt (opMem false before d) 0 base i = f32 (f32At d (base + 4 * i)) := by
  have hbyte : base + i * 32 / 8 = base + 4 * i := by omega
  have hbits : ((i * 32 % 8) + 32 + 7) / 8 = 4 ∧ i * 32 % 8 = 0 := by omega
  rw [f32, f32At, BitVec.toNat_ofNat]
  show decode .fp32 (leNat ((List.range ((i * 32 % 8 + 32 + 7) / 8)).map fun j => byteAt d (base + i * 32 / 8 + j)) /
    2 ^ (i * 32 % 8) % 2 ^ 32) = _
  rw [hbyte, hbits.1, hbits.2, Nat.pow_zero, Nat.div_one]
  rfl

theorem SameMemory.f32At {d d' : Dev} (h : SameMemory d d') (a : Nat) : f32At d' a = f32At d a := by
  simp only [Claims.f32At, bytesAt, h.byteAt]

/-! ## A product of one row and one column -/

/-- The descriptor of a product of one element: FP32 operands as they stand, none of them C_in, drained to nearest even. -/
structure OneElement (w : List W64) : Prop where
  rows : mxM w = 1
  cols : mxN w = 1
  mode : mxMode w = 0
  a : mxA w = 0
  b : mxB w = 0
  c : mxC w = 0
  transA : mxTransA w = false
  transB : mxTransB w = false
  accIn : mxAccIn w = false
  rnd : mxRnd w = false

/-- The sum of a product of one element, from the operands as memory holds them. -/
def oneSum (w : List W64) (d : Dev) : W32 :=
  wideOrder (fun k => f32At d (mxAAddr w + 4 * k)) (fun k => f32At d (mxBAddr w + k * mxLdB w)) (mxK w)

section One
variable {w : List W64} (h : OneElement w)
include h

theorem narrow_one : mxNarrow w = false := by
  rw [mxNarrow, h.a]
  exact Bool.and_false _

theorem onePart (skate : Bool) : partCount skate w = 1 ∧ partAt skate w 0 = ⟨0, 1, 0, 1⟩ := by
  have hrows : chunkRows w = 3072 := by rw [chunkRows, narrow_one h, if_neg Bool.false_ne_true]
  have hm : 0 < mxM w := by rw [h.rows]; decide
  have hn : 0 < mxN w := by rw [h.cols]; decide
  have hcount : colTiles w = 1 ∧ rowChunks w = 1 ∧ skateGroups w = 1 := by
    rw [colTiles, rowChunks, skateGroups, hrows, h.rows, h.cols]
    decide
  obtain ⟨htiles, hchunks, hgroups⟩ := hcount
  cases skate with
  | true =>
    rw [partCount_skate hm hn, htiles, hgroups, partAt, if_pos rfl, htiles, h.rows, h.cols]
    decide
  | false =>
    rw [partCount_array hm hn, htiles, hchunks, partAt, if_neg Bool.false_ne_true, chunkM1, chunkM0, chunkN1, chunkN0, hrows, hchunks,
      h.rows, h.cols]
    decide

theorem wideElem_one (before d : Dev) : (wideElem (opMem false before d) w 0 0).acc = oneSum w d := by
  refine wideElem_acc h.mode h.accIn (fun k => ?_) fun k => ?_
  · rw [aAt, h.transA, h.a, if_neg Bool.false_ne_true, valAt_fp32, Nat.zero_mul, Nat.add_zero]
  · rw [bAt, h.transB, h.b, if_neg Bool.false_ne_true, valAt_fp32, Nat.mul_zero, Nat.add_zero]

theorem drainRow_one (before d : Dev) (u : Nat → W32) : drainRow (opMem false before d) u w 0 0 1 =
    ([drainWide w RMode.rne (wideElem (opMem false before d) w 0 0)], []) := by
  rw [drainRow, narrow_one h, if_neg Bool.false_ne_true]
  simp [drainMode, h.rnd]

theorem drainWide_one (s : Wide) : (drainWide w RMode.rne s).bits = (round .fp32 RMode.rne false (f32 s.acc)).bits := by
  rw [drainWide, h.mode, h.c]
  rfl

/-- The one write: the four bytes of the sum. -/
theorem partWrites_one (before d : Dev) {r : UnitRun} (hop : r.op.words = w) :
    partWrites false before d r ⟨0, 1, 0, 1⟩ = [(mxCAddr w, leBytes 4 (oneSum w d).toNat)] := by
  have hsum : (round .fp32 RMode.rne false (f32 (oneSum w d))).bits % 2 ^ 32 = (oneSum w d).toNat := by
    rw [← BitVec.toNat_ofNat]
    exact congrArg BitVec.toNat (wideOrder_rounded ..)
  have hpack (e : Nat) : packBits 32 [e] = leBytes 4 (e % 2 ^ 32) := by simp [packBits]
  have hbits : codeBits (mxC w) = 32 := by
    rw [h.c]
    rfl
  rw [partWrites, partRows, hop]
  simp only [Nat.sub_zero, List.range_one, List.map_cons, List.map_nil, List.flatMap_cons, List.flatMap_nil, List.append_nil,
    Nat.add_zero, drainRow_one h, rowWrites, hbits, if_true, drainWide_one h, wideElem_one h, hpack, hsum, Nat.zero_mul, Nat.zero_div]

/-- A product of one element leaves its sum at C (R194). -/
theorem runMatrix_one (skate : Bool) {op : UnitOp} (hop : op.words = w) {d : Dev} (hr : d.seq.regions = []) (hs : d.mem.settled = true)
    (hover : anyOverlap (mxInputs w) (mxOutputs w) = false) (halign : mxCAddr w % 4 = 0)
    (hst : writeStatus d (mxCAddr w) 4 = ST.ok) (hbar : writeBarred d (mxCAddr w) = false) (hclean : ∀ a, poisonAt d a = false) :
    bytesAt (runMatrix skate op d).2 (mxCAddr w) 4 = leBytes 4 (oneSum w d).toNat := by
  obtain ⟨hcount, hpart⟩ := onePart h skate
  have hsame : SameMemory d (partRead skate d (UnitRun.fresh op) 0) := sameMemory_touchReads hr hs _
  have hsum : oneSum w (partRead skate d (UnitRun.fresh op) 0) = oneSum w d := by simp only [oneSum, hsame.f32At]
  have hwrites : partWritten skate false d d (UnitRun.fresh op) 0 =
      writeAll [(mxCAddr w, leBytes 4 (oneSum w d).toNat)] (partRead skate d (UnitRun.fresh op) 0) := by
    have hfresh : (UnitRun.fresh op).op.words = w := hop
    rw [partWritten, hfresh, hpart, partWrites_one h _ _ hfresh, hsum]
  have hstatus : writeStatus (partRead skate d (UnitRun.fresh op) 0) (mxCAddr w) 4 = ST.ok := by
    rw [partRead, touchReads_frame hr hs]
    exact hst
  obtain ⟨hok, hbytes⟩ := writeMem_line (a := mxCAddr w) (bs := leBytes 4 (oneSum w d).toNat) hsame (by rw [leBytes_length]; decide)
    (by rw [leBytes_length]; omega) (by rw [leBytes_length]; exact hstatus) hbar (hclean _)
  rw [writeAll, if_pos hok, writeAll] at hwrites
  have hran := runPart_ran skate false d d (UnitRun.fresh op) 0
  have hrun : runMatrix skate op d = runPart skate false d (UnitRun.fresh op, d) 0 := by
    unfold runMatrix
    rw [hop, hcount, hover]
    rfl
  rw [hrun]
  generalize runPart skate false d (UnitRun.fresh op, d) 0 = x at hran ⊢
  cases hran with
  | ended hended => exact absurd rfl hended
  | poisoned _ hpoison => simp [poisonedIn, hclean] at hpoison
  | failed _ hbad =>
    rw [hwrites] at hbad
    exact absurd rfl hbad
  | written =>
    rw [hwrites, if_neg Bool.false_ne_true]
    rw [leBytes_length] at hbytes
    exact hbytes

end One

end Sys2Proof.Machine
end

section
/-!
PROOFS. The start of a matrix operation (R142, R151, R152, R166, R194). That the start performs the operation's whole effect on memory
is the model's choice (log entry 18).
-/

namespace Sys2Proof.Machine

open Claims (Ready unitId)

/-! ## Units -/

theorem exec_matrixOpStart (c : Nat) (skate failed : Bool) (s : State) :
    exec (.matrixOpStart c skate failed) s = onDev (matrixStart c skate failed) s := rfl

theorem unitKey_parts (c : Nat) (skate : Bool) : unitKey c skate / 2 = c ∧ (unitKey c skate % 2 == 1) = skate := by
  unfold unitKey
  cases skate with
  | true => exact ⟨by rw [if_pos rfl]; omega, by rw [if_pos rfl, beq_iff_eq]; omega⟩
  | false => exact ⟨by rw [if_neg Bool.false_ne_true]; omega, by rw [if_neg Bool.false_ne_true, beq_eq_false_iff_ne]; omega⟩

theorem unitEngine_unitKey (c : Nat) (skate : Bool) : unitEngine (unitKey c skate) = unitId c skate := by
  obtain ⟨hcluster, hskate⟩ := unitKey_parts c skate
  have hodd : unitKey c skate % 2 = 1 ↔ skate = true := by rw [← beq_iff_eq, hskate]
  rw [unitEngine, hcluster, if_congr hodd rfl rfl, unitId]

theorem unitOf_setUnit (k j : Nat) (u : ExecUnit) (d : Dev) : unitOf (setUnit k u d) j = if k = j then u else unitOf d j := mget_mput

/-- An idle unit whose cluster's array waits for no check can take its next descriptor (R152, R215). -/
theorem unitIdle_of_ready {d : Dev} {c : Nat} {skate : Bool} {op : UnitOp} {rest : List UnitOp} (hc : c < 256)
    (h : Ready d (Claims.unitAt d c skate) (unitId c skate) c op rest)
    (hchecks : skate = true → ∀ r, (Claims.unitAt d c false).run = some r → r.checks = []) : unitIdle d c skate = true := by
  have hidle : (unitOf d (unitKey c skate)).run = none := h.idle
  have huse : engineUse d (unitEngine (unitKey c skate)) c = ST.ok := (unitEngine_unitKey c skate).symm ▸ h.use_
  unfold unitIdle
  dsimp only
  rw [hidle, huse]
  cases skate with
  | false => simp [hc]
  | true =>
    have harray : ∀ r, (unitOf d (unitKey c false)).run = some r → r.checks = [] := hchecks rfl
    cases hrun : (unitOf d (unitKey c false)).run with
    | none => simp [hc]
    | some r => simp [hc, harray r hrun]

/-! ## The whole operation -/

section Run
variable (skate : Bool) (op : UnitOp) {d : Dev}

theorem runMatrix_frame (h : Admits d) : (runMatrix skate op d).1.op = op ∧ MemoryAndFree d (runMatrix skate op d).2 :=
  foldl_runPart_frame _ h

theorem runMatrix_within (hr : d.seq.regions = []) (hs : d.mem.settled = true) :
    WritesWithin (InOutputs op.words) d (runMatrix skate op d).2 :=
  foldl_runPart_within (r := UnitRun.fresh op) _ hr hs

variable {op}

/-- Where M or N is zero an operation has no part (R151). -/
theorem runMatrix_empty (h : mxM op.words = 0 ∨ mxN op.words = 0) : runMatrix skate op d = (UnitRun.fresh op, d) := by
  have hcount : partCount skate op.words = 0 := by
    cases skate with
    | true => rw [partCount, if_pos rfl, if_pos h]
    | false => rw [partCount, if_neg Bool.false_ne_true, chunkCount, if_pos h]
  rw [runMatrix, hcount]
  rfl

end Run

/-! ## The command -/

/-- The device after a start: the operation has run, and its unit holds it. -/
def started (c : Nat) (skate : Bool) (op : UnitOp) (rest : List UnitOp) (d : Dev) : Dev :=
  setUnit (unitKey c skate) { queue := rest, run := some (runMatrix skate op d).1 } (runMatrix skate op d).2

theorem matrixStart_ready {d : Dev} {c : Nat} {skate : Bool} {op : UnitOp} {rest : List UnitOp}
    (h : Ready d (Claims.unitAt d c skate) (unitId c skate) c op rest) (hidle : unitIdle d c skate = true) :
    matrixStart c skate false d = started c skate op rest d := by
  have hqueue : (unitOf d (unitKey c skate)).queue = op :: rest := h.queue
  unfold matrixStart
  simp only [hqueue, hidle, Bool.not_true, Bool.false_eq_true, false_and, if_false]
  rfl

theorem byteAt_started (c : Nat) (skate : Bool) (op : UnitOp) (rest : List UnitOp) (d : Dev) (b : Nat) :
    byteAt (started c skate op rest d) b = byteAt (runMatrix skate op d).2 b := rfl

theorem unitOf_started {d : Dev} (h : Admits d) (c : Nat) (skate : Bool) (op : UnitOp) (rest : List UnitOp) (k : Nat) :
    unitOf (started c skate op rest d) k =
      if unitKey c skate = k then { queue := rest, run := some (runMatrix skate op d).1 } else unitOf d k := by
  have hframe := (runMatrix_frame skate op h).2
  rw [MemoryAndFree] at hframe
  rw [started, unitOf_setUnit, hframe]
  rfl

theorem matrixStartPart : Claims.MatrixStartPart := by
  intro c skate s op rest hc hmem hlt hready hchecks
  have hadmits : Admits s.m := hmem.admits
  obtain ⟨hop, hframe⟩ := runMatrix_frame skate op hadmits
  have heffect := matrixStart_ready hready (unitIdle_of_ready hlt hready hchecks)
  refine completes_unheld hc (exec_matrixOpStart c skate false s) ?_ ?_ <;> rw [heffect]
  · rw [MemoryAndFree] at hframe
    rw [started, setUnit_seq, hframe]
  · refine ⟨⟨(runMatrix skate op s.m).1, hop, (unitOf_started hadmits ..).trans (if_pos rfl), fun hzero => ?_⟩,
      fun k hk => (unitOf_started hadmits ..).trans (if_neg hk.symm), fun hr a ha hc hscale => ?_,
      fun hm hn hmode ha hb hcfmt hta htb hacc hrnd hr hover halign hst hbar hclean => ?_⟩
    · rw [started, setUnit_mem, runMatrix_empty skate hzero]
      exact ⟨rfl, rfl⟩
    · exact (runMatrix_within skate op hr hmem.settled).bytes a ha (not_or.2 ⟨hc, hscale⟩)
    · exact runMatrix_one ⟨hm, hn, hmode, ha, hb, hcfmt, hta, htb, hacc, hrnd⟩ skate rfl hr hmem.settled hover halign hst hbar hclean

end Sys2Proof.Machine
end

section
/-!
SUPPORT. What the end of an operation of a unit publishes: its record, the completion counter with the lanes that it releases, the summary
of its grid, counts and events (R100, R153, R154, R205, R245).
-/

namespace Sys2Proof.Machine

open Claims (CcRaised Counted Summarised RecordAt counterReached)

/-! ## The completion counter (R100) -/

theorem findBlock_congr {d d' : Dev} (h : d'.blocks = d.blocks) (g no : Nat) : findBlock d' g no = findBlock d g no := by
  rw [findBlock, h, findBlock]

theorem laneOf_congr {d d' : Dev} (h : d'.blocks = d.blocks) (w : Where) (i : Nat) : laneOf d' w i = laneOf d w i := by
  unfold laneOf findGroup
  rw [findBlock_congr h]

theorem CcRaised.congr {g no n : Nat} {d d' e e' : Dev} (h : CcRaised g no n d d') (he : e.blocks = d.blocks)
    (he' : e'.blocks = d'.blocks) : CcRaised g no n e e' := by
  simp only [CcRaised, findBlock_congr he, findBlock_congr he', laneOf_congr he, laneOf_congr he']
  exact h

theorem sext_eq_toInt (n v : Nat) : sext (n + 1) v = (BitVec.ofNat (n + 1) v).toInt := by
  have hhalf : 2 ^ (n + 1) = 2 * 2 ^ n := Nat.pow_succ'
  have hsign : 2 * (v % 2 ^ (n + 1)) < 2 ^ (n + 1) ↔ v % 2 ^ (n + 1) < 2 ^ n := by omega
  rw [sext, BitVec.toInt_eq_toNat_cond, BitVec.toNat_ofNat, Nat.add_sub_cancel, if_congr hsign rfl rfl]

theorem reached_eq (c : Nat) (v : W32) : reached c v = counterReached c v := by
  have hv := v.isLt
  have hsub : BitVec.ofNat 32 (c + 2 ^ 32 - v.toNat) = BitVec.ofNat 32 c - v := by
    apply BitVec.eq_of_toNat_eq
    rw [BitVec.toNat_sub, BitVec.toNat_ofNat, BitVec.toNat_ofNat]
    omega
  rw [reached, counterReached, sext_eq_toInt 31, hsub]

theorem completeCounter_frame (g no n : Nat) (d : Dev) : completeCounter g no n d =
    { d with blocks := (completeCounter g no n d).blocks, mem := { d.mem with prefetch := (completeCounter g no n d).mem.prefetch } } := by
  unfold completeCounter
  split
  · rfl
  · dsimp only
    split <;> rfl

/-- The block with its counter raised, and the lanes released that waited for what it has reached. -/
def ccRaisedBlock (n v : Nat) (b : Block) : Block :=
  { b with cc := lset b.cc n (BitVec.ofNat 32 v), groups := b.groups.map (fun g => { g with lanes := g.lanes.map (wakeCcLane n v) }) }

theorem completeCounter_blocks {g no : Nat} {d : Dev} {b : Block} (h : findBlock d g no = some b) (n : Nat) :
    (completeCounter g no n d).blocks = (modBlock g no (ccRaisedBlock n ((ccAt b n + 1) % 2 ^ 32)) d).blocks := by
  unfold completeCounter
  rw [h]
  dsimp only
  split <;> rfl

theorem wakeCcLane_eq (n v : Nat) (l : Lane) : (wakeCcLane n v l).pc = l.pc ∧ (wakeCcLane n v l).regs = l.regs ∧
    (wakeCcLane n v l).st = match l.st with
      | .waitCc k x t => if k = n ∧ counterReached v x = true then .run else .waitCc k x t
      | o => o := by
  unfold wakeCcLane
  cases hst : l.st with
  | waitCc k x t =>
    dsimp only
    rw [reached_eq]
    split
    · exact ⟨rfl, rfl, rfl⟩
    · exact ⟨rfl, rfl, hst⟩
  | _ => exact ⟨rfl, rfl, hst⟩

theorem ccRaised_completeCounter (g no n : Nat) (d : Dev) : CcRaised g no n d (completeCounter g no n d) := by
  intro b hb hn
  have hv : (BitVec.ofNat 32 ((ccAt b n + 1) % 2 ^ 32)).toNat = (ccAt b n + 1) % 2 ^ 32 := Nat.mod_eq_of_lt (Nat.mod_lt _ (by decide))
  have hblocks := completeCounter_blocks hb n
  generalize hcount : (ccAt b n + 1) % 2 ^ 32 = v at hv hblocks
  have hfind : findBlock (completeCounter g no n d) g no = some (ccRaisedBlock n v b) := by
    rw [findBlock_congr hblocks, findBlock_modBlock g no (ccRaisedBlock n v) (fun _ => ⟨rfl, rfl⟩), hb, Option.map_some,
      if_pos (findBlock_key hb)]
  have hcc : (ccRaisedBlock n v b).cc.getD n 0 = BitVec.ofNat 32 v := by
    rw [List.getD_eq_getElem?_getD, ccRaisedBlock, lset_get, if_pos ⟨rfl, hn⟩]
    rfl
  refine ⟨_, hfind, hcc.trans ?_, fun k hk => ?_, fun gi i l hl => ⟨wakeCcLane n v l, ?_, ?_⟩⟩
  · rw [← hcount]
    exact BitVec.eq_of_toNat_eq (by rw [BitVec.toNat_ofNat, BitVec.toNat_ofNat, Nat.mod_mod]; rfl)
  · rw [ccRaisedBlock, lset_get, if_neg fun h => hk h.1.symm]
  · rw [laneOf, findGroup, hb] at hl
    rw [laneOf, findGroup, hfind]
    dsimp only at hl ⊢
    rw [ccRaisedBlock, List.getElem?_map]
    cases hgroup : b.groups[gi]? with
    | none =>
      rw [hgroup] at hl
      exact absurd hl nofun
    | some x =>
      rw [hgroup] at hl
      simp only [Option.bind_some, Option.map_some, List.getElem?_map] at hl ⊢
      rw [hl]
      rfl
  · rw [hcc, hv]
    exact wakeCcLane_eq n v l

/-! ## The summary of a grid (R205) -/

theorem modGrid_frame (g : Nat) (f : Grid → Grid) (d : Dev) : modGrid g f d = { d with grids := (modGrid g f d).grids } := by
  unfold modGrid
  split <;> rfl

theorem mfind_modGrid (g : Nat) (f : Grid → Grid) (d : Dev) : mfind (modGrid g f d).grids g = (mfind d.grids g).map f := by
  unfold modGrid
  cases h : mfind d.grids g with
  | none => exact h
  | some x =>
    dsimp only
    rw [mfind_mset, if_pos rfl]
    rfl

/-! ## Counts and events -/

/-- A count raised with an event, where b holds. -/
def notedIf (b : Bool) (port id inst key : Nat) (d : Dev) : Dev := if b then raise port id inst 0 [] (inc key d) else d

section NotedIf
variable (b : Bool) (port id inst key : Nat) (d : Dev)

theorem notedIf_frame : notedIf b port id inst key d =
    { d with od := (notedIf b port id inst key d).od, ev := (notedIf b port id inst key d).ev } := by
  cases b <;> rfl

theorem notedIf_grids : (notedIf b port id inst key d).grids = d.grids := by rw [notedIf_frame]

theorem rd_notedIf (k : Nat) : rd (notedIf b port id inst key d) k = if b = true ∧ key = k then (rd d key + 1) % 2 ^ 64 else rd d k := by
  cases b with
  | false => rfl
  | true =>
    rw [notedIf, if_pos rfl, rd_raise, rd_inc]
    simp

theorem raised_notedIf : (notedIf b port id inst key d).ev.raised =
    d.ev.raised ++ if b then [(port, ({ id := id, inst := inst, detail0 := 0, details := [] } : Event))] else [] := by
  cases b with
  | false => exact (List.append_nil _).symm
  | true => rfl

end NotedIf

/-- Where the end of an operation of a unit is counted, and what it raises. -/
structure EndNotes where
  port : Nat
  inst : Nat
  ops : Nat
  overflows : Nat
  failures : Nat
  overflowEvent : Nat
  failureEvent : Nat

/-- The counters are three, and none of them counts failed writes of records. -/
structure EndNotes.Distinct (n : EndNotes) : Prop where
  opsOverflows : n.ops ≠ n.overflows
  opsFailures : n.ops ≠ n.failures
  overflowsFailures : n.overflows ≠ n.failures
  opsRecords : n.ops ≠ OD.recordWriteFailures
  overflowsRecords : n.overflows ≠ OD.recordWriteFailures
  failuresRecords : n.failures ≠ OD.recordWriteFailures

theorem EndNotes.distinct_of_nodup {n : EndNotes} (h : [n.ops, n.overflows, n.failures, OD.recordWriteFailures].Nodup) : n.Distinct := by
  simp only [List.nodup_cons, List.mem_cons, List.not_mem_nil, or_false, not_or] at h
  obtain ⟨⟨hopsOvf, hopsFail, hopsRec⟩, ⟨hovfFail, hovfRec⟩, hfailRec, -⟩ := h
  exact ⟨hopsOvf, hopsFail, hovfFail, hopsRec, hovfRec, hfailRec⟩

/-- The operation counted, its flags joined to the summary, and an overflow noted (R153, R205). -/
def overflowNoted (n : EndNotes) (r : UnitRun) (d : Dev) : Dev :=
  notedIf r.ovf n.port n.overflowEvent n.inst n.overflows (summarise r (inc n.ops d))

/-- The end noted: a failure besides (R154, R164). -/
def endNoted (n : EndNotes) (r : UnitRun) (d : Dev) : Dev :=
  notedIf (r.status != ST.ok) n.port n.failureEvent n.inst n.failures (overflowNoted n r d)

section EndNoted
variable (n : EndNotes) (r : UnitRun) (d : Dev)

theorem summarise_frame : summarise r d = { d with grids := (summarise r d).grids } := modGrid_frame ..

theorem rd_summarise (k : Nat) : rd (summarise r d) k = rd d k := by
  rw [summarise_frame]
  rfl

theorem endNoted_frame : endNoted n r d =
    { d with od := (endNoted n r d).od, ev := (endNoted n r d).ev, grids := (endNoted n r d).grids } := by
  have hsummary := summarise_frame r (inc n.ops d)
  unfold endNoted overflowNoted
  rw [notedIf_frame, notedIf_frame r.ovf, hsummary]
  rfl

theorem summarised_endNoted : Summarised r d (endNoted n r d) := by
  have hgrids : (endNoted n r d).grids = (summarise r (inc n.ops d)).grids :=
    (notedIf_grids ..).trans (notedIf_grids ..)
  rw [Summarised, hgrids]
  exact mfind_modGrid ..

theorem raised_endNoted : (endNoted n r d).ev.raised =
    d.ev.raised ++ Claims.endEvents r n.port n.inst n.overflowEvent n.failureEvent := by
  have hsummary : (summarise r (inc n.ops d)).ev = d.ev := by
    rw [summarise_frame]
    rfl
  rw [endNoted, raised_notedIf, overflowNoted, raised_notedIf, hsummary, List.append_assoc, Claims.endEvents]
  by_cases hst : r.status = ST.ok
  · simp [hst]
  · simp [hst]

theorem rd_overflowNoted (k : Nat) : rd (overflowNoted n r d) k =
    if r.ovf = true ∧ n.overflows = k then (rd (inc n.ops d) n.overflows + 1) % 2 ^ 64 else rd (inc n.ops d) k := by
  rw [overflowNoted, rd_notedIf, rd_summarise, rd_summarise]

theorem rd_endNoted (k : Nat) : rd (endNoted n r d) k = if (r.status != ST.ok) = true ∧ n.failures = k then
    (rd (overflowNoted n r d) n.failures + 1) % 2 ^ 64 else rd (overflowNoted n r d) k := rd_notedIf ..

theorem rd_endNoted_other {k : Nat} (hops : n.ops ≠ k) (hovf : n.overflows ≠ k) (hfail : n.failures ≠ k) :
    rd (endNoted n r d) k = rd d k := by
  rw [rd_endNoted, if_neg fun h => hfail h.2, rd_overflowNoted, if_neg fun h => hovf h.2, rd_inc, if_neg hops]

variable (hn : n.Distinct)
include hn

theorem counted_ops : Counted n.ops true d (endNoted n r d) := by
  rw [Counted, rd_endNoted, if_neg fun h => hn.opsFailures h.2.symm, rd_overflowNoted, if_neg fun h => hn.opsOverflows h.2.symm, rd_inc,
    if_pos rfl, if_pos rfl]

theorem counted_overflows : Counted n.overflows r.ovf d (endNoted n r d) := by
  rw [Counted, rd_endNoted, if_neg fun h => hn.overflowsFailures h.2.symm, rd_overflowNoted, rd_inc, if_neg hn.opsOverflows,
    if_congr (and_iff_left rfl) rfl rfl]

theorem counted_failures : Counted n.failures (r.status != ST.ok) d (endNoted n r d) := by
  have hbefore : rd (overflowNoted n r d) n.failures = rd d n.failures := by
    rw [rd_overflowNoted, if_neg fun h => hn.overflowsFailures h.2, rd_inc, if_neg hn.opsFailures]
  rw [Counted, rd_endNoted, hbefore, if_congr (and_iff_left rfl) rfl rfl]

end EndNoted

end Sys2Proof.Machine
end

section
/-!
PROOFS. The end of a matrix operation (R153, R154, R164, R205). That EV_2430 carries DETAIL0 zero is the model's choice (log entry 65).
-/

namespace Sys2Proof.Machine

open Claims (CcRaised Counted Summarised RecordAt unitId)

/-! ## The commands -/

theorem exec_matrixOpComplete (c : Nat) (skate : Bool) (s : State) :
    exec (.matrixOpComplete c skate) s = onDev (matrixEnd true c skate) s := rfl

theorem exec_matrixReadPoison (c : Nat) (skate : Bool) (s : State) :
    exec (.matrixReadPoison c skate) s = onDev (matrixEnd false c skate) s := rfl

/-- The command that ends an operation of a status: MATRIX_OP_COMPLETE or MATRIX_READ_POISON (R153, R164). -/
theorem exec_matrixEnd (c : Nat) (skate : Bool) (st : Status) (s : State) :
    exec (if st = ST.ok then .matrixOpComplete c skate else .matrixReadPoison c skate) s = onDev (matrixEnd (st == ST.ok) c skate) s := by
  by_cases hst : st = ST.ok
  · rw [if_pos hst, hst]
    rfl
  · rw [if_neg hst, beq_eq_false_iff_ne.2 hst]
    rfl

/-! ## The steps of an end (R153) -/

/-- The record written, if the descriptor asks for one. -/
def matrixRecorded (c : Nat) (skate : Bool) (r : UnitRun) (d : Dev) : Dev :=
  if mxRecord r.op.words ≠ 0 then putRecord (mxRecord r.op.words) (mxRecordBytes skate r) r.status (8 * c) d else d

/-- Where the end of a matrix operation is counted, and its events EV_2431 and EV_2430. -/
def matrixNotes (c : Nat) (skate : Bool) : EndNotes where
  port := c / 64
  inst := c
  ops := if skate then OD.skateOps else OD.arrayOps
  overflows := OD.overflowOps
  failures := OD.failedOps
  overflowEvent := 0x2431
  failureEvent := 0x2430

theorem matrixNotes_distinct (c : Nat) (skate : Bool) : (matrixNotes c skate).Distinct := by
  cases skate with
  | true => exact EndNotes.distinct_of_nodup (show [OD.skateOps, OD.overflowOps, OD.failedOps, OD.recordWriteFailures].Nodup by decide)
  | false => exact EndNotes.distinct_of_nodup (show [OD.arrayOps, OD.overflowOps, OD.failedOps, OD.recordWriteFailures].Nodup by decide)

/-- The completion counter of an operation raised. -/
def ccCompleted (r : UnitRun) (d : Dev) : Dev := completeCounter r.op.by_.grid r.op.by_.block r.op.by_.cc d

/-- The device after the end of a matrix operation. -/
def matrixEnded (c : Nat) (skate : Bool) (r : UnitRun) (d : Dev) : Dev :=
  endNoted (matrixNotes c skate) r (ccCompleted r (matrixRecorded c skate r d))

theorem closeMatrix_eq (c : Nat) (skate : Bool) (r : UnitRun) (d : Dev) :
    closeMatrix (unitKey c skate) r d = matrixEnded c skate r d := by
  obtain ⟨hcluster, hskate⟩ := unitKey_parts c skate
  unfold closeMatrix matrixEnded endNoted overflowNoted
  rw [hcluster, hskate]
  by_cases hst : r.status = ST.ok
  · have hfine : (r.status != ST.ok) = false := by simp [hst]
    rw [if_pos hst, hfine]
    rfl
  · have hfailed : (r.status != ST.ok) = true := by simpa using hst
    rw [if_neg hst, hfailed]
    rfl

/-- The unit whose operation has ended: its queue stays. -/
def unitFreed (c : Nat) (skate : Bool) (d : Dev) : Dev :=
  setUnit (unitKey c skate) { unitOf d (unitKey c skate) with run := none } d

section End
variable {d : Dev} {c : Nat} {skate : Bool} {r : UnitRun} (hrun : (Claims.unitAt d c skate).run = some r)
include hrun

theorem matrixEnd_ends (hchecks : r.checks = []) (hreset : engineInReset d (unitId c skate) = false)
    (hfence : clusterFenced d c = false) : matrixEnd (r.status == ST.ok) c skate d = matrixEnded c skate r (unitFreed c skate d) := by
  have hrun' : (unitOf d (unitKey c skate)).run = some r := hrun
  unfold matrixEnd
  dsimp only
  rw [hrun', unitEngine_unitKey]
  dsimp only
  rw [if_pos ⟨rfl, hchecks, hreset, hfence⟩, closeMatrix_eq]
  rfl

/-- An operation that has checks to come does not end (R215). -/
theorem matrixEnd_waits (hchecks : r.checks ≠ []) (ok : Bool) : matrixEnd ok c skate d = d := by
  have hrun' : (unitOf d (unitKey c skate)).run = some r := hrun
  unfold matrixEnd
  dsimp only
  rw [hrun']
  exact if_neg fun h => hchecks h.2.1

end End

/-! ## What each step leaves -/

section Ended
variable {d : Dev} (h : Admits d) (c : Nat) (skate : Bool) (r : UnitRun)

theorem byteAt_ccCompleted (b : Nat) : byteAt (ccCompleted r d) b = byteAt d b := by
  have hframe := completeCounter_frame r.op.by_.grid r.op.by_.block r.op.by_.cc d
  rw [ccCompleted]
  exact byteAt_congr (by rw [hframe]) (by rw [hframe]) (by rw [hframe]) (by rw [hframe]) b

theorem byteAt_endNoted (n : EndNotes) (b : Nat) : byteAt (endNoted n r d) b = byteAt d b := by
  have hframe := endNoted_frame n r d
  exact byteAt_congr (by rw [hframe]) (by rw [hframe]) (by rw [hframe]) (by rw [hframe]) b

theorem byteAt_matrixEnded (b : Nat) : byteAt (matrixEnded c skate r d) b = byteAt (matrixRecorded c skate r d) b :=
  (byteAt_endNoted ..).trans (byteAt_ccCompleted ..)

theorem rd_ccCompleted (k : Nat) : rd (ccCompleted r d) k = rd d k := by
  rw [ccCompleted, completeCounter_frame]
  rfl

include h

theorem matrixRecorded_frame : matrixRecorded c skate r d = { d with
    mem := (matrixRecorded c skate r d).mem, seq := { d.seq with written := (matrixRecorded c skate r d).seq.written }
    od := (matrixRecorded c skate r d).od, ev := (matrixRecorded c skate r d).ev } := by
  unfold matrixRecorded
  split
  · exact putRecord_frame _ _ _ _ h
  · rfl

theorem rd_matrixRecorded {k : Nat} (hk : k ≠ OD.recordWriteFailures) : rd (matrixRecorded c skate r d) k = rd d k := by
  unfold matrixRecorded
  split
  · exact rd_putRecord _ _ _ _ h hk
  · rfl

theorem matrixEnded_frame : matrixEnded c skate r d = { d with
    mem := (matrixEnded c skate r d).mem, seq := { d.seq with written := (matrixEnded c skate r d).seq.written }
    od := (matrixEnded c skate r d).od, ev := (matrixEnded c skate r d).ev
    grids := (matrixEnded c skate r d).grids, blocks := (matrixEnded c skate r d).blocks } := by
  have hrecord := matrixRecorded_frame h c skate r
  unfold matrixEnded ccCompleted
  rw [endNoted_frame, completeCounter_frame, hrecord]

omit h in
theorem unitOf_matrixEnded (h : Admits (unitFreed c skate d)) (k : Nat) : unitOf (matrixEnded c skate r (unitFreed c skate d)) k =
    if unitKey c skate = k then { unitOf d (unitKey c skate) with run := none } else unitOf d k := by
  have hframe := matrixEnded_frame h c skate r
  rw [← unitOf_setUnit, unitOf, hframe]
  rfl

theorem ccRaised_matrixEnded : CcRaised r.op.by_.grid r.op.by_.block r.op.by_.cc d (matrixEnded c skate r d) := by
  refine CcRaised.congr (ccRaised_completeCounter _ _ _ (matrixRecorded c skate r d)) ?_ ?_
  · rw [matrixRecorded_frame h]
  · rw [matrixEnded, endNoted_frame]
    rfl

theorem summarised_matrixEnded : Summarised r d (matrixEnded c skate r d) := by
  have hgrids : (ccCompleted r (matrixRecorded c skate r d)).grids = d.grids := by
    rw [ccCompleted, completeCounter_frame, matrixRecorded_frame h]
  have hsummary := summarised_endNoted (matrixNotes c skate) r (ccCompleted r (matrixRecorded c skate r d))
  rw [Summarised, hgrids] at hsummary
  exact hsummary

/-- Before the end is noted every counter but that of failed records is as it was. -/
theorem rd_beforeNoted {k : Nat} (hk : k ≠ OD.recordWriteFailures) : rd (ccCompleted r (matrixRecorded c skate r d)) k = rd d k :=
  (rd_ccCompleted ..).trans (rd_matrixRecorded h c skate r hk)

theorem counted_matrixEnded {k : Nat} {b : Bool} (hk : k ≠ OD.recordWriteFailures)
    (hcount : Counted k b (ccCompleted r (matrixRecorded c skate r d)) (matrixEnded c skate r d)) :
    Counted k b d (matrixEnded c skate r d) := by
  rw [Counted, rd_beforeNoted h c skate r hk] at hcount
  exact hcount

theorem rd_matrixEnded_other {k : Nat} (hops : (matrixNotes c skate).ops ≠ k) (hovf : OD.overflowOps ≠ k) (hfail : OD.failedOps ≠ k)
    (hrecords : k ≠ OD.recordWriteFailures) : rd (matrixEnded c skate r d) k = rd d k :=
  (rd_endNoted_other _ r _ hops hovf hfail).trans (rd_beforeNoted h c skate r hrecords)

/-- The operation is counted among those of its path alone (OD 0x2432). -/
theorem countedOps_matrixEnded : Counted OD.skateOps skate d (matrixEnded c skate r d) ∧
    Counted OD.arrayOps (!skate) d (matrixEnded c skate r d) := by
  have hdistinct := matrixNotes_distinct c skate
  have hown := counted_matrixEnded h c skate r hdistinct.opsRecords (counted_ops _ r _ hdistinct)
  have hpaths : OD.skateOps ≠ OD.arrayOps := by decide
  cases skate with
  | true => exact ⟨hown, rd_matrixEnded_other h c true r hpaths (by decide) (by decide) (by decide)⟩
  | false => exact ⟨rd_matrixEnded_other h c false r hpaths.symm (by decide) (by decide) (by decide), hown⟩

omit h in
theorem raised_matrixEnded (hrecord : mxRecord r.op.words = 0) :
    (matrixEnded c skate r d).ev.raised = d.ev.raised ++ Claims.endEvents r (c / 64) c 0x2431 0x2430 := by
  have hev : (ccCompleted r (matrixRecorded c skate r d)).ev = d.ev := by
    rw [ccCompleted, completeCounter_frame, matrixRecorded, if_neg (not_not_intro hrecord)]
  rw [matrixEnded, raised_endNoted, hev]
  rfl

end Ended

/-- The record of an ended operation (R154). -/
theorem recordAt_matrixEnded (c : Nat) (skate : Bool) (r : UnitRun) {d : Dev} (hs : d.mem.settled = true) :
    RecordAt (mxRecord r.op.words) (Claims.matrixRecord skate r) d (matrixEnded c skate r (unitFreed c skate d)) := by
  intro hr
  have hsame : SameMemory d (unitFreed c skate d) := ⟨hr, hr, writtenOver_refl hs, rfl⟩
  simp only [bytesAt, byteAt_matrixEnded]
  by_cases hrecord : mxRecord r.op.words = 0
  · refine ⟨fun hne => absurd hrecord hne, fun b hb _ => ?_⟩
    rw [matrixRecorded, if_neg (not_not_intro hrecord)]
    exact hsame.byteAt b
  · obtain ⟨htaken, hother⟩ := recordAt_putRecord (bs := mxRecordBytes skate r) (st := r.status) (inst := 8 * c)
      (a := mxRecord r.op.words) (by rw [mxRecordBytes, List.length_append, leBytes_length, leBytes_length]) hsame rfl
    rw [matrixRecorded, if_pos hrecord]
    exact ⟨fun _ => htaken, fun b hb hout => hother b hb (by omega)⟩

end Sys2Proof.Machine
end

section
/-!
PROOFS. The tile checker serves the checks of a running operation (R212-R215), and the statement on matrix operations.
-/

namespace Sys2Proof.Machine

/-! ## A slice that mismatches (R214) -/

/-- The largest ratio of a slice kept; one that has no value is a free one (log entry 2). -/
def ratioNoted (ratio : Option W32) (d : Dev) : Dev :=
  match ratio with
  | some x => wr OD.lastMismatchRatio x.toNat d
  | none => drew (wr OD.lastMismatchRatio ((freeBits d).toNat % 2 ^ 32) d)

/-- A mismatch counted, with its cluster, and its grid marked. -/
def mismatchCounted (cluster grid : Nat) (ratio : Option W32) (d : Dev) : Dev :=
  modGrid grid (fun g => { g with mismatch := true }) (wr OD.lastMismatchCluster cluster (inc OD.sliceMismatches (ratioNoted ratio d)))

/-- EV_2620, once for a layer in each step. -/
def mismatchRaised (cluster : Nat) (layer : Option Nat) (d : Dev) : Dev :=
  match layer with
  | none => raise (cdPort (cluster / 64)) 0x2620 cluster 0 [] d
  | some l =>
    if (bumpEntry l 5 true d).seq.mismatched.contains l then bumpEntry l 5 true d
    else raise (cdPort (cluster / 64)) 0x2620 cluster 0 []
      { bumpEntry l 5 true d with seq := { (bumpEntry l 5 true d).seq with mismatched := l :: (bumpEntry l 5 true d).seq.mismatched } }

theorem noteMismatch_eq (cluster : Nat) (layer : Option Nat) (grid : Nat) (ratio : Option W32) (d : Dev) :
    noteMismatch cluster layer grid ratio d = mismatchRaised cluster layer (mismatchCounted cluster grid ratio d) := by
  unfold noteMismatch mismatchRaised mismatchCounted ratioNoted
  cases ratio with
  | none => cases layer <;> rfl
  | some x => cases layer <;> rfl

section Counted
variable (cluster grid : Nat) (ratio : Option W32) (d : Dev)

theorem ratioNoted_frame : ratioNoted ratio d = { d with od := (ratioNoted ratio d).od, free := (ratioNoted ratio d).free } := by
  cases ratio <;> rfl

theorem rd_ratioNoted {k : Nat} (hk : OD.lastMismatchRatio ≠ k) : rd (ratioNoted ratio d) k = rd d k := by
  cases ratio with
  | none => exact rd_wr_other _ d hk
  | some x => exact rd_wr_other _ d hk

theorem mismatchCounted_frame : mismatchCounted cluster grid ratio d = { d with
    od := (mismatchCounted cluster grid ratio d).od, free := (mismatchCounted cluster grid ratio d).free
    grids := (mismatchCounted cluster grid ratio d).grids } := by
  have hratio := ratioNoted_frame ratio d
  unfold mismatchCounted
  rw [modGrid_frame, hratio]
  rfl

theorem rd_mismatchCounted (k : Nat) (hk : OD.lastMismatchRatio ≠ k) : rd (mismatchCounted cluster grid ratio d) k =
    if OD.lastMismatchCluster = k then cluster
    else if OD.sliceMismatches = k then (rd d OD.sliceMismatches + 1) % 2 ^ 64 else rd d k := by
  have hgrid : rd (mismatchCounted cluster grid ratio d) k =
      rd (wr OD.lastMismatchCluster cluster (inc OD.sliceMismatches (ratioNoted ratio d))) k := by
    rw [mismatchCounted, modGrid_frame]
    rfl
  rw [hgrid, rd_wr, rd_inc, rd_ratioNoted ratio d hk, rd_ratioNoted ratio d (by decide)]

theorem mfind_mismatchCounted : mfind (mismatchCounted cluster grid ratio d).grids grid =
    (mfind d.grids grid).map (fun g => { g with mismatch := true }) := by
  have hgrids : (wr OD.lastMismatchCluster cluster (inc OD.sliceMismatches (ratioNoted ratio d))).grids = d.grids := by
    rw [wr_grids, inc_grids, ratioNoted_frame]
  rw [mismatchCounted, mfind_modGrid, hgrids]

end Counted

/-- Nothing but memory, what the open step has written and mismatched, and the events differ. -/
def LayerOnly (d d' : Dev) : Prop :=
  d' = { d with mem := d'.mem, seq := { d.seq with written := d'.seq.written, mismatched := d'.seq.mismatched }, ev := d'.ev }

theorem memoryOnly_bumpEntry {d : Dev} (h : Admits d) (a i : Nat) (high : Bool) : MemoryOnly d (bumpEntry a i high d) :=
  memoryOnly_writeMem h _ _

theorem layerOnly_mismatchRaised {d : Dev} (h : Admits d) (cluster : Nat) (layer : Option Nat) :
    LayerOnly d (mismatchRaised cluster layer d) := by
  cases layer with
  | none => rfl
  | some l =>
    have hbump := memoryOnly_bumpEntry h l 5 true
    unfold mismatchRaised
    dsimp only
    generalize bumpEntry l 5 true d = e at hbump ⊢
    rw [MemoryOnly] at hbump
    rw [hbump]
    split <;> rfl

/-! ## A slice served (R213) -/

/-- A compared slice counted in its layer's entry. -/
def layerChecked (layer : Option Nat) (d : Dev) : Dev :=
  match layer with
  | some l => bumpEntry l 5 false d
  | none => d

/-- A slice counted by its verdict: not compared, or compared and perhaps mismatched. -/
def sliceNoted (cluster : Nat) (layer : Option Nat) (grid : Nat) (verdict : Option (Bool × Option W32)) (d : Dev) : Dev :=
  match verdict with
  | none => inc OD.slicesUnchecked d
  | some (bad, ratio) =>
    if bad then noteMismatch cluster layer grid ratio (layerChecked layer (inc OD.slicesChecked d))
    else layerChecked layer (inc OD.slicesChecked d)

/-- How a served slice is counted. -/
def SliceCounted (cluster grid : Nat) (d d' : Dev) : Prop :=
  rd d' OD.slicesUnchecked = (rd d OD.slicesUnchecked + 1) % 2 ^ 64 ∧ rd d' OD.slicesChecked = rd d OD.slicesChecked ∧
    rd d' OD.sliceMismatches = rd d OD.sliceMismatches ∧ d'.mem = d.mem ∨
  rd d' OD.slicesChecked = (rd d OD.slicesChecked + 1) % 2 ^ 64 ∧ rd d' OD.slicesUnchecked = rd d OD.slicesUnchecked ∧
    (rd d' OD.sliceMismatches = rd d OD.sliceMismatches ∧ d'.grids = d.grids ∨
     rd d' OD.sliceMismatches = (rd d OD.sliceMismatches + 1) % 2 ^ 64 ∧ rd d' OD.lastMismatchCluster = cluster ∧
       mfind d'.grids grid = (mfind d.grids grid).map (fun g => { g with mismatch := true }))

theorem memoryOnly_layerChecked {d : Dev} (h : Admits d) (layer : Option Nat) : MemoryOnly d (layerChecked layer d) := by
  cases layer with
  | none => rfl
  | some l => exact memoryOnly_bumpEntry h l 5 false

section Slice
variable {d : Dev} (h : Admits d) (cluster : Nat) (layer : Option Nat) (grid : Nat)
include h

theorem layerChecked_frame : MemoryOnly (inc OD.slicesChecked d) (layerChecked layer (inc OD.slicesChecked d)) :=
  memoryOnly_layerChecked (show Admits (inc OD.slicesChecked d) from h) layer

theorem rd_layerChecked (k : Nat) : rd (layerChecked layer (inc OD.slicesChecked d)) k = rd (inc OD.slicesChecked d) k := by
  have hlayer := layerChecked_frame h layer
  rw [MemoryOnly] at hlayer
  rw [hlayer]
  rfl

theorem noteMismatch_layerOnly (ratio : Option W32) : LayerOnly
    (mismatchCounted cluster grid ratio (layerChecked layer (inc OD.slicesChecked d)))
    (noteMismatch cluster layer grid ratio (layerChecked layer (inc OD.slicesChecked d))) := by
  have hadmits : Admits (layerChecked layer (inc OD.slicesChecked d)) :=
    Admits.memoryOnly (show Admits (inc OD.slicesChecked d) from h) (layerChecked_frame h layer)
  have hcounted : Admits (mismatchCounted cluster grid ratio (layerChecked layer (inc OD.slicesChecked d))) := by
    rw [mismatchCounted_frame]
    exact hadmits
  rw [noteMismatch_eq]
  exact layerOnly_mismatchRaised hcounted cluster layer

theorem sliceNoted_rest (verdict : Option (Bool × Option W32)) :
    (sliceNoted cluster layer grid verdict d).units = d.units ∧
    (sliceNoted cluster layer grid verdict d).seq.reached = d.seq.reached := by
  have hlayer := layerChecked_frame h layer
  rw [MemoryOnly] at hlayer
  rcases verdict with - | ⟨bad, ratio⟩
  · exact ⟨rfl, rfl⟩
  · have hmismatch := noteMismatch_layerOnly h cluster layer grid ratio
    rw [LayerOnly] at hmismatch
    cases bad with
    | false =>
      rw [sliceNoted, if_neg Bool.false_ne_true, hlayer]
      exact ⟨rfl, rfl⟩
    | true =>
      rw [sliceNoted, if_pos rfl, hmismatch, mismatchCounted_frame, hlayer]
      exact ⟨rfl, rfl⟩

theorem sliceCounted_sliceNoted (verdict : Option (Bool × Option W32)) :
    SliceCounted cluster grid d (sliceNoted cluster layer grid verdict d) := by
  have hlayer := layerChecked_frame h layer
  have hgrids : (layerChecked layer (inc OD.slicesChecked d)).grids = d.grids := by
    rw [MemoryOnly] at hlayer
    rw [hlayer]
    rfl
  rcases verdict with - | ⟨bad, ratio⟩
  · rw [sliceNoted]
    refine .inl ⟨?_, ?_, ?_, rfl⟩
    · rw [rd_inc, if_pos rfl]
    · rw [rd_inc, if_neg (by decide)]
    · rw [rd_inc, if_neg (by decide)]
  · have hmismatch := noteMismatch_layerOnly h cluster layer grid ratio
    have hrd (k : Nat) : rd (noteMismatch cluster layer grid ratio (layerChecked layer (inc OD.slicesChecked d))) k =
        rd (mismatchCounted cluster grid ratio (layerChecked layer (inc OD.slicesChecked d))) k := by
      rw [LayerOnly] at hmismatch
      rw [hmismatch]
      rfl
    have hmarked : (noteMismatch cluster layer grid ratio (layerChecked layer (inc OD.slicesChecked d))).grids =
        (mismatchCounted cluster grid ratio (layerChecked layer (inc OD.slicesChecked d))).grids := by
      rw [LayerOnly] at hmismatch
      rw [hmismatch]
    cases bad with
    | false =>
      rw [sliceNoted, if_neg Bool.false_ne_true]
      refine .inr ⟨?_, ?_, .inl ⟨?_, hgrids⟩⟩
      · rw [rd_layerChecked h, rd_inc, if_pos rfl]
      · rw [rd_layerChecked h, rd_inc, if_neg (by decide)]
      · rw [rd_layerChecked h, rd_inc, if_neg (by decide)]
    | true =>
      rw [sliceNoted, if_pos rfl]
      refine .inr ⟨?_, ?_, .inr ⟨?_, ?_, ?_⟩⟩
      · rw [hrd, rd_mismatchCounted _ _ _ _ _ (by decide), if_neg (by decide), if_neg (by decide), rd_layerChecked h, rd_inc, if_pos rfl]
      · rw [hrd, rd_mismatchCounted _ _ _ _ _ (by decide), if_neg (by decide), if_neg (by decide), rd_layerChecked h, rd_inc,
          if_neg (by decide)]
      · rw [hrd, rd_mismatchCounted _ _ _ _ _ (by decide), if_neg (by decide), if_pos rfl, rd_layerChecked h, rd_inc, if_neg (by decide)]
      · rw [hrd, rd_mismatchCounted _ _ _ _ _ (by decide), if_pos rfl]
      · rw [hmarked, mfind_mismatchCounted, hgrids]

end Slice

/-! ## The command -/

theorem exec_tileCheck (c : Nat) (skate : Bool) (s : State) : exec (.tileCheck c skate) s = onDev (tileCheck c skate) s := rfl

/-- The unit with the oldest check of its operation taken. -/
def checkTaken (c : Nat) (skate : Bool) (r : UnitRun) (rest : List Nat) (d : Dev) : Dev :=
  setUnit (unitKey c skate) { unitOf d (unitKey c skate) with run := some { r with checks := rest } } d

/-- Where the skate path runs no operation of which no check is to come, it serves the oldest check of a unit (R215). -/
theorem tileCheck_serves {d : Dev} {c : Nat} {skate : Bool} {r : UnitRun} {i : Nat} {rest : List Nat}
    (hrun : (Claims.unitAt d c skate).run = some r) (hchecks : r.checks = i :: rest) (hfence : clusterFenced d c = false)
    (hreset : engineInReset d (0x2000 + c) = false)
    (hbetween : skate = false → ∀ q, (Claims.unitAt d c true).run = some q → q.checks ≠ []) :
    ∃ layer verdict, tileCheck c skate d = sliceNoted c layer r.op.by_.grid verdict (checkTaken c skate r rest d) := by
  have hrun' : (unitOf d (unitKey c skate)).run = some r := hrun
  have hskate : skateBetween d c = true := by
    unfold skateBetween
    cases skate with
    | true => simp [hrun', hchecks]
    | false =>
      cases hq : (unitOf d (unitKey c true)).run with
      | none => rfl
      | some q => simpa using hbetween rfl q hq
  unfold tileCheck
  dsimp only
  rw [hrun']
  dsimp only
  rw [hchecks]
  dsimp only
  rw [hfence, hreset, hskate, if_neg (by decide)]
  generalize (gridOf d r.op.by_.grid).bind (fun g => g.layer) = layer
  generalize sliceVerdict _ _ = verdict
  refine ⟨layer, verdict, ?_⟩
  rcases verdict with - | ⟨bad, ratio⟩
  · rfl
  · cases layer <;> rfl

theorem tileCheck_completes {s : State} {c : Nat} {skate : Bool} {r : UnitRun} {i : Nat} {rest : List Nat} (hc : Calm s)
    (hadmits : Admits s.m) (hrun : (Claims.unitAt s.m c skate).run = some r) (hchecks : r.checks = i :: rest)
    (hfence : clusterFenced s.m c = false) (hreset : engineInReset s.m (0x2000 + c) = false)
    (hbetween : skate = false → ∀ q, (Claims.unitAt s.m c true).run = some q → q.checks ≠ []) :
    Completes (.tileCheck c skate) s (fun d =>
      Claims.unitAt d c skate = { Claims.unitAt s.m c skate with run := some { r with checks := rest } } ∧
      SliceCounted c r.op.by_.grid s.m d) := by
  obtain ⟨layer, verdict, heffect⟩ := tileCheck_serves hrun hchecks hfence hreset hbetween
  have htaken : Admits (checkTaken c skate r rest s.m) := hadmits
  obtain ⟨hunits, hreached⟩ := sliceNoted_rest htaken c layer r.op.by_.grid verdict
  refine completes_unheld hc (exec_tileCheck c skate s) ?_ ?_ <;> rw [heffect]
  · exact hreached
  · refine ⟨?_, sliceCounted_sliceNoted htaken c layer r.op.by_.grid verdict⟩
    rw [Claims.unitAt, hunits]
    exact (unitOf_setUnit ..).trans (if_pos rfl)

theorem matrixEndPart : Claims.MatrixEndPart := by
  intro c skate s r hc hmem hrun hreset hfence
  have hadmits : Admits s.m := hmem.admits
  refine ⟨fun hchecks => ?_, fun hchecks => ⟨?_, ?_⟩,
    fun i rest hchecks hskate hbetween => tileCheck_completes hc hadmits hrun hchecks hfence hskate hbetween⟩
  · have hfreed : Admits (unitFreed c skate s.m) := hadmits
    have hframe := matrixEnded_frame hfreed c skate r
    have heffect := matrixEnd_ends hrun hchecks hreset hfence
    have hdistinct := matrixNotes_distinct c skate
    obtain ⟨hskateOps, harrayOps⟩ := countedOps_matrixEnded hfreed c skate r
    refine completes_unheld hc (exec_matrixEnd c skate r.status s) ?_ ?_ <;> rw [heffect]
    · rw [hframe]
      rfl
    · refine ⟨(unitOf_matrixEnded c skate r hfreed _).trans (if_pos rfl),
        fun k hk => (unitOf_matrixEnded c skate r hfreed k).trans (if_neg hk.symm), recordAt_matrixEnded c skate r hmem.settled,
        ccRaised_matrixEnded hfreed c skate r, summarised_matrixEnded hfreed c skate r, fun k hk => ?_, hskateOps, harrayOps,
        counted_matrixEnded hfreed c skate r hdistinct.overflowsRecords (counted_overflows _ r _ hdistinct),
        counted_matrixEnded hfreed c skate r hdistinct.failuresRecords (counted_failures _ r _ hdistinct),
        raised_matrixEnded c skate r⟩
      simp only [List.mem_cons, List.not_mem_nil, or_false, not_or] at hk
      obtain ⟨harray, hskate, hovf, hfail, hrecords⟩ := hk
      refine rd_matrixEnded_other hfreed c skate r ?_ (Ne.symm hovf) (Ne.symm hfail) hrecords
      cases skate with
      | true => exact Ne.symm hskate
      | false => exact Ne.symm harray
  · exact becomes_onDev hc (exec_matrixOpComplete c skate s) (matrixEnd_waits hrun hchecks true) rfl
  · exact becomes_onDev hc (exec_matrixReadPoison c skate s) (matrixEnd_waits hrun hchecks false) rfl

/-- Settles O21: the parts of an operation are run one after another, each reading its operands and writing its own rows; the end is a
sequence of steps that publish the record, the counter, the summary, the counts and the events. That the start has the whole effect on
memory is log entry 18, that EV_2430 carries DETAIL0 zero is log entry 65. -/
theorem matrixOperations : Obligations.MatrixOperations := ⟨matrixStartPart, matrixPartsPart, matrixEndPart⟩

end Sys2Proof.Machine
end
